-- ==== Sys2Proof/Word.lean ====
section
/-!
DEFINITION. The machine's word types (00_scope.md R3, R4): a general register is 64 bits, an
instruction word 32 bits, a packed register 256 bits, the smallest addressable unit a byte.
-/

namespace Sys2Proof

abbrev Byte := BitVec 8
abbrev W16 := BitVec 16
abbrev W32 := BitVec 32
abbrev W64 := BitVec 64
abbrev V256 := BitVec 256

/-- A 6-bit register field of a thread instruction (R294). -/
abbrev GReg := BitVec 6
/-- A 5-bit register field naming v0 to v31 (R294). -/
abbrev VReg := BitVec 5
/-- A predicate number (R198). -/
abbrev PReg := BitVec 3

end Sys2Proof
end

