-- ==== Sys2Proof/Types.lean ====
section
/-!
DEFINITION. The closed sets of names that instruction and event operands range over: rounding
modes (R283), element types (R295), formats (R275), conditions (R297, R355), scopes (R228), work
levels (R114), and what a Peal flit carries (R37, R40).
-/

namespace Sys2Proof

/-- Rounding modes, R283: RNE, RTZ, RDN, RUP. -/
inductive Rm where | rne | rtz | rdn | rup
  deriving DecidableEq, Repr

/-- The 3-bit element type, R295. -/
inductive ETy where | f64 | f32 | f16 | bf16 | i8 | i16 | i32 | i64
  deriving DecidableEq, Repr

/-- The format of a scalar floating-point major opcode, R346. -/
inductive SFmt where | f64 | f32 | f16 | bf16
  deriving DecidableEq, Repr

/-- The format codes of R275; code 7 is reserved and has no name here. -/
inductive Fmt where
  | f64 | f32 | f16 | bf16 | e4m3 | e5m2 | b4
  | i8 | u8 | i16 | u16 | i32 | u32 | i64 | u64
  deriving DecidableEq, Repr

/-- The condition codes of CMP and CMPI, R297. -/
inductive Cond where | eq | ne | lt | ge | ltn | gen
  deriving DecidableEq, Repr

/-- The access sizes of the M format, R294. -/
inductive MSize where | b | h | w | d
  deriving DecidableEq, Repr

/-- The functions of AMO and AMOF, R341. -/
inductive AmoFn where | add | adds | and | or | xor | min | max | swap
  deriving DecidableEq, Repr

/-- Scopes, R228. -/
inductive Scope where | thread | core | cluster | die | package | system
  deriving DecidableEq, Repr

/-- Levels of work, R114. -/
inductive Level where | unit | launch | graph | phase | job
  deriving DecidableEq, Repr

/-- Traffic classes of the Peal links, R37. -/
inductive FClass where | bulk | lowLatency | control | collective
  deriving DecidableEq, Repr

/-- Flit types, R37: codes 4 to 15 are reserved. -/
inductive FType where | idle | data | credit | retrain | reserved (code : Nat)
  deriving DecidableEq, Repr

/-- What a DATA flit carries. The manual names the traffic of each class (R40) and gives the
payload 228 bytes without a layout, so the payload is held as the thing it says. -/
inductive Payload where
  | empty
  /-- A SEND message to a core, with its sender's slot SITE word and the sender's request number
  (R136, R382), and the hops it has taken. -/
  | message (name core : W32) (w0 w1 : W64) (sender : W32) (req hops : Nat)
  /-- The return of a message, with the trap it makes: false STALE, true QOVF (R136). -/
  | returned (name : W32) (req : Nat) (full : Bool)
  /-- The message has been delivered (R136, R382). -/
  | delivered (req : Nat)
  /-- Remote ACOPY data, or a remote read request (R392). -/
  | write (asid : W16) (va : Nat) (data : List Byte) (req : Nat)
  | read (asid : W16) (va : Nat) (len : Nat) (req : Nat)
  /-- Completion of a remote request: cause 0, or the cause of R254 that its package met. -/
  | reply (req : Nat) (data : List Byte) (cause : Nat)
  | gangAck (tag : W32) (member : Nat)
  | gangCancel (tag : W32)
  | clapper
  | tocsin (resume : Bool)
  /-- A route notice: the request of the flit that found no route, if it belonged to one (R42, R382). -/
  | notice (req : Option Nat)
  /-- A part of the ACOLL data of one member (R394), which are `total` bytes in all: the member's list
  entry, the entry of the member they are for, and the sender's request number. -/
  | coll (gtag : W64) (n len op fmt red rank total : Nat) (data : List Byte) (sender rcpt : W32) (req : Nat)
  /-- The member of rank `rank` has aborted (R394), told to the member `rcpt`: its group tag and list
  entry, and whether it had sent its data. -/
  | collAbort (gtag : W64) (rank : Nat) (sender rcpt : W32) (sent : Bool)
  deriving DecidableEq, Repr

/-- A flit (R37). -/
structure Flit where
  seq     : Nat
  ack     : Nat
  ackv    : Bool
  nak     : Bool
  cls     : FClass
  dst     : Nat
  src     : Nat
  type    : FType
  hops    : Nat
  credits : Nat
  crClass : FClass
  len     : Nat
  /-- The flit tag: [11:0] DOMAIN, [31:12] zero. -/
  tag     : W32
  payload : Payload
  deriving DecidableEq, Repr

/-- The result a firmware verification ends with (R63). -/
inductive FwResult where | verified | badSig | rollback | dmaErr
  deriving DecidableEq, Repr

/-- What the attestation service is asked for (R66): the algorithms, the chain of a certificate slot, or a
measurement. -/
inductive SpdmReq where
  | algorithms
  | certificate (slot : Nat)
  | measurement (index : Nat)
  deriving DecidableEq, Repr

/-- Where an uncorrectable error was found (R58). -/
inductive MemKind where | hbm | ddr | sram
  deriving DecidableEq, Repr

end Sys2Proof
end

