-- ==== Sys2Proof/Config.lean ====
section
/-!
DEFINITION. What the manual leaves to the part or leaves open. Every constant here is opaque: it
has no body, so nothing can be proved of its value, and a claim about it holds whatever it is.
-/

namespace Sys2Proof.Config

/-- A fresh free value, applied to the counter `fresh` of State (log 4). -/
opaque freeWord : Nat → W64

/-- A choice the manual leaves to the part (the next of several walks, an eviction, which of several
equal entries is read), applied to the counter `fresh` of State (log 1). -/
opaque choice : Nat → Nat

/-- Free bytes: contents the manual gives no layout for, read at an address (L2 arrays, shadow
storage, task-queue area of a pool; R216, log 13). -/
opaque freeByte : Nat → Byte

/-- The full bit of an HBM4 or DDR-5 word not zeroed since the fundamental reset (R334, log 4). -/
opaque fullAtReset : Nat → Bool

/-- The approximation of a reciprocal or reciprocal square root, by function code and operand
bits, before it is held to the error bound of R288 or R166 (log 6). -/
opaque approx : Nat → W64 → W64

/-- TEMP of an island at reset, which R20 leaves unstated (log 5). -/
opaque tempAtReset : Nat → Byte

/-- Security version of the firmware running at reset and the fused minimum (R62, R67, log 5). -/
opaque svnAtReset : Byte
opaque minSvn : Byte
/-- Hash of the signing key fused in the part (R67). -/
opaque keyHash : BitVec 512
/-- The capability chain (R68): the order of the entries (by ID), the layout version and content bytes
of an entry, the bytes left free after it, and its content words, by ID, by what the entry reports
and by word. R68 names the entries and what they report; it gives no layout but that of 0x02. -/
opaque capOrder : Nat → Nat
opaque capVersion : Nat → Byte
opaque capLen : Nat → Nat
opaque capGap : Nat → Nat
opaque capWord : Nat → List Nat → Nat → W64
/-- LAT of a snapshot record, by SEQ and the record's offset, before it is held to its bound (R69). -/
opaque snapLat : Nat → Nat → Nat
/-- Values of SPDM measurements by index, applied to what the measurement is of when that may change:
the hash of the activated image (0 for the image running at reset) or the minimum SVN (R66). -/
opaque measurement : Nat → BitVec 512 → BitVec 512
/-- The certificate chain of slot 0, by the hash of the running firmware (R66). -/
opaque certChain : BitVec 512 → List Byte
/-- The hash of the match-and-replace table a firmware image carries, by the image's hash; zero for an
image without one (R65). -/
opaque tableHash : BitVec 512 → BitVec 512
/-- Port A has CXL.cache enabled (R216): the manual gives no register that says so. -/
opaque cxlCache : Bool
/-- The DIMM of DDR-5 channel n (R10, R11): its capacity, 64 · 2^k GiB, and its rank organisation;
none for a channel without one. -/
opaque dimm : Nat → Option (Fin 3 × Nat)
/-- A partition's hash of an L2 block over as many slices (R224), by number of slices and block. -/
opaque l2Hash : Nat → Nat → Nat
/-- Reed-Solomon parity of a flit's first 244 bytes (R37 names the code, not its field or generator). -/
opaque rsParity : List Byte → List Byte
/-- The payload bytes of a flit and how many words of them are no data (R37, log 11). -/
opaque payloadByte : Payload → Nat → Byte
opaque payloadHead : Payload → Nat

end Sys2Proof.Config
end

