-- ==== Sys2Proof/Syntax.lean ====
section
/-!
DEFINITION. The rows of spec/opcode_table.json: 146 thread instructions (R293 to R299) and 138
steps of the other agents. A thread instruction's operands are the fields of its word; an event's
operands name the unit it happens at and the values it carries from outside the package. Sites of
the fabric are written as a number `(die * 368 + col) * 128 + row`, cores as `8 * cluster + c`,
thread slots as `16 * core + slot`.
-/

namespace Sys2Proof

inductive Instr where
  -- Integer register operations, R315 to R317
  | add (d a b : GReg) | sub (d a b : GReg) | adds (d a b : GReg) | subs (d a b : GReg)
  | mul (d a b : GReg) | mulh (d a b : GReg) | mulhn (d a b : GReg)
  | div (d a b : GReg) | divn (d a b : GReg) | rem (d a b : GReg) | remn (d a b : GReg)
  | and (d a b : GReg) | or (d a b : GReg) | xor (d a b : GReg)
  | shl (d a b : GReg) | shr (d a b : GReg) | sra (d a b : GReg)
  | min (d a b : GReg) | max (d a b : GReg) | minn (d a b : GReg) | maxn (d a b : GReg)
  | clz (d a : GReg) | ctz (d a : GReg) | popc (d a : GReg) | brev (d a : GReg)
  | sel (d : GReg) (n : PReg) (a b : GReg)
  -- Immediates, constants, bit fields, R318 to R321
  | addi (d a : GReg) (imm : BitVec 14) | andi (d a : GReg) (imm : BitVec 14)
  | ori (d a : GReg) (imm : BitVec 14) | xori (d a : GReg) (imm : BitVec 14)
  | shli (d a : GReg) (sh : BitVec 6) | shri (d a : GReg) (sh : BitVec 6)
  | srai (d a : GReg) (sh : BitVec 6)
  | cmpi (p : PReg) (cc : Cond) (a : GReg) (imm : BitVec 14)
  | lih (d : GReg) (k : BitVec 2) (imm : BitVec 14) | addpc (d : GReg) (imm : BitVec 14)
  | ext (d a : GReg) (width1 pos : BitVec 6) | ins (d a : GReg) (width1 pos : BitVec 6)
  -- Address and predicates, R322 to R325
  | lea (d a b : GReg) (s : BitVec 2) | site (d a : GReg)
  | cmp (p : PReg) (cc : Cond) (a b : GReg)
  | plog (p a b : PReg) (tt : BitVec 4)
  -- Memory, R330 to R340
  | ld (d base : GReg) (off : BitVec 10) (sz : MSize) (sx ord : Bool)
  | st (src base : GReg) (off : BitVec 10) (sz : MSize) (ord : Bool)
  | ldv (vd : VReg) (base : GReg) (off : BitVec 10) (ord : Bool)
  | stv (vs : VReg) (base : GReg) (off : BitVec 10) (ord : Bool)
  | ldf (d base : GReg) (off : BitVec 10) (clr ord : Bool)
  | stf (src base : GReg) (off : BitVec 10) (ord : Bool)
  | ste (a b : GReg) | feset (a : GReg) | feclr (a : GReg)
  | pref (a : GReg) (lvl : BitVec 6)
  | rlx (n1 : BitVec 3) | fence (sc : Scope)
  -- Atomics, R341 to R344
  | amo (fn : AmoFn) (a b c : GReg) (rel acq dbl : Bool)
  | cas (a b c : GReg) (rel acq dbl : Bool)
  | amof (fn : AmoFn) (a b c : GReg) (rel acq : Bool)
  -- Control, R326 to R329, R412
  | br (p : PReg) (sense : Bool) (off : BitVec 22) | jmp (off : BitVec 26)
  | jal (off : BitVec 26) | jr (a b : GReg) | exit | yield
  | trap (imm : BitVec 14) | svc (imm : BitVec 14)
  -- Synchronisation, R376 to R385
  | waitw (a b c : GReg) | cntadd (a b c : GReg) | cntwait (a b c : GReg) | bar (a b : GReg)
  | send (a b c : GReg) | recv (a b c : GReg) | uiret | qwait (a b c : GReg)
  -- Scalar floating point, R346 to R358
  | fadd (f : SFmt) (d a b : GReg) (rm : Rm) | fsub (f : SFmt) (d a b : GReg) (rm : Rm)
  | fmul (f : SFmt) (d a b : GReg) (rm : Rm) | ffma (f : SFmt) (d a b : GReg) (rm : Rm)
  | fmin (f : SFmt) (d a b : GReg) | fmax (f : SFmt) (d a b : GReg)
  | frcp (f : SFmt) (d a : GReg) | frsq (f : SFmt) (d a : GReg)
  | frcpr (f : SFmt) (d a b : GReg) (rm : Rm) | frsqr (f : SFmt) (d a b : GReg) (rm : Rm)
  | fcmp (f : SFmt) (p : PReg) (a b : GReg) (sig : Bool) (cc : BitVec 3)
  | fclass (f : SFmt) (d a : GReg) | fsgn (f : SFmt) (d a b : GReg) (mode : BitVec 2)
  | fcvt (f : SFmt) (d a : GReg) (g : Fmt) (rm : Rm)
  | icvt (f : SFmt) (d a : GReg) (g : Fmt) (rm : Rm)
  | fcvti (f : SFmt) (d a : GReg) (g : Fmt) (rm : Rm)
  -- Packed, R359 to R373
  | vadd (vd va vb : VReg) (ty : ETy) (rm : Rm) (md : BitVec 2)
  | vsub (vd va vb : VReg) (ty : ETy) (rm : Rm) (md : BitVec 2)
  | vmul (vd va vb : VReg) (ty : ETy) (rm : Rm) (md : BitVec 2)
  | vfma (vd va vb : VReg) (ty : ETy) (rm : Rm) (md : BitVec 2)
  | vmin (vd va vb : VReg) (ty : ETy) (md : BitVec 2)
  | vmax (vd va vb : VReg) (ty : ETy) (md : BitVec 2)
  | vdot (vd va vb : VReg) (ty : ETy) (rm : Rm) (md : BitVec 2)
  | vcvt (vd va : VReg) (g : Fmt) (ty : ETy) (rm : Rm) (sat : Bool)
  | vcvtDesc (vd va : VReg) (g : Fmt) (k : BitVec 2)
  | vscale (vd va vb : VReg) (ty : ETy) (rm : Rm) (bc : Bool)
  | vshuf (vd va vb : VReg) (ty : ETy) (z : Bool)
  | vbcast (vd va : VReg) (k : BitVec 5) (ty : ETy)
  | vsel (vd va vb : VReg) (ty : ETy)
  | vcmp (vd va vb : VReg) (ty : ETy) (cc : BitVec 2)
  | vred (vd va : VReg) (ty : ETy) (rm : Rm) (op : BitVec 2)
  | vlog (vd va vb : VReg) (op : BitVec 2)
  | vshift (vd va vb : VReg) (ty : ETy) (op : BitVec 2)
  | vmovg (d : GReg) (va : VReg) (b : GReg) (ty : ETy)
  | vmovv (vd : VReg) (a b : GReg) (ty : ETy)
  -- Matrix, R387 to R389, R211
  | mxa (a b : GReg) | mxb (a b : GReg) | mxc (a b c : GReg) | mxgo (c : GReg)
  | mxdrain (a b c : GReg) | mxrel
  -- Async engines, R390 to R396
  | acopy (a c : GReg) (ui : Bool) | agather (a c : GReg) (ui : Bool)
  | ascatter (a c : GReg) (ui : Bool) | acoll (a c : GReg) (ui : Bool)
  | await (a c : GReg) | acancel (a c : GReg)
  -- Fabric and streams, R397 to R404
  | cfgload (a b c : GReg) | cfgarm (a c : GReg) | cfgshadow (a b c : GReg)
  | roll (a b c : GReg) | cfgpatch (a b c : GReg) | qput (a b c : GReg) | qtake (a b c : GReg)
  | ereply (a b c : GReg) (k : Fin 3) | edrop (a : GReg) | ctok (a b c : GReg)
  -- Scheduling, R405 to R409
  | launch (a b c : GReg) | spawn (a c : GReg) | prio (a c : GReg)
  | cancel (a : GReg) (lv : Level) | cancelFault (a : GReg) (lv : Level)
  -- System, R410 to R417
  | mfs (d : GReg) (num : BitVec 12) | mts (a : GReg) (num : BitVec 12) | tret
  | ilock (d a : GReg) | iunlock (d a : GReg) | iflush | tlbinv (d a : GReg)
  | snap (d : GReg) | brk | hint (n : BitVec 6) | waiti (d : GReg)
  -- Fetch outcomes, R299, R254
  | unassignedEncoding (w : W32) | instructionFetchFault
  -- Reset, power, bridge, R20 to R33, R80
  | islandTransitionDone (n : Nat) | circuitTransfer (prt slot idx : Nat)
  -- Peal links, R36 to R46
  | flitTransmit (n : Nat) | routeNotice (req : Nat)
  -- Host interface, R48 to R66
  | jobRecordTake (vf : Nat) | fwActivateDone
  -- Clapper, comparators, Tocsin, R69 to R75
  | tocsinHalted | tocsinStepEnd
  -- Elastic partitions, R85 to R113
  | resizePropose | resizeGuard | resizeDrain | regionMove (slot : Nat) | coreMove (core : Nat)
  | hbmSweepPage | resizeMigrate | rehashSweepLine (line : Nat) | resizeRehash | resizeScrub
  | resizeCommit
  -- Scheduler, R114 to R139
  | phaseStart (q job : Nat) | launchRecordRead (q graph : Nat) | schedulerDecision
  | launchPromote (q slot : Nat) | gangDeadline (q phase : Nat) | taskDispatch (core : Nat)
  | taskPacketPromote (core : Nat) | messageDelivery (id : Nat) | messageReturn (id : Nat)
  -- Context slots, R266 to R273
  | ctxSwapDone (q : Nat) | ctxSpillDone (q : Nat) | ctxFillDone (q : Nat)
  -- Fabric, R140 to R189
  | elementFire (site : Nat) | elementResult (site : Nat) | tokenHop (site dir : Nat)
  | tileRead (site : Nat) | tilePortBOp (site : Nat) | fifoAppend (site : Nat)
  | fifoEmit (site : Nat) | cacheLineFill (site : Nat) | fibreUnitFire (site : Nat)
  | generatorLoadEmit (site n : Nat) | generatorStoreWrite (site n : Nat)
  | patchMiss (site n : Nat) | extentRefill (site n : Nat) | transGrant (col : Nat)
  | transReply (col : Nat) | escapeThreadStart (site : Nat) | escapeTokenLeave (site : Nat)
  | windowPublish (prt slot w : Nat) | hushSweep (prt slot : Nat) | hushStall (prt slot : Nat)
  | configLoadComplete (port : Nat) | regionArm (prt slot : Nat) | siteSwap (site : Nat)
  | matrixTileEmit (cluster : Nat) | fabricFault (site code : Nat)
  | regionClockStop (prt slot : Nat) | fabricPageFaultScanout (prt slot : Nat)
  | regionReload (prt slot : Nat)
  -- Threads' replies and walks, R192, R200, R246
  | uiTake | memoryReply (tid idx : Nat) | pageWalkDone (cluster : Nat)
  -- Matrix tile and engines
  | kStepGrant (cluster : Nat) | kStepDone (cluster : Nat) | drainRowStart (cluster : Nat)
  | drainRowWrite (cluster : Nat) | asyncCommandComplete (id : Nat)
  -- MMU
  | shootdownAck (q agent : Nat) | migGranuleCopy (q s : Nat) | migComplete (q s : Nat)
  | asyncEngineTransfer (id : Nat)
  -- Steps that only the outside of the package, its sensors or its supervisor begin
  | fundamentalReset | pwrIslCtlWrite (n : Nat) (v : W32) | thermalThrottle (n temp : Nat)
  | limiterStep (n temp : Nat) | thermalShutdown (n : Nat) | bridgeReplay | bridge
  | lnkPkgidWrite (v : W32) | linkEnable (n : Nat) (v : W32) | linkClr (n : Nat)
  | linkTrainDone (n lanes peer : Nat) | linkDown (n : Nat) | linkRetrain (n : Nat)
  | flitReceive (n : Nat) (f : Flit) (crcOk : Bool)
  | remoteMemoryRequest (src domain : Nat) (p : Payload)
  | lnkPrtRtWrite (q cls dst : Nat) (v : W32) | lnkLinkmaskWrite (q : Nat) (v : W32)
  | lnkDomainWrite (q : Nat) (v : W32) | vfBindWrite (vf : Nat) (v : W32)
  | doorbell (vf port : Nat) (v : W32) | vfFlr (vf : Nat) | pf0Flr | pf1Flr
  | memoryUncorrectableError (k : MemKind) (addr : Nat) | cxlerr | fwfail
  | hostCxlMemRequest (write : Bool) (addr : Nat) (data : List Byte) | hostSnoop (addr : Nat)
  | hostBar2Access (pf : Nat) (write : Bool) (off n : Nat) (data : List Byte) | fwStart
  | fwVerifyDone (r : FwResult) (hash : BitVec 512) (svn : Byte) (raises : Bool) | fwActivate
  | spdmRequest (pf : Nat) (r : SpdmReq) | ideKm (port stream : Nat) (key : BitVec 256) | clapperFire
  | clapperArm (v : W32) | remoteClapperTrigger | dbgEvtWrite (n : Nat) (v : W32) | tocsinHalt
  | tocsinStep | tocsinResume | remoteTocsin (resume : Bool) | prtCreate (q : Nat) (sup : Bool)
  | prtResize (q : Nat) (sup : Bool) | prtDestroy (q : Nat) (sup : Bool) | prtGrdClr (q : Nat)
  | prtQuotaWrite (q : Nat) (v : W64) | gangAckReceive (q : Nat) (tag : W32) (member : Nat)
  | gangCancelReceive (q : Nat) (tag : W32) | schCancelWrite (q : Nat) (v : W64)
  | epsync (q : Nat) (name : W32) | epdirWrite (q : Nat) (v : W64) | cntvalRead (vf : Nat)
  | ctxSwap (q : Nat) | ctxSpill (q : Nat) | ctxFill (q : Nat) | frackResume (q : Nat) (v : W64)
  | poolpwWrite (core ctx : Nat) (v : W64) | mtpwWrite (q x : Nat) (v : W64)
  | frbaseWrite (q : Nat) (v : W64) | rqdescWrite (core ctx n : Nat) (v : W64)
  | collectiveDataReceive (id rank : Nat) (gtag : W64) (n len op fmt red : Nat) (data : List Byte)
  | mmuInvctlGo (q : Nat) (v : W64) | migStart (q s : Nat) (v : W64)
  | registerWrite (fn off : Nat) (v : W64)
  deriving DecidableEq, Repr

end Sys2Proof
end

