-- ==== Sys2Proof/WellFormed.lean ====
section
/-!
DEFINITION. Which terms of `Instr` stand for something that can occur: the operand constraints the
manual puts on an instruction word beyond its fixed fields (R298, R299, R321, R338, R347, R360,
R365, R366, R368, R374, R404, R418), and for an event that its operands name units of the package.
-/

namespace Sys2Proof

namespace ETy
def isFloat : ETy → Bool
  | .f64 | .f32 | .f16 | .bf16 => true
  | .i8 | .i16 | .i32 | .i64 => false
/-- Bits of a lane, R295. -/
def width : ETy → Nat
  | .f64 | .i64 => 64
  | .f32 | .i32 => 32
  | .f16 | .bf16 | .i16 => 16
  | .i8 => 8
/-- Lanes of a packed register, R359. -/
def lanes (t : ETy) : Nat := 256 / t.width
def fmt : ETy → Fmt
  | .f64 => .f64 | .f32 => .f32 | .f16 => .f16 | .bf16 => .bf16
  | .i8 => .i8 | .i16 => .i16 | .i32 => .i32 | .i64 => .i64
end ETy

namespace SFmt
def fmt : SFmt → Fmt
  | .f64 => .f64 | .f32 => .f32 | .f16 => .f16 | .bf16 => .bf16
end SFmt

namespace Fmt
def isFloat : Fmt → Bool
  | .f64 | .f32 | .f16 | .bf16 | .e4m3 | .e5m2 => true
  | _ => false
def isInt : Fmt → Bool
  | .i8 | .u8 | .i16 | .u16 | .i32 | .u32 | .i64 | .u64 => true
  | _ => false
def isSigned : Fmt → Bool
  | .i8 | .i16 | .i32 | .i64 => true
  | _ => false
/-- Bits of one element, R275; a B4 code has 4. -/
def width : Fmt → Nat
  | .f64 | .i64 | .u64 => 64
  | .f32 | .i32 | .u32 => 32
  | .f16 | .bf16 | .i16 | .u16 => 16
  | .e4m3 | .e5m2 | .i8 | .u8 => 8
  | .b4 => 4
/-- Elements of a packed register, R366. -/
def perReg : Fmt → Nat
  | .b4 => 32
  | f => 256 / f.width
def code : Fmt → Nat
  | .f64 => 0 | .f32 => 1 | .f16 => 2 | .bf16 => 3 | .e4m3 => 4 | .e5m2 => 5 | .b4 => 6
  | .i8 => 8 | .u8 => 9 | .i16 => 10 | .u16 => 11 | .i32 => 12 | .u32 => 13 | .i64 => 14
  | .u64 => 15
end Fmt

/-- The register groups of a conversion fit (R366). -/
def cvtFits (vd va : VReg) (src dst : Fmt) : Bool :=
  let n := Nat.max src.perReg dst.perReg
  let ns := n / src.perReg
  let nd := n / dst.perReg
  decide (ns ≤ 8) && decide (nd ≤ 8) && decide (va.toNat + ns ≤ 32) && decide (vd.toNat + nd ≤ 32)

/-- System register numbers that R418 assigns. -/
def sysAssigned (n : Nat) : Bool :=
  decide (n ≤ 9) || (decide (0x10 ≤ n) && decide (n ≤ 0x17)) ||
  (decide (0x20 ≤ n) && decide (n ≤ 0x3F)) || (decide (0x100 ≤ n) && decide (n ≤ 0x105)) ||
  (decide (0x110 ≤ n) && decide (n ≤ 0x114)) || n == 0x118 || n == 0x119 || n == 0x11C ||
  n == 0x11D || (decide (0x120 ≤ n) && decide (n ≤ 0x12F)) || n == 0x130 || n == 0x131 ||
  n == 0x132 || n == 0x138

/-- ft0 to ft3 and sc0 to sc3: an MTS of them traps ILL at every privilege (R194). -/
def sysReadOnlyIll (n : Nat) : Bool := decide (0x10 ≤ n) && decide (n ≤ 0x17)

/-- Units of the package (R12 to R16, R26): sites, cores, clusters, thread slots and the rest. -/
def nSites : Nat := 736 * 128
def nCores : Nat := 2048
def nClusters : Nat := 256
def nThreads : Nat := 32768
def nPrt : Nat := 64
def nSlots : Nat := 4096

def WellFormed : Instr → Bool
  | .ext _ _ w1 p | .ins _ _ w1 p => decide (w1.toNat + 1 + p.toNat ≤ 64)
  | .ld _ _ _ sz sx _ => !(sx && decide (sz = .d))
  | .pref _ l => decide (l.toNat ≤ 1)
  | .fcvt f _ _ g _ => g.isFloat && !decide (g = f.fmt)
  | .icvt _ _ _ g _ | .fcvti _ _ _ g _ => g.isInt
  | .fsgn _ _ _ _ m => decide (m.toNat ≤ 2)
  | .vadd _ _ _ ty rm md | .vsub _ _ _ ty rm md | .vmul _ _ _ ty rm md =>
    if ty.isFloat then decide (md = 0) else decide (md.toNat ≤ 2) && decide (rm = .rne)
  | .vfma _ _ _ ty rm md =>
    if ty.isFloat then decide (md = 0) else decide (md.toNat ≤ 1) && decide (rm = .rne)
  | .vmin _ _ _ ty md | .vmax _ _ _ ty md =>
    if ty.isFloat then decide (md = 0) else decide (md.toNat ≤ 1)
  | .vdot _ _ _ ty rm md =>
    match ty with
    | .f32 | .f16 | .bf16 => decide (md = 0)
    | .i8 | .i16 => decide (md.toNat ≤ 2) && decide (rm = .rne)
    | _ => false
  | .vcvt vd va g ty _ _ => !decide (g = ty.fmt) && !decide (g = .b4) && cvtFits vd va ty.fmt g
  | .vscale _ _ _ ty _ _ => ty.isFloat
  | .vbcast _ _ k ty => decide (k.toNat < ty.lanes)
  | .vcmp _ _ _ ty cc => ty.isFloat || decide (cc.toNat ≤ 2)
  | .vred _ _ ty rm op =>
    decide (op.toNat ≤ 2) && (decide (rm = .rne) || (ty.isFloat && decide (op = 0)))
  | .vshift _ _ _ ty op => !ty.isFloat && decide (op.toNat ≤ 2)
  | .ereply _ b c k =>
    match k with
    | 0 => decide (b = 0) && decide (c = 0)
    | 1 => decide (c = 0)
    | 2 => true
  | .mfs _ n => sysAssigned n.toNat
  | .mts _ n => sysAssigned n.toNat && !sysReadOnlyIll n.toNat
  | .pwrIslCtlWrite n _ | .islandTransitionDone n | .thermalThrottle n _ | .limiterStep n _
  | .thermalShutdown n => decide (n < 40)
  | .circuitTransfer q s i => decide (q < nPrt) && decide (s < nSlots) && decide (i < 64)
  | .linkEnable n _ | .linkClr n | .linkDown n | .linkRetrain n | .flitTransmit n
  | .flitReceive n _ _ => decide (n < 16)
  | .linkTrainDone n l p => decide (n < 16) && (l == 8 || l == 4) && decide (p < 256)
  | .remoteMemoryRequest s d _ => decide (s < 256) && decide (d < 4096)
  | .lnkPrtRtWrite q c d _ => decide (q < nPrt) && decide (c < 4) && decide (d < 256)
  | .lnkLinkmaskWrite q _ | .lnkDomainWrite q _ | .prtCreate q _ | .prtResize q _
  | .prtDestroy q _ | .prtGrdClr q | .prtQuotaWrite q _ | .gangAckReceive q _ _
  | .gangCancelReceive q _ | .schCancelWrite q _ | .epsync q _ | .epdirWrite q _ | .ctxSwap q
  | .ctxSwapDone q | .ctxSpill q | .ctxSpillDone q | .ctxFill q | .ctxFillDone q
  | .frackResume q _ | .frbaseWrite q _ | .mmuInvctlGo q _ | .shootdownAck q _ =>
    decide (q < nPrt)
  | .vfBindWrite v _ | .jobRecordTake v | .vfFlr v | .cntvalRead v => decide (v < 256)
  | .doorbell v p _ => decide (v < 256) && decide (p < 2)
  | .hostBar2Access pf _ off n d =>
    decide (pf < 2) && decide (off + n ≤ 2 ^ 32) && decide (d.length ≤ n)
  | .spdmRequest pf r => decide (pf < 2) &&
    (match r with | .algorithms => true | .certificate i => decide (i < 8) | .measurement i => decide (i < 256))
  | .ideKm p s _ => decide (p < 2) && decide (s < 5)
  | .dbgEvtWrite n _ => decide (n < 8)
  | .regionMove s => decide (s < nSlots)
  | .coreMove c | .taskDispatch c | .taskPacketPromote c => decide (c < nCores)
  | .phaseStart q j => decide (q < nPrt) && decide (j < 16)
  | .launchRecordRead q g => decide (q < nPrt) && decide (g < 256)
  | .launchPromote q s | .hushSweep q s | .hushStall q s | .regionArm q s | .regionClockStop q s
  | .fabricPageFaultScanout q s | .regionReload q s => decide (q < nPrt) && decide (s < nSlots)
  | .gangDeadline q p => decide (q < nPrt) && decide (p < 64)
  | .windowPublish q s w => decide (q < nPrt) && decide (s < nSlots) && decide (w < 8)
  | .elementFire s | .elementResult s | .tileRead s | .tilePortBOp s | .fifoAppend s | .fifoEmit s
  | .cacheLineFill s | .fibreUnitFire s | .escapeThreadStart s | .escapeTokenLeave s
  | .siteSwap s => decide (s < nSites)
  | .tokenHop s d => decide (s < nSites) && decide (d < 4)
  | .generatorLoadEmit s n | .generatorStoreWrite s n | .patchMiss s n | .extentRefill s n =>
    decide (s < nSites) && decide (n < 5)
  | .transGrant c | .transReply c => decide (c < 736)
  | .configLoadComplete p => decide (p < 512)
  | .fabricFault s c => decide (s < nSites) && decide (1 ≤ c) && decide (c ≤ 11)
  | .memoryReply t i => decide (t < nThreads) && decide (i < 8)
  | .matrixTileEmit c | .pageWalkDone c | .kStepGrant c | .kStepDone c | .drainRowStart c
  | .drainRowWrite c => decide (c < nClusters)
  | .poolpwWrite c x _ => decide (c < nCores) && decide (x < 2)
  | .mtpwWrite q x _ => decide (q < nPrt) && decide (x < 2)
  | .rqdescWrite c x n _ => decide (c < nCores) && decide (x < 2) && decide (n < 16)
  | .migStart q s _ | .migGranuleCopy q s | .migComplete q s => decide (q < nPrt) && decide (s < 4)
  | .registerWrite fn _ _ => decide (fn < 258)
  | _ => true

/-- The thread instructions: the rows of the table that have an encoding. -/
def isThreadInstr : Instr → Bool
  | .add .. | .sub .. | .adds .. | .subs .. | .mul .. | .mulh .. | .mulhn .. | .div .. | .divn ..
  | .rem .. | .remn .. | .and .. | .or .. | .xor .. | .shl .. | .shr .. | .sra .. | .min ..
  | .max .. | .minn .. | .maxn .. | .clz .. | .ctz .. | .popc .. | .brev .. | .sel .. | .addi ..
  | .andi .. | .ori .. | .xori .. | .shli .. | .shri .. | .srai .. | .cmpi .. | .lih ..
  | .addpc .. | .ext .. | .ins .. | .lea .. | .site .. | .cmp .. | .plog .. | .ld .. | .st ..
  | .ldv .. | .stv .. | .ldf .. | .stf .. | .ste .. | .feset .. | .feclr .. | .pref .. | .rlx ..
  | .fence .. | .amo .. | .cas .. | .amof .. | .br .. | .jmp .. | .jal .. | .jr .. | .exit
  | .yield | .trap .. | .svc .. | .waitw .. | .cntadd .. | .cntwait .. | .bar .. | .send ..
  | .recv .. | .uiret | .qwait .. | .fadd .. | .fsub .. | .fmul .. | .ffma .. | .fmin ..
  | .fmax .. | .frcp .. | .frsq .. | .frcpr .. | .frsqr .. | .fcmp .. | .fclass .. | .fsgn ..
  | .fcvt .. | .icvt .. | .fcvti .. | .vadd .. | .vsub .. | .vmul .. | .vfma .. | .vmin ..
  | .vmax .. | .vdot .. | .vcvt .. | .vcvtDesc .. | .vscale .. | .vshuf .. | .vbcast ..
  | .vsel .. | .vcmp .. | .vred .. | .vlog .. | .vshift .. | .vmovg .. | .vmovv .. | .mxa ..
  | .mxb .. | .mxc .. | .mxgo .. | .mxdrain .. | .mxrel | .acopy .. | .agather .. | .ascatter ..
  | .acoll .. | .await .. | .acancel .. | .cfgload .. | .cfgarm .. | .cfgshadow .. | .roll ..
  | .cfgpatch .. | .qput .. | .qtake .. | .ereply .. | .edrop .. | .ctok .. | .launch ..
  | .spawn .. | .prio .. | .cancel .. | .cancelFault .. | .mfs .. | .mts .. | .tret | .ilock ..
  | .iunlock .. | .iflush | .tlbinv .. | .snap .. | .brk | .hint .. | .waiti .. => true
  | _ => false

end Sys2Proof
end

