-- ==== Sys2Proof/Machine/Float.lean ====
section
/-!
DEFINITION. Number formats and floating-point arithmetic (10_arithmetic.md R275 to R291): unpacking
to exact dyadic values, one rounding at the end, the five flags. Bit patterns are `Nat`s below
`2 ^ width`; flags are the five bits of FFLAGS, NV DZ OF UF NX from bit 4 down (R285).
-/

namespace Sys2Proof.Machine.FP

open Sys2Proof

abbrev Flags := BitVec 5
def NV : Flags := 16
def DZ : Flags := 8
def OF : Flags := 4
def UF : Flags := 2
def NX : Flags := 1

/-- Fraction bits, R277. -/
def mb : Fmt → Nat
  | .f64 => 52 | .f32 => 23 | .f16 => 10 | .bf16 => 7 | .e4m3 => 3 | .e5m2 => 2 | _ => 0
/-- Exponent bits, R277. -/
def eb : Fmt → Nat
  | .f64 => 11 | .f32 => 8 | .f16 => 5 | .bf16 => 8 | .e4m3 => 4 | .e5m2 => 5 | _ => 0
def bias : Fmt → Int
  | .f64 => 1023 | .f32 => 127 | .f16 => 15 | .bf16 => 127 | .e4m3 => 7 | .e5m2 => 15 | _ => 0

/-- Sign bit, exponent field and fraction field of a pattern. -/
def sgn (f : Fmt) (x : Nat) : Bool := x / 2 ^ (mb f + eb f) % 2 == 1
def expo (f : Fmt) (x : Nat) : Nat := x / 2 ^ mb f % 2 ^ eb f
def frac (f : Fmt) (x : Nat) : Nat := x % 2 ^ mb f
/-- Pattern without its sign. -/
def mag (f : Fmt) (x : Nat) : Nat := x % 2 ^ (mb f + eb f)
def withSign (f : Fmt) (neg : Bool) (m : Nat) : Nat := (if neg then 2 ^ (mb f + eb f) else 0) + m

/-- Magnitude pattern of the largest finite value (R277). -/
def maxMag (f : Fmt) : Nat :=
  match f with
  | .e4m3 => 0x7E
  | _ => (2 ^ eb f - 1) * 2 ^ mb f - 1
/-- Magnitude pattern of infinity; E4M3 has none (R277). -/
def infMag (f : Fmt) : Nat := (2 ^ eb f - 1) * 2 ^ mb f

def isNan (f : Fmt) (x : Nat) : Bool :=
  match f with
  | .e4m3 => mag f x == 0x7F
  | _ => decide (infMag f < mag f x)
/-- Quiet when the top fraction bit is 1; both E4M3 NaNs are quiet (R278). -/
def isSnan (f : Fmt) (x : Nat) : Bool :=
  isNan f x && !decide (f = .e4m3) && frac f x / 2 ^ (mb f - 1) == 0
def isInf (f : Fmt) (x : Nat) : Bool := !decide (f = .e4m3) && mag f x == infMag f
def isZero (f : Fmt) (x : Nat) : Bool := mag f x == 0
def isSub (f : Fmt) (x : Nat) : Bool := expo f x == 0 && frac f x != 0

/-- The default NaN (R278). -/
def defNan (f : Fmt) : Nat :=
  match f with
  | .e4m3 => 0x7F
  | _ => infMag f + 2 ^ (mb f - 1)

/-- A NaN of format `f`, quieted and carried into format `g` (R279). -/
def carryNan (f g : Fmt) (x : Nat) : Nat :=
  match g with
  | .e4m3 => withSign g (sgn f x) 0x7F
  | _ =>
    let m := frac f x ||| 2 ^ (mb f - 1)
    let m' := if mb g < mb f then m / 2 ^ (mb f - mb g) else m * 2 ^ (mb g - mb f)
    withSign g (sgn f x) (infMag g + (if m' = 0 then 2 ^ (mb g - 1) else m'))

/-- An exact value: a signed zero, a signed `m * 2 ^ e` with m positive, or an infinity. -/
inductive Num where
  | zero (neg : Bool)
  | fin (neg : Bool) (m : Nat) (e : Int)
  | inf (neg : Bool)
  deriving DecidableEq, Repr

/-- The value of a pattern that is not a NaN (R277). -/
def num (f : Fmt) (x : Nat) : Num :=
  if isInf f x then .inf (sgn f x)
  else if mag f x = 0 then .zero (sgn f x)
  else if expo f x = 0 then .fin (sgn f x) (frac f x) (1 - bias f - mb f)
  else .fin (sgn f x) (frac f x + 2 ^ mb f) ((expo f x : Int) - bias f - mb f)

def Num.neg : Num → Bool
  | .zero n => n | .fin n _ _ => n | .inf n => n

def Num.flip : Num → Num
  | .zero n => .zero (!n) | .fin n m e => .fin (!n) m e | .inf n => .inf (!n)

/-- Number of bits of a positive natural. -/
def blen (m : Nat) : Nat := if m = 0 then 0 else Nat.log2 m + 1

/-- Rounds `m * 2 ^ e` to a multiple of `2 ^ q`: the multiple and whether it is exact. -/
def roundTo (rm : Rm) (neg : Bool) (m : Nat) (e q : Int) : Nat × Bool :=
  if q ≤ e then (m * 2 ^ (e - q).toNat, true)
  else
    let s := (q - e).toNat
    let fl := m / 2 ^ s
    let r := m % 2 ^ s
    if r = 0 then (fl, true)
    else
      let up : Bool :=
        match rm with
        | .rne => if 2 * r = 2 ^ s then fl % 2 == 1 else decide (2 ^ s < 2 * r)
        | .rtz => false
        | .rdn => neg
        | .rup => !neg
      (if up then fl + 1 else fl, false)

/-- What an overflow delivers (R284); `sat` is the saturation into FP8 of R286. -/
def overflow (f : Fmt) (rm : Rm) (neg sat : Bool) : Nat :=
  let toInf : Bool :=
    match rm with
    | .rne => true | .rtz => false | .rdn => neg | .rup => !neg
  match f with
  | .e4m3 => withSign f neg (if sat then 0x7E else 0x7F)
  | .e5m2 => withSign f neg (if sat || !toInf then maxMag f else infMag f)
  | _ => withSign f neg (if toInf then infMag f else maxMag f)

/-- Rounds a non-zero exact value into `f` (R283, R284). -/
def roundFin (f : Fmt) (rm : Rm) (sat neg : Bool) (m : Nat) (e : Int) : Nat × Flags :=
  let big : Int := e + blen m - 1
  let emin : Int := 1 - bias f
  let q : Int := (if big < emin then emin else big) - mb f
  let (sig, exact) := roundTo rm neg m e q
  let packed : Nat := ((q + mb f + bias f - 1) * 2 ^ mb f + sig).toNat
  if maxMag f < packed then (overflow f rm neg sat, OF ||| NX)
  else
    let (sig', _) := roundTo rm neg m e (big - mb f)
    let tiny : Bool :=
      decide (big < emin) && !(decide (big = emin - 1) && decide (sig' = 2 ^ (mb f + 1)))
    (withSign f neg packed,
      if exact then 0 else if tiny then UF ||| NX else NX)

/-- Rounds an exact value into `f`; infinities follow R286 for E4M3. -/
def roundNum (f : Fmt) (rm : Rm) (sat : Bool) : Num → Nat × Flags
  | .zero n => (withSign f n 0, 0)
  | .fin n m e => roundFin f rm sat n m e
  | .inf n =>
    match f with
    | .e4m3 => if sat then (withSign f n 0x7E, 0) else (withSign f n 0x7F, NV)
    | .e5m2 => (withSign f n (infMag f), 0)
    | _ => (withSign f n (infMag f), 0)

/-- Exact product; none for infinity times zero. -/
def Num.mul : Num → Num → Option Num
  | .inf _, .zero _ => none
  | .zero _, .inf _ => none
  | .inf n, y => some (.inf (n != y.neg))
  | x, .inf n => some (.inf (n != x.neg))
  | .zero n, y => some (.zero (n != y.neg))
  | x, .zero n => some (.zero (n != x.neg))
  | .fin n m e, .fin n' m' e' => some (.fin (n != n') (m * m') (e + e'))

/-- Least exponent among the finite terms. -/
def minExp : List Num → Option Int
  | [] => none
  | .fin _ _ e :: r =>
    match minExp r with
    | none => some e
    | some e' => some (if e < e' then e else e')
  | _ :: r => minExp r

/-- Sum of the finite terms in units of `2 ^ e0`. -/
def intSum (e0 : Int) : List Num → Int
  | [] => 0
  | .fin n m e :: r =>
    (if n then -((m : Int) * 2 ^ (e - e0).toNat) else (m : Int) * 2 ^ (e - e0).toNat) + intSum e0 r
  | _ :: r => intSum e0 r

/-- The exact sum of terms, with the sign of an exact zero of R351 and R290; none when it holds
infinities of opposite sign. -/
def sumExact (rm : Rm) (ts : List Num) : Option Num :=
  let infs := ts.filter fun t => match t with | .inf _ => true | _ => false
  match infs with
  | i :: r => if r.all (fun t => t.neg == i.neg) then some (.inf i.neg) else none
  | [] =>
    let zeroSign : Bool :=
      match ts with
      | [] => false
      | t :: r =>
        if ts.all (fun t => match t with | .zero _ => true | _ => false) &&
            r.all (fun u => u.neg == t.neg) then t.neg
        else decide (rm = .rdn)
    match minExp ts with
    | none => some (.zero zeroSign)
    | some e0 =>
      let v := intSum e0 ts
      if v = 0 then some (.zero zeroSign)
      else some (.fin (decide (v < 0)) v.natAbs e0)

/-- Flags of signalling NaN operands (R279). -/
def snanFlag (l : List (Fmt × Nat)) : Flags := if l.any (fun x => isSnan x.1 x.2) then NV else 0

/-- The first NaN among operands, carried into `g` (R279). -/
def firstNan (g : Fmt) : List (Fmt × Nat) → Option Nat
  | [] => none
  | (f, x) :: r => if isNan f x then some (carryNan f g x) else firstNan g r

/-- `Σ products + addend`, exact inside and rounded once into `g` (R350, R363). A product is a
pair of patterns of `f`; NaNs are taken in the order written. -/
def dotRound (f g : Fmt) (rm : Rm) (prods : List (Nat × Nat)) (c : Option Nat) : Nat × Flags :=
  let ops := (prods.flatMap fun p => [(f, p.1), (f, p.2)]) ++ (c.toList.map fun x => (g, x))
  let sn := snanFlag ops
  match firstNan g ops with
  | some r => (r, sn)
  | none =>
    let ps := prods.map fun p => (num f p.1).mul (num f p.2)
    if ps.any Option.isNone then (defNan g, NV)
    else
      match sumExact rm (ps.filterMap id ++ c.toList.map (num g)) with
      | none => (defNan g, NV)
      | some v => roundNum g rm false v

/-- FADD (R350, R351). -/
def add (f : Fmt) (rm : Rm) (x y : Nat) : Nat × Flags :=
  match firstNan f [(f, x), (f, y)] with
  | some r => (r, snanFlag [(f, x), (f, y)])
  | none =>
    match sumExact rm [num f x, num f y] with
    | none => (defNan f, NV)
    | some v => roundNum f rm false v

/-- FSUB: a NaN operand keeps its own sign, so the flip is of the value only. -/
def sub (f : Fmt) (rm : Rm) (x y : Nat) : Nat × Flags :=
  match firstNan f [(f, x), (f, y)] with
  | some r => (r, snanFlag [(f, x), (f, y)])
  | none =>
    match sumExact rm [num f x, (num f y).flip] with
    | none => (defNan f, NV)
    | some v => roundNum f rm false v

/-- FMUL (R350, R351). -/
def mul (f : Fmt) (rm : Rm) (x y : Nat) : Nat × Flags :=
  match firstNan f [(f, x), (f, y)] with
  | some r => (r, snanFlag [(f, x), (f, y)])
  | none =>
    match (num f x).mul (num f y) with
    | none => (defNan f, NV)
    | some v => roundNum f rm false v

/-- FFMA: x * y + z with one rounding (R279, R350). -/
def fma (f : Fmt) (rm : Rm) (x y z : Nat) : Nat × Flags := dotRound f f rm [(x, y)] (some z)

/-- Order of two exact values, −1, 0 or 1; zeros of either sign are equal. -/
def cmpNum (x y : Num) : Int :=
  let key : Num → Int × Option (Int × Int) := fun t =>
    match t with
    | .inf n => (if n then -1 else 1, none)
    | .zero _ => (0, some (0, 0))
    | .fin n m e => (0, some (if n then -(m : Int) else m, e))
  match key x, key y with
  | (a, none), (b, none) => if a < b then -1 else if a = b then 0 else 1
  | (a, none), _ => a
  | _, (b, none) => -b
  | (_, some (m, e)), (_, some (m', e')) =>
    let e0 := if e < e' then e else e'
    let u := m * 2 ^ (e - e0).toNat
    let w := m' * 2 ^ (e' - e0).toNat
    if u < w then -1 else if u = w then 0 else 1

/-- Less, with −0 below +0 (R352). -/
def ltMin (f : Fmt) (x y : Nat) : Bool :=
  match cmpNum (num f x) (num f y) with
  | 0 => sgn f x && !sgn f y
  | c => decide (c < 0)

/-- FMIN and FMAX (R352). -/
def minmax (f : Fmt) (isMax : Bool) (x y : Nat) : Nat × Flags :=
  let sn := snanFlag [(f, x), (f, y)]
  match isNan f x, isNan f y with
  | true, true => (carryNan f f x, sn)
  | true, false => (y, sn)
  | false, true => (x, sn)
  | false, false =>
    if isMax then (if ltMin f x y then y else x, 0) else (if ltMin f y x then y else x, 0)

/-- FCMP's eight relations (R355). -/
def fcmp (f : Fmt) (cc : Nat) (sig : Bool) (x y : Nat) : Bool × Flags :=
  let un := isNan f x || isNan f y
  let fl : Flags := if isSnan f x || isSnan f y || (sig && un) then NV else 0
  let c := cmpNum (num f x) (num f y)
  let r : Bool :=
    match cc with
    | 0 => !un && decide (c = 0)
    | 1 => un || !decide (c = 0)
    | 2 => !un && decide (c < 0)
    | 3 => !un && decide (c ≤ 0)
    | 4 => !un && decide (0 < c)
    | 5 => !un && decide (0 ≤ c)
    | 6 => un
    | _ => !un
  (r, fl)

/-- FCLASS: the bit number of R356. -/
def fclass (f : Fmt) (x : Nat) : Nat :=
  if isNan f x then (if isSnan f x then 8 else 9)
  else
    match num f x, sgn f x with
    | .inf _, true => 0 | .inf _, false => 7
    | .zero _, true => 3 | .zero _, false => 4
    | .fin _ _ _, true => if isSub f x then 2 else 1
    | .fin _ _ _, false => if isSub f x then 5 else 6

/-- Float to float (R286). -/
def cvt (f g : Fmt) (rm : Rm) (sat : Bool) (x : Nat) : Nat × Flags :=
  if isNan f x then (carryNan f g x, if isSnan f x then NV else 0)
  else roundNum g rm sat (num f x)

def intMin (g : Fmt) : Int := if g.isSigned then -(2 ^ (g.width - 1)) else 0
def intMax (g : Fmt) : Int := if g.isSigned then 2 ^ (g.width - 1) - 1 else 2 ^ g.width - 1

/-- Float to integer (R286): the mathematical integer and the flags. -/
def toInt (f g : Fmt) (rm : Rm) (x : Nat) : Int × Flags :=
  if isNan f x then (0, NV)
  else
    match num f x with
    | .zero _ => (0, 0)
    | .inf n => (if n then intMin g else intMax g, NV)
    | .fin n m e =>
      let (k, exact) := roundTo rm n m e 0
      let v : Int := if n then -(k : Int) else k
      if v < intMin g then (intMin g, NV)
      else if intMax g < v then (intMax g, NV)
      else (v, if exact then 0 else NX)

def numOfInt (v : Int) : Num := if v = 0 then .zero false else .fin (decide (v < 0)) v.natAbs 0

/-- Integer to float (R286). -/
def ofInt (g : Fmt) (rm : Rm) (sat : Bool) (v : Int) : Nat × Flags := roundNum g rm sat (numOfInt v)

/-- The integer of a pattern of integer format `g`. -/
def readInt (g : Fmt) (x : Nat) : Int :=
  let u := x % 2 ^ g.width
  if g.isSigned && decide (2 ^ (g.width - 1) ≤ u) then (u : Int) - 2 ^ g.width else u

/-- The pattern of an integer in `w` bits, wrapping. -/
def wrapInt (w : Nat) (v : Int) : Nat := (v % 2 ^ w).toNat

/-- `v` clamped to format `g`. -/
def clampInt (g : Fmt) (v : Int) : Int :=
  if v < intMin g then intMin g else if intMax g < v then intMax g else v

/-- VSCALE: `x * 2 ^ k` (R364). -/
def scale (f : Fmt) (rm : Rm) (x : Nat) (k : Int) : Nat × Flags :=
  if isNan f x then (carryNan f f x, if isSnan f x then NV else 0)
  else
    match num f x with
    | .fin n m e => roundFin f rm false n m (e + k)
    | v => roundNum f rm false v

/-! ### Reciprocals (R288, R289, R353, R354) -/

/-- Integer square root, bit by bit from `2 ^ k` down. -/
def isqrtFrom (n : Nat) : Nat → Nat → Nat
  | 0, acc => if (acc + 1) * (acc + 1) ≤ n then acc + 1 else acc
  | k + 1, acc =>
    let t := acc + 2 ^ (k + 1)
    isqrtFrom n k (if t * t ≤ n then t else acc)

def isqrt (n : Nat) : Nat := isqrtFrom n (blen n / 2) 0

/-- `1 / (m * 2 ^ e)` to more bits than any format holds: a dyadic value, with a last bit set when
it is not exact. -/
def recipDy (m : Nat) (e : Int) : Nat × Int :=
  let k := 2 * blen m + 140
  let q := 2 ^ k / m
  if q * m = 2 ^ k then (q, -(k : Int) - e) else (2 * q + 1, -(k : Int) - e - 1)

/-- `1 / sqrt (m * 2 ^ e)` likewise. -/
def rsqrtDy (m : Nat) (e : Int) : Nat × Int :=
  let m' := if e % 2 = 0 then m else 2 * m
  let e' := if e % 2 = 0 then e else e - 1
  let k := blen m' + 140
  let n := 2 ^ (2 * k) / m'
  let r := isqrt n
  if r * r * m' = 2 ^ (2 * k) then (r, -(k : Int) - e' / 2)
  else (2 * r + 1, -(k : Int) - e' / 2 - 1)

/-- Whether a positive finite candidate `c` lies within the bound of R288 or R166 of the value
`1 / x` (`sq` false) or `1 / sqrt x`: relative 2^−14 (`rel`), or one unit in the last place of the
format. `t` is the true value to `recipDy`'s precision. -/
def withinBound (rel : Bool) (f : Fmt) (sq : Bool) (xm : Nat) (xe : Int) (tm : Nat) (te : Int)
    (cm : Nat) (ce : Int) : Bool :=
  -- compares c ± u with the true value through c * x (or c * c * x) against 1
  let test : Num → Int → Bool := fun c s =>
    match c with
    | .fin false m e =>
      let p : Num := if sq then .fin false (m * m * xm) (e + e + xe) else .fin false (m * xm) (e + xe)
      if s < 0 then decide (cmpNum p (.fin false 1 0) ≤ 0) else decide (0 ≤ cmpNum p (.fin false 1 0))
    | .fin true _ _ => decide (s < 0)
    | .zero _ => decide (s < 0)
    | .inf _ => false
  if rel then
    -- (1 − 2^−14) t ≤ c ≤ (1 + 2^−14) t, taken as c / (1 ± 2^−14) against t
    let p : Num := if sq then .fin false (cm * cm * xm) (ce + ce + xe) else .fin false (cm * xm) (ce + xe)
    let lo : Num := if sq then .fin false (16383 * 16383) (-28) else .fin false 16383 (-14)
    let hi : Num := if sq then .fin false (16385 * 16385) (-28) else .fin false 16385 (-14)
    decide (0 ≤ cmpNum p lo) && decide (cmpNum p hi ≤ 0)
  else
    let big : Int := te + blen tm - 1
    let u : Int := (if big < 1 - bias f then 1 - bias f else big) - mb f
    let hi := sumExact .rne [.fin false cm ce, .fin false 1 u]
    let lo := sumExact .rne [.fin false cm ce, .fin true 1 u]
    (match hi with | some c => test c 1 | none => false) &&
    (match lo with | some c => test c (-1) | none => false)

/-- An approximation of 1 / x or 1 / sqrt x with R288's special values: the free candidate
`Config.approx key` where it lies within the bound, else the rounded value (log 6). With `ex`, a
representable result is exact (R353). -/
def recipBy (ex rel : Bool) (key : Nat) (f : Fmt) (sq : Bool) (x : Nat) : Nat × Flags :=
  if isNan f x then (carryNan f f x, if isSnan f x then NV else 0)
  else
    match num f x with
    | .zero n => (withSign f n (infMag f), DZ)
    | .inf n => if sq && n then (defNan f, NV) else (withSign f n 0, 0)
    | .fin n m e =>
      if sq && n then (defNan f, NV)
      else
        let (tm, te) := if sq then rsqrtDy m e else recipDy m e
        let (r, fl) := roundFin f .rne false n tm te
        if fl = 0 && ex then (r, fl)
        else if fl &&& OF = OF then (withSign f n (infMag f), OF ||| NX)
        else
          let c := mag f (Config.approx key (BitVec.ofNat 64 (x + f.code * 2 ^ 60))).toNat
          let ok : Bool :=
            match num f c with
            | .fin _ cm ce => withinBound rel f sq m e tm te cm ce
            | _ => false
          if !ok || fl = 0 && c = mag f r then (r, fl)
          else (withSign f n c, if decide (c < 2 ^ mb f) then UF ||| NX else NX)

/-- FRCP, FRSQ and the RCP and RSQ element operations (R288, R353): relative 2^−14 for FP64 and FP32,
one unit in the last place for FP16 and BF16; exact when the exact result is representable. -/
def approxRecip (f : Fmt) (sq : Bool) (x : Nat) : Nat × Flags :=
  recipBy true (f == .f64 || f == .f32) (if sq then 1 else 0) f sq x

/-- RCP and RSQ of the transcendental unit (R166): one unit in the last place in every format. -/
def transRecip (f : Fmt) (sq : Bool) (x : Nat) : Nat × Flags :=
  recipBy false false (if sq then 3 else 2) f sq x

/-- FRCPR and FRSQR: one Newton step, exact inside (R289, R354). -/
def newton (f : Fmt) (rm : Rm) (sq : Bool) (x y : Nat) : Nat × Flags :=
  if isZero f y || isInf f y || isNan f y then (y, 0)
  else if isNan f x then (carryNan f f x, if isSnan f x then NV else 0)
  else
    match num f x, num f y with
    | .fin n m e, .fin n' m' e' =>
      -- y * (2 − x y), or y * (1.5 − 0.5 x y y)
      let prod : Num :=
        if sq then .fin (!n) (m * m' * m') (e + e' + e' - 1) else .fin (!(n != n')) (m * m') (e + e')
      let two : Num := if sq then .fin false 3 (-1) else .fin false 1 1
      match sumExact rm [two, prod] with
      | some s =>
        match Num.mul (.fin n' m' e') s with
        | some v => roundNum f rm false v
        | none => (defNan f, NV)
      | none => (defNan f, NV)
    | .zero _, .fin n' m' e' =>
      match Num.mul (.fin n' m' e') (if sq then .fin false 3 (-1) else .fin false 1 1) with
      | some v => roundNum f rm false v
      | none => (defNan f, NV)
    | .inf n, .fin n' _ _ =>
      -- y * (2 − (±∞) y): an infinite x gives an infinite result with NV clear
      (withSign f (if sq then n' != !n else n' != !(n != n')) (infMag f), 0)
    | _, _ => (defNan f, NV)

/-! ### The 4-bit block format (R280 to R282) -/

/-- Twice-scaled code value: `code_value * 16` as an integer and its sign for zeros (R281). -/
def b4Value (ty c : Nat) : Bool × Nat :=
  let s := decide (8 ≤ c)
  let lo := c % 8
  match ty with
  | 0 => if s then (true, (16 - c) * 16) else (false, c * 16)
  | 1 => (s, [0, 8, 16, 24, 32, 48, 64, 96].getD lo 0)
  | 2 => if c = 0 then (false, 0) else (s, 2 ^ lo)
  | _ => (s, [0, 16, 32, 48, 64, 96, 128, 192].getD lo 0)

/-- The exact value of a code of a block with scale byte `sb`; none for a NaN block (R281). -/
def b4Num (sb c : Nat) : Option Num :=
  let e := sb % 64
  if e = 63 then none
  else
    let (n, v) := b4Value (sb / 64 % 4) c
    some (if v = 0 then .zero n else .fin n v ((e : Int) - 32 - 4))

/-- Decodes one code into `g` (R281, R286, R365). -/
def b4Decode (g : Fmt) (rm : Rm) (sat : Bool) (sb c : Nat) : Nat × Flags :=
  match b4Num sb c with
  | none => (defNan g, NV)
  | some v => roundNum g rm sat v

/-- The nearest code of a type to a value under a rounding mode (R282): the code, whether it is
inexact, whether it was clamped. -/
def b4Code (ty : Nat) (rm : Rm) (v : Num) : Nat × Bool × Bool :=
  match v with
  | .zero n =>
    -- a zero result takes the sign of the source where the type has a negative zero
    (if n && (ty == 1 || ty == 3) then 8 else 0, false, false)
  | .inf _ => (0, true, false)
  | .fin n m e =>
    let codes := (List.range 16).filter fun c =>
      let (s, k) := b4Value ty c
      if k = 0 then (c == 0 || c == 8) && (s == n || (ty != 1 && ty != 3)) else s == n
    let val : Nat → Num := fun c =>
      let (s, k) := b4Value ty c
      if k = 0 then .zero s else .fin s k (-4)
    let absLe : Num → Num → Bool := fun x y =>
      let u : Num := match x with | .fin _ a b => .fin false a b | z => z
      let w : Num := match y with | .fin _ a b => .fin false a b | z => z
      decide (cmpNum u w ≤ 0)
    let below := codes.filter fun c => absLe (val c) v
    let above := codes.filter fun c => absLe v (val c)
    let lo := below.foldl (fun b c => if absLe (val b) (val c) then c else b) (below.headD 0)
    match above with
    | [] => (lo, true, true)
    | a0 :: _ =>
      let hi := above.foldl (fun b c => if absLe (val c) (val b) then c else b) a0
      if decide (cmpNum (val lo) v = 0) then (lo, false, false)
      else if below.isEmpty then (hi, true, false)
      else
        let d1 := sumExact .rne [.fin n m e, (val lo).flip]
        let d2 := sumExact .rne [val hi, (Num.fin n m e).flip]
        let c : Int :=
          match d1, d2 with
          | some x, some y =>
            let u : Num := match x with | .fin _ a b => .fin false a b | z => z
            let w : Num := match y with | .fin _ a b => .fin false a b | z => z
            cmpNum u w
          | _, _ => 0
        let pick : Nat :=
          match rm with
          | .rne => if c < 0 then lo else if 0 < c then hi else if lo % 2 = 0 then lo else hi
          | .rtz => lo
          | .rdn => if n then hi else lo
          | .rup => if n then lo else hi
        (pick, true, false)

/-- floor(log2 |v|) of a finite non-zero value. -/
def floorLog2 : Num → Int
  | .fin _ m e => e + blen m - 1
  | _ => 0

/-- Encodes 32 FP64 values into a block of type `ty` (R282): codes, scale byte, flags. -/
def b4Encode (ty : Nat) (rm : Rm) (xs : List Nat) : List Nat × Nat × Flags :=
  if xs.any (fun x => isNan .f64 x || isInf .f64 x) then
    (xs.map fun _ => 0, ty * 64 + 63, NV)
  else
    let vs := xs.map (num .f64)
    let amax : Option Int := vs.foldl (fun b v =>
      match v with
      | .fin _ _ _ =>
        (match b with
         | none => some (floorLog2 v)
         | some k => some (if k < floorLog2 v then floorLog2 v else k))
      | _ => b) none
    let emax : Int := if ty ≤ 1 then 2 else 3
    let e : Int :=
      match amax with
      | none => 0
      | some k => let t := k - emax + 32; if t < 0 then 0 else if 62 < t then 62 else t
    let rs := vs.map fun v =>
      match v with
      | .fin n m x => b4Code ty rm (.fin n m (x - (e - 32)))
      | z => b4Code ty rm z
    (rs.map (·.1), ty * 64 + e.toNat,
      (if rs.any (·.2.1) then NX else 0) ||| (if rs.any (·.2.2) then OF else 0))

end Sys2Proof.Machine.FP
end

