-- ==== Sys2Proof/Decode.lean ====
section
/-!
DEFINITION. The decoder of thread instruction words and, after it, the encoder, both from the
encoding tables of 11_isa_formats.md (R293 to R299) and the encodings the descriptions give
(R315 to R417). Decoding is total on any bytes and rejects by name; every rejected word traps ILL
(R299).
-/

namespace Sys2Proof

/-- Why a word is no instruction (R299). -/
inductive DecodeError where
  | short            -- fewer than four bytes
  | unassignedMajor  -- majors 0 and 41 to 62
  | unassignedFn     -- an unassigned fn, class or function number
  | fixedField       -- a field that R298 fixes holds another value
  | operand          -- an operand constraint of the description is broken (WellFormed)
  deriving DecidableEq, Repr

namespace Enc

def rmOf : BitVec 2 → Rm := fun x =>
  match x.toNat with | 0 => .rne | 1 => .rtz | 2 => .rdn | _ => .rup
def etyOf : BitVec 3 → ETy := fun x =>
  match x.toNat with
  | 0 => .f64 | 1 => .f32 | 2 => .f16 | 3 => .bf16 | 4 => .i8 | 5 => .i16 | 6 => .i32 | _ => .i64
def fmtOf : BitVec 4 → Option Fmt := fun x =>
  match x.toNat with
  | 0 => some .f64 | 1 => some .f32 | 2 => some .f16 | 3 => some .bf16 | 4 => some .e4m3
  | 5 => some .e5m2 | 6 => some .b4 | 8 => some .i8 | 9 => some .u8 | 10 => some .i16
  | 11 => some .u16 | 12 => some .i32 | 13 => some .u32 | 14 => some .i64 | 15 => some .u64
  | _ => none
def condOf : BitVec 3 → Option Cond := fun x =>
  match x.toNat with
  | 0 => some .eq | 1 => some .ne | 2 => some .lt | 3 => some .ge | 4 => some .ltn
  | 5 => some .gen | _ => none
def sizeOf : BitVec 2 → MSize := fun x =>
  match x.toNat with | 0 => .b | 1 => .h | 2 => .w | _ => .d
def amoOf : BitVec 3 → AmoFn := fun x =>
  match x.toNat with
  | 0 => .add | 1 => .adds | 2 => .and | 3 => .or | 4 => .xor | 5 => .min | 6 => .max | _ => .swap
def scopeOf : BitVec 3 → Option Scope := fun x =>
  match x.toNat with
  | 0 => some .thread | 1 => some .core | 2 => some .cluster | 3 => some .die | 4 => some .package
  | 5 => some .system | _ => none
def levelOf : BitVec 3 → Option Level := fun x =>
  match x.toNat with
  | 0 => some .unit | 1 => some .launch | 2 => some .graph | 3 => some .phase | 4 => some .job
  | _ => none

def rmBits : Rm → BitVec 2 | .rne => 0 | .rtz => 1 | .rdn => 2 | .rup => 3
def etyBits : ETy → BitVec 3
  | .f64 => 0 | .f32 => 1 | .f16 => 2 | .bf16 => 3 | .i8 => 4 | .i16 => 5 | .i32 => 6 | .i64 => 7
def fmtBits (f : Fmt) : BitVec 4 := BitVec.ofNat 4 f.code
def condBits : Cond → BitVec 3
  | .eq => 0 | .ne => 1 | .lt => 2 | .ge => 3 | .ltn => 4 | .gen => 5
def sizeBits : MSize → BitVec 2 | .b => 0 | .h => 1 | .w => 2 | .d => 3
def amoBits : AmoFn → BitVec 3
  | .add => 0 | .adds => 1 | .and => 2 | .or => 3 | .xor => 4 | .min => 5 | .max => 6 | .swap => 7
def scopeBits : Scope → BitVec 3
  | .thread => 0 | .core => 1 | .cluster => 2 | .die => 3 | .package => 4 | .system => 5
def levelBits : Level → BitVec 3
  | .unit => 0 | .launch => 1 | .graph => 2 | .phase => 3 | .job => 4
def sfmtMajor : SFmt → BitVec 6 | .f64 => 31 | .f32 => 32 | .f16 => 33 | .bf16 => 34
def bit (b : Bool) : BitVec 1 := BitVec.ofBool b

end Enc

namespace Decode
open Enc

abbrev Res := Except DecodeError Instr

/-- An instruction whose fixed fields hold their values. -/
def need (c : Bool) (i : Instr) : Res := if c then .ok i else .error .fixedField

def ofOpt {α : Type} (o : Option α) (f : α → Res) : Res :=
  match o with
  | some x => f x
  | none => .error .fixedField

def d (w : W32) : GReg := w.extractLsb' 20 6
def a (w : W32) : GReg := w.extractLsb' 14 6
def b (w : W32) : GReg := w.extractLsb' 8 6
def fn (w : W32) : BitVec 8 := w.extractLsb' 0 8
def imm14 (w : W32) : BitVec 14 := w.extractLsb' 0 14
def vd (w : W32) : VReg := w.extractLsb' 21 5
def va (w : W32) : VReg := w.extractLsb' 16 5
def vb (w : W32) : VReg := w.extractLsb' 11 5
def ety (w : W32) : BitVec 3 := w.extractLsb' 8 3
def off10 (w : W32) : BitVec 10 := w.extractLsb' 4 10
def bitAt (w : W32) (n : Nat) : Bool := w.getLsbD n

/-- Major 1 (R297, R315 to R317). -/
def integer (w : W32) : Res :=
  let d := d w; let a := a w; let b := b w
  match (fn w).toNat with
  | 0x00 => .ok (.add d a b) | 0x01 => .ok (.sub d a b) | 0x02 => .ok (.adds d a b)
  | 0x03 => .ok (.subs d a b) | 0x04 => .ok (.mul d a b) | 0x05 => .ok (.mulh d a b)
  | 0x06 => .ok (.mulhn d a b) | 0x08 => .ok (.div d a b) | 0x09 => .ok (.divn d a b)
  | 0x0A => .ok (.rem d a b) | 0x0B => .ok (.remn d a b) | 0x10 => .ok (.and d a b)
  | 0x11 => .ok (.or d a b) | 0x12 => .ok (.xor d a b) | 0x18 => .ok (.shl d a b)
  | 0x19 => .ok (.shr d a b) | 0x1A => .ok (.sra d a b) | 0x20 => .ok (.min d a b)
  | 0x21 => .ok (.max d a b) | 0x22 => .ok (.minn d a b) | 0x23 => .ok (.maxn d a b)
  | 0x28 => need (b == 0) (.clz d a) | 0x29 => need (b == 0) (.ctz d a)
  | 0x2A => need (b == 0) (.popc d a) | 0x2B => need (b == 0) (.brev d a)
  | _ =>
    if w.extractLsb' 3 5 = 8 then .ok (.sel d (w.extractLsb' 0 3) a b) else .error .unassignedFn

/-- Major 15 (R324, R325). -/
def predicate (w : W32) : Res :=
  let p : PReg := w.extractLsb' 23 3
  if w.extractLsb' 20 3 = 0 then
    if w.extractLsb' 4 4 = 1 then
      need (w.extractLsb' 14 3 == 0 && w.extractLsb' 8 3 == 0)
        (.plog p (w.extractLsb' 17 3) (w.extractLsb' 11 3) (w.extractLsb' 0 4))
    else if w.extractLsb' 3 5 = 0 then
      match condOf (w.extractLsb' 0 3) with
      | some cc => .ok (.cmp p cc (a w) (b w))
      | none => .error .unassignedFn
    else .error .unassignedFn
  else .error .fixedField

/-- Majors 16 to 21, the M format (R293, R330 to R336). -/
def memory (w : W32) (major : Nat) : Res :=
  let x := d w; let base := a w; let off := off10 w
  let size : BitVec 2 := w.extractLsb' 2 2
  let sx := bitAt w 1; let ord := bitAt w 0
  let vreg : VReg := w.extractLsb' 21 5
  match major with
  | 16 => .ok (.ld x base off (sizeOf size) sx ord)
  | 17 => need (!sx) (.st x base off (sizeOf size) ord)
  | 18 => need (!sx && size == 0 && !bitAt w 20) (.ldv vreg base off ord)
  | 19 => need (!sx && size == 0 && !bitAt w 20) (.stv vreg base off ord)
  | 20 => need (size == 3) (.ldf x base off sx ord)
  | _ => need (size == 3 && !sx) (.stf x base off ord)

/-- Major 22, memory control (R296, R336, R338 to R340). In format E field a is [25:20]. -/
def memControl (w : W32) : Res :=
  let ea := d w; let eb := a w; let ec := b w
  match (fn w).toNat with
  | 0x00 => need (ec == 0) (.ste ea eb)
  | 0x01 => need (eb == 0 && ec == 0) (.feset ea)
  | 0x02 => need (eb == 0 && ec == 0) (.feclr ea)
  | 0x08 => need (eb == 0) (.pref ea ec)
  | _ =>
    if w.extractLsb' 3 5 = 2 then
      need (ea == 0 && eb == 0 && ec == 0) (.rlx (w.extractLsb' 0 3))
    else if w.extractLsb' 3 5 = 4 then
      match scopeOf (w.extractLsb' 0 3) with
      | some sc => need (ea == 0 && eb == 0 && ec == 0) (.fence sc)
      | none => .error .unassignedFn
    else .error .unassignedFn

/-- Major 23, atomics (R297, R341). -/
def atomics (w : W32) : Res :=
  let ea := d w; let eb := a w; let ec := b w
  let rel := bitAt w 7; let acq := bitAt w 6; let dbl := bitAt w 5
  if w.extractLsb' 3 2 = 0 then .ok (.amo (amoOf (w.extractLsb' 0 3)) ea eb ec rel acq dbl)
  else if w.extractLsb' 0 5 = 8 then .ok (.cas ea eb ec rel acq dbl)
  else if w.extractLsb' 3 2 = 2 then
    need dbl (.amof (amoOf (w.extractLsb' 0 3)) ea eb ec rel acq)
  else .error .unassignedFn

/-- Major 27, control (R326 to R328). -/
def control (w : W32) : Res :=
  let ea := d w; let eb := a w; let ec := b w
  match (fn w).toNat with
  | 0 => need (ec == 0) (.jr ea eb)
  | 1 => need (ea == 0 && eb == 0 && ec == 0) .exit
  | 2 => need (ea == 0 && eb == 0 && ec == 0) .yield
  | _ => .error .unassignedFn

/-- Major 30, synchronisation (R376). -/
def sync (w : W32) : Res :=
  let ea := d w; let eb := a w; let ec := b w
  match (fn w).toNat with
  | 0 => .ok (.waitw ea eb ec) | 1 => .ok (.cntadd ea eb ec) | 2 => .ok (.cntwait ea eb ec)
  | 3 => need (ec == 0) (.bar ea eb) | 4 => .ok (.send ea eb ec) | 5 => .ok (.recv ea eb ec)
  | 6 => need (ea == 0 && eb == 0 && ec == 0) .uiret
  | 7 => .ok (.qwait ea eb ec) | _ => .error .unassignedFn

/-- Majors 31 to 34, scalar floating point (R297, R346 to R358). -/
def scalarFp (w : W32) (f : SFmt) : Res :=
  let d := d w; let a := a w; let b := b w
  let rm := rmOf (w.extractLsb' 2 2)
  let lo2 := w.extractLsb' 0 2 == 0
  let lo4 := w.extractLsb' 0 4 == 0
  let g : BitVec 4 := w.extractLsb' 8 4
  let top := w.extractLsb' 12 2 == 0
  match (w.extractLsb' 4 4).toNat with
  | 0 => need lo2 (.fadd f d a b rm) | 1 => need lo2 (.fsub f d a b rm)
  | 2 => need lo2 (.fmul f d a b rm) | 3 => need lo2 (.ffma f d a b rm)
  | 4 => need lo4 (.fmin f d a b) | 5 => need lo4 (.fmax f d a b)
  | 6 => need (lo4 && b == 0) (.frcp f d a) | 7 => need (lo4 && b == 0) (.frsq f d a)
  | 8 => need lo2 (.frcpr f d a b rm) | 9 => need lo2 (.frsqr f d a b rm)
  | 10 => need (w.extractLsb' 20 3 == 0)
      (.fcmp f (w.extractLsb' 23 3) a b (bitAt w 3) (w.extractLsb' 0 3))
  | 11 => need (lo4 && b == 0) (.fclass f d a)
  | 12 => need lo2 (.fsgn f d a b (w.extractLsb' 2 2))
  | 13 => ofOpt (fmtOf g) fun g => need (lo2 && top) (.fcvt f d a g rm)
  | 14 => ofOpt (fmtOf g) fun g => need (lo2 && top) (.icvt f d a g rm)
  | _ => ofOpt (fmtOf g) fun g => need (lo2 && top) (.fcvti f d a g rm)

/-- Major 35, packed (R297, R359 to R372). -/
def packed (w : W32) : Res :=
  let vd := vd w; let va := va w; let vb := vb w
  let ty := etyOf (ety w)
  let rm := rmOf (w.extractLsb' 2 2)
  let md : BitVec 2 := w.extractLsb' 0 2
  let norm := w.extractLsb' 2 2 == 0
  match (w.extractLsb' 4 4).toNat with
  | 0 => .ok (.vadd vd va vb ty rm md) | 1 => .ok (.vsub vd va vb ty rm md)
  | 2 => .ok (.vmul vd va vb ty rm md) | 3 => .ok (.vfma vd va vb ty rm md)
  | 4 => need norm (.vmin vd va vb ty md) | 5 => need norm (.vmax vd va vb ty md)
  | 6 => .ok (.vdot vd va vb ty rm md)
  | 7 =>
    ofOpt (fmtOf (w.extractLsb' 11 4)) fun g =>
      if bitAt w 1 then
        need (!bitAt w 15 && norm && !bitAt w 0 && !bitAt w 10)
          (.vcvtDesc vd va g (w.extractLsb' 8 2))
      else need (!bitAt w 15) (.vcvt vd va g ty rm (bitAt w 0))
  | 8 => need (!bitAt w 1) (.vscale vd va vb ty rm (bitAt w 0))
  | 9 => need (norm && !bitAt w 1) (.vshuf vd va vb ty (bitAt w 0))
  | 10 => need (norm && md == 0) (.vbcast vd va vb ty)
  | 11 => need (norm && md == 0) (.vsel vd va vb ty)
  | 12 => need norm (.vcmp vd va vb ty md)
  | 13 => need (vb == 0) (.vred vd va ty rm md)
  | 14 => need (norm && ety w == 0) (.vlog vd va vb md)
  | _ => need norm (.vshift vd va vb ty md)

/-- Major 36, moves between g and v registers (R373). -/
def packedMove (w : W32) : Res :=
  let ty := etyOf (w.extractLsb' 0 3)
  if w.extractLsb' 3 5 = 0 then need (!bitAt w 14) (.vmovg (d w) (w.extractLsb' 15 5) (b w) ty)
  else if w.extractLsb' 3 5 = 2 then need (!bitAt w 20) (.vmovv (w.extractLsb' 21 5) (a w) (b w) ty)
  else .error .unassignedFn

/-- Major 37, matrix (R387). -/
def matrix (w : W32) : Res :=
  let ea := d w; let eb := a w; let ec := b w
  match (fn w).toNat with
  | 0 => need (ec == 0) (.mxa ea eb) | 1 => need (ec == 0) (.mxb ea eb) | 2 => .ok (.mxc ea eb ec)
  | 3 => need (ea == 0 && eb == 0) (.mxgo ec) | 4 => .ok (.mxdrain ea eb ec)
  | 5 => need (ea == 0 && eb == 0 && ec == 0) .mxrel | _ => .error .unassignedFn

/-- Major 38, async engines (R390). -/
def async (w : W32) : Res :=
  let ea := d w; let eb := a w; let ec := b w
  let ui := bitAt w 7
  match (w.extractLsb' 0 7).toNat with
  | 0 => need (eb == 0) (.acopy ea ec ui) | 1 => need (eb == 0) (.agather ea ec ui)
  | 2 => need (eb == 0) (.ascatter ea ec ui) | 3 => need (eb == 0) (.acoll ea ec ui)
  | 4 => need (eb == 0 && !ui) (.await ea ec) | 5 => need (eb == 0 && !ui) (.acancel ea ec)
  | _ => .error .unassignedFn

/-- Major 39, fabric and streams (R397, R404). -/
def fabric (w : W32) : Res :=
  let ea := d w; let eb := a w; let ec := b w
  match (fn w).toNat with
  | 0 => .ok (.cfgload ea eb ec) | 1 => need (eb == 0) (.cfgarm ea ec)
  | 2 => .ok (.cfgshadow ea eb ec) | 3 => .ok (.roll ea eb ec) | 4 => .ok (.cfgpatch ea eb ec)
  | 5 => .ok (.qput ea eb ec) | 6 => .ok (.qtake ea eb ec)
  | 8 => .ok (.ereply ea eb ec 0) | 9 => .ok (.ereply ea eb ec 1) | 10 => .ok (.ereply ea eb ec 2)
  | 12 => need (eb == 0 && ec == 0) (.edrop ea) | 13 => .ok (.ctok ea eb ec)
  | _ => .error .unassignedFn

/-- Major 40, scheduling (R405). -/
def sched (w : W32) : Res :=
  let ea := d w; let eb := a w; let ec := b w
  match (fn w).toNat with
  | 0 => .ok (.launch ea eb ec) | 1 => need (eb == 0) (.spawn ea ec)
  | 2 => need (eb == 0) (.prio ea ec)
  | _ =>
    match levelOf (w.extractLsb' 0 3) with
    | some lv =>
      if w.extractLsb' 3 5 = 2 then need (eb == 0 && ec == 0) (.cancel ea lv)
      else if w.extractLsb' 3 5 = 3 then need (eb == 0 && ec == 0) (.cancelFault ea lv)
      else .error .unassignedFn
    | none => .error .unassignedFn

/-- Major 63, system (R297, R410). -/
def system (w : W32) : Res :=
  let d := d w; let a := a w
  let n : BitVec 12 := w.extractLsb' 0 12
  match (w.extractLsb' 12 2).toNat with
  | 0 => need (a == 0) (.mfs d n)
  | 1 => need (d == 0) (.mts a n)
  | 2 =>
    match n.toNat with
    | 1 => need (d == 0 && a == 0) .tret | 2 => .ok (.ilock d a) | 3 => .ok (.iunlock d a)
    | 4 => need (d == 0 && a == 0) .iflush | 5 => .ok (.tlbinv d a) | 6 => need (a == 0) (.snap d)
    | 7 => need (d == 0 && a == 0) .brk | 8 => need (d == 0) (.hint a)
    | 9 => need (a == 0) (.waiti d) | _ => .error .unassignedFn
  | _ => .error .unassignedFn

/-- The instruction a word's fields name, before the operand constraints. -/
def fields (w : W32) : Res :=
  let d' := d w; let a' := a w
  match (w.extractLsb' 26 6).toNat with
  | 1 => integer w
  | 2 => .ok (.addi d' a' (imm14 w)) | 3 => .ok (.andi d' a' (imm14 w))
  | 4 => .ok (.ori d' a' (imm14 w)) | 5 => .ok (.xori d' a' (imm14 w))
  | 6 => need (w.extractLsb' 6 8 == 0) (.shli d' a' (w.extractLsb' 0 6))
  | 7 => need (w.extractLsb' 6 8 == 0) (.shri d' a' (w.extractLsb' 0 6))
  | 8 => need (w.extractLsb' 6 8 == 0) (.srai d' a' (w.extractLsb' 0 6))
  | 9 => ofOpt (condOf (w.extractLsb' 20 3)) fun cc => .ok (.cmpi (w.extractLsb' 23 3) cc a' (imm14 w))
  | 10 => need (w.extractLsb' 14 4 == 0) (.lih d' (w.extractLsb' 18 2) (imm14 w))
  | 11 => need (a' == 0) (.addpc d' (imm14 w))
  | 12 => need (w.extractLsb' 12 2 == 0) (.ext d' a' (w.extractLsb' 6 6) (w.extractLsb' 0 6))
  | 13 => need (w.extractLsb' 12 2 == 0) (.ins d' a' (w.extractLsb' 6 6) (w.extractLsb' 0 6))
  | 14 =>
    if w.extractLsb' 2 6 = 0 then .ok (.lea d' a' (b w) (w.extractLsb' 0 2))
    else if fn w = 0x10 then need (b w == 0) (.site d' a')
    else .error .unassignedFn
  | 15 => predicate w
  | 16 => memory w 16 | 17 => memory w 17 | 18 => memory w 18 | 19 => memory w 19
  | 20 => memory w 20 | 21 => memory w 21
  | 22 => memControl w
  | 23 => atomics w
  | 24 => .ok (.br (w.extractLsb' 23 3) (bitAt w 22) (w.extractLsb' 0 22))
  | 25 => .ok (.jmp (w.extractLsb' 0 26)) | 26 => .ok (.jal (w.extractLsb' 0 26))
  | 27 => control w
  | 28 => need (d' == 0 && a' == 0) (.trap (imm14 w))
  | 29 => need (d' == 0 && a' == 0) (.svc (imm14 w))
  | 30 => sync w
  | 31 => scalarFp w .f64 | 32 => scalarFp w .f32 | 33 => scalarFp w .f16 | 34 => scalarFp w .bf16
  | 35 => packed w | 36 => packedMove w | 37 => matrix w | 38 => async w | 39 => fabric w
  | 40 => sched w | 63 => system w
  | _ => .error .unassignedMajor

end Decode

/-- The instruction of a word (R293 to R299). -/
def decode (w : W32) : Except DecodeError Instr :=
  match Decode.fields w with
  | .ok i => if WellFormed i then .ok i else .error .operand
  | .error e => .error e

/-- Decoding from bytes: one little-endian word and the bytes after it (R4, R293). -/
def decodeBytes : List Byte → Except DecodeError (Instr × List Byte)
  | b0 :: b1 :: b2 :: b3 :: rest =>
    match decode (b3 ++ b2 ++ b1 ++ b0) with
    | .ok i => .ok (i, rest)
    | .error e => .error e
  | _ => .error .short

/-- The instruction read from the table's numbering of a word: bit 0 is the least significant bit
of the first word; every thread instruction is one word of 32 bits. -/
def decodeTableWord (nbits w : Nat) : Option Instr :=
  if nbits ≤ 32 then
    match decodeBytes [BitVec.ofNat 8 w, BitVec.ofNat 8 (w / 256), BitVec.ofNat 8 (w / 65536),
        BitVec.ofNat 8 (w / 16777216)] with
    | .ok (i, _) => some i
    | .error _ => none
  else none

/-! ## Encoder -/

namespace Encode
open Enc

/-- The formats of R293, as the concatenation of their fields. -/
def r (m : BitVec 6) (d a b : GReg) (fn : BitVec 8) : W32 := m ++ d ++ a ++ b ++ fn
def i (m : BitVec 6) (d a : GReg) (imm : BitVec 14) : W32 := m ++ d ++ a ++ imm
def m (mj : BitVec 6) (x base : GReg) (off : BitVec 10) (sz : BitVec 2) (sx ord : Bool) : W32 :=
  mj ++ x ++ base ++ off ++ sz ++ bit sx ++ bit ord
def v (vd va vb : VReg) (ty : BitVec 3) (op : BitVec 4) (rm md : BitVec 2) : W32 :=
  (35 : BitVec 6) ++ vd ++ va ++ vb ++ ty ++ op ++ rm ++ md
def fp (f : SFmt) (d a b : GReg) (op : BitVec 4) (rm lo : BitVec 2) : W32 :=
  sfmtMajor f ++ d ++ a ++ b ++ op ++ rm ++ lo
def sys (d a : GReg) (cls : BitVec 2) (n : BitVec 12) : W32 := (63 : BitVec 6) ++ d ++ a ++ cls ++ n
def atom (a b c : GReg) (rel acq dbl : Bool) (k : BitVec 2) (f : BitVec 3) : W32 :=
  (23 : BitVec 6) ++ a ++ b ++ c ++ bit rel ++ bit acq ++ bit dbl ++ k ++ f

end Encode

open Enc Encode in
/-- The word of a thread instruction; an event has none. -/
def encode : Instr → Option W32
  | .add d a b => some (r 1 d a b 0x00) | .sub d a b => some (r 1 d a b 0x01)
  | .adds d a b => some (r 1 d a b 0x02) | .subs d a b => some (r 1 d a b 0x03)
  | .mul d a b => some (r 1 d a b 0x04) | .mulh d a b => some (r 1 d a b 0x05)
  | .mulhn d a b => some (r 1 d a b 0x06) | .div d a b => some (r 1 d a b 0x08)
  | .divn d a b => some (r 1 d a b 0x09) | .rem d a b => some (r 1 d a b 0x0A)
  | .remn d a b => some (r 1 d a b 0x0B) | .and d a b => some (r 1 d a b 0x10)
  | .or d a b => some (r 1 d a b 0x11) | .xor d a b => some (r 1 d a b 0x12)
  | .shl d a b => some (r 1 d a b 0x18) | .shr d a b => some (r 1 d a b 0x19)
  | .sra d a b => some (r 1 d a b 0x1A) | .min d a b => some (r 1 d a b 0x20)
  | .max d a b => some (r 1 d a b 0x21) | .minn d a b => some (r 1 d a b 0x22)
  | .maxn d a b => some (r 1 d a b 0x23) | .clz d a => some (r 1 d a 0 0x28)
  | .ctz d a => some (r 1 d a 0 0x29) | .popc d a => some (r 1 d a 0 0x2A)
  | .brev d a => some (r 1 d a 0 0x2B)
  | .sel d n a b => some ((1 : BitVec 6) ++ d ++ a ++ b ++ (8 : BitVec 5) ++ n)
  | .addi d a im => some (i 2 d a im) | .andi d a im => some (i 3 d a im)
  | .ori d a im => some (i 4 d a im) | .xori d a im => some (i 5 d a im)
  | .shli d a sh => some ((6 : BitVec 6) ++ d ++ a ++ (0 : BitVec 8) ++ sh)
  | .shri d a sh => some ((7 : BitVec 6) ++ d ++ a ++ (0 : BitVec 8) ++ sh)
  | .srai d a sh => some ((8 : BitVec 6) ++ d ++ a ++ (0 : BitVec 8) ++ sh)
  | .cmpi p cc a im => some ((9 : BitVec 6) ++ p ++ condBits cc ++ a ++ im)
  | .lih d k im => some ((10 : BitVec 6) ++ d ++ k ++ (0 : BitVec 4) ++ im)
  | .addpc d im => some (i 11 d 0 im)
  | .ext d a w p => some ((12 : BitVec 6) ++ d ++ a ++ (0 : BitVec 2) ++ w ++ p)
  | .ins d a w p => some ((13 : BitVec 6) ++ d ++ a ++ (0 : BitVec 2) ++ w ++ p)
  | .lea d a b s => some ((14 : BitVec 6) ++ d ++ a ++ b ++ (0 : BitVec 6) ++ s)
  | .site d a => some (r 14 d a 0 0x10)
  | .cmp p cc a b =>
    some ((15 : BitVec 6) ++ p ++ (0 : BitVec 3) ++ a ++ b ++ (0 : BitVec 5) ++ condBits cc)
  | .plog p a b tt =>
    some ((15 : BitVec 6) ++ p ++ (0 : BitVec 3) ++ a ++ (0 : BitVec 3) ++ b ++ (0 : BitVec 3) ++
      (1 : BitVec 4) ++ tt)
  | .ld d base o sz sx ord => some (m 16 d base o (sizeBits sz) sx ord)
  | .st x base o sz ord => some (m 17 x base o (sizeBits sz) false ord)
  | .ldv vr base o ord =>
    some ((18 : BitVec 6) ++ vr ++ (0 : BitVec 1) ++ base ++ o ++ (0 : BitVec 3) ++ bit ord)
  | .stv vr base o ord =>
    some ((19 : BitVec 6) ++ vr ++ (0 : BitVec 1) ++ base ++ o ++ (0 : BitVec 3) ++ bit ord)
  | .ldf d base o clr ord => some (m 20 d base o 3 clr ord)
  | .stf x base o ord => some (m 21 x base o 3 false ord)
  | .ste a b => some (r 22 a b 0 0x00) | .feset a => some (r 22 a 0 0 0x01)
  | .feclr a => some (r 22 a 0 0 0x02) | .pref a l => some (r 22 a 0 l 0x08)
  | .rlx n => some ((22 : BitVec 6) ++ (0 : BitVec 18) ++ (2 : BitVec 5) ++ n)
  | .fence sc => some ((22 : BitVec 6) ++ (0 : BitVec 18) ++ (4 : BitVec 5) ++ scopeBits sc)
  | .amo f a b c rel acq dbl => some (atom a b c rel acq dbl 0 (amoBits f))
  | .cas a b c rel acq dbl => some (atom a b c rel acq dbl 1 0)
  | .amof f a b c rel acq => some (atom a b c rel acq true 2 (amoBits f))
  | .br p s o => some ((24 : BitVec 6) ++ p ++ bit s ++ o)
  | .jmp o => some ((25 : BitVec 6) ++ o) | .jal o => some ((26 : BitVec 6) ++ o)
  | .jr a b => some (r 27 a b 0 0x00) | .exit => some (r 27 0 0 0 0x01)
  | .yield => some (r 27 0 0 0 0x02)
  | .trap im => some (i 28 0 0 im) | .svc im => some (i 29 0 0 im)
  | .waitw a b c => some (r 30 a b c 0) | .cntadd a b c => some (r 30 a b c 1)
  | .cntwait a b c => some (r 30 a b c 2) | .bar a b => some (r 30 a b 0 3)
  | .send a b c => some (r 30 a b c 4) | .recv a b c => some (r 30 a b c 5)
  | .uiret => some (r 30 0 0 0 6) | .qwait a b c => some (r 30 a b c 7)
  | .fadd f d a b rm => some (fp f d a b 0 (rmBits rm) 0)
  | .fsub f d a b rm => some (fp f d a b 1 (rmBits rm) 0)
  | .fmul f d a b rm => some (fp f d a b 2 (rmBits rm) 0)
  | .ffma f d a b rm => some (fp f d a b 3 (rmBits rm) 0)
  | .fmin f d a b => some (fp f d a b 4 0 0) | .fmax f d a b => some (fp f d a b 5 0 0)
  | .frcp f d a => some (fp f d a 0 6 0 0) | .frsq f d a => some (fp f d a 0 7 0 0)
  | .frcpr f d a b rm => some (fp f d a b 8 (rmBits rm) 0)
  | .frsqr f d a b rm => some (fp f d a b 9 (rmBits rm) 0)
  | .fcmp f p a b sig cc =>
    some (sfmtMajor f ++ p ++ (0 : BitVec 3) ++ a ++ b ++ (10 : BitVec 4) ++ bit sig ++ cc)
  | .fclass f d a => some (fp f d a 0 11 0 0)
  | .fsgn f d a b mode => some (fp f d a b 12 mode 0)
  | .fcvt f d a g rm =>
    some (sfmtMajor f ++ d ++ a ++ (0 : BitVec 2) ++ fmtBits g ++ (13 : BitVec 4) ++ rmBits rm ++
      (0 : BitVec 2))
  | .icvt f d a g rm =>
    some (sfmtMajor f ++ d ++ a ++ (0 : BitVec 2) ++ fmtBits g ++ (14 : BitVec 4) ++ rmBits rm ++
      (0 : BitVec 2))
  | .fcvti f d a g rm =>
    some (sfmtMajor f ++ d ++ a ++ (0 : BitVec 2) ++ fmtBits g ++ (15 : BitVec 4) ++ rmBits rm ++
      (0 : BitVec 2))
  | .vadd x y z ty rm md => some (v x y z (etyBits ty) 0 (rmBits rm) md)
  | .vsub x y z ty rm md => some (v x y z (etyBits ty) 1 (rmBits rm) md)
  | .vmul x y z ty rm md => some (v x y z (etyBits ty) 2 (rmBits rm) md)
  | .vfma x y z ty rm md => some (v x y z (etyBits ty) 3 (rmBits rm) md)
  | .vmin x y z ty md => some (v x y z (etyBits ty) 4 0 md)
  | .vmax x y z ty md => some (v x y z (etyBits ty) 5 0 md)
  | .vdot x y z ty rm md => some (v x y z (etyBits ty) 6 (rmBits rm) md)
  | .vcvt x y g ty rm sat =>
    some ((35 : BitVec 6) ++ x ++ y ++ (0 : BitVec 1) ++ fmtBits g ++ etyBits ty ++ (7 : BitVec 4) ++
      rmBits rm ++ (0 : BitVec 1) ++ bit sat)
  | .vcvtDesc x y g k =>
    some ((35 : BitVec 6) ++ x ++ y ++ (0 : BitVec 1) ++ fmtBits g ++ (0 : BitVec 1) ++ k ++
      (7 : BitVec 4) ++ (0 : BitVec 2) ++ (2 : BitVec 2))
  | .vscale x y z ty rm bc =>
    some ((35 : BitVec 6) ++ x ++ y ++ z ++ etyBits ty ++ (8 : BitVec 4) ++ rmBits rm ++
      (0 : BitVec 1) ++ bit bc)
  | .vshuf x y z ty zz =>
    some ((35 : BitVec 6) ++ x ++ y ++ z ++ etyBits ty ++ (9 : BitVec 4) ++ (0 : BitVec 3) ++ bit zz)
  | .vbcast x y k ty => some (v x y k (etyBits ty) 10 0 0)
  | .vsel x y z ty => some (v x y z (etyBits ty) 11 0 0)
  | .vcmp x y z ty cc => some (v x y z (etyBits ty) 12 0 cc)
  | .vred x y ty rm op => some (v x y 0 (etyBits ty) 13 (rmBits rm) op)
  | .vlog x y z op => some (v x y z 0 14 0 op)
  | .vshift x y z ty op => some (v x y z (etyBits ty) 15 0 op)
  | .vmovg d va b ty =>
    some ((36 : BitVec 6) ++ d ++ va ++ (0 : BitVec 1) ++ b ++ (0 : BitVec 5) ++ etyBits ty)
  | .vmovv vd a b ty =>
    some ((36 : BitVec 6) ++ vd ++ (0 : BitVec 1) ++ a ++ b ++ (2 : BitVec 5) ++ etyBits ty)
  | .mxa a b => some (r 37 a b 0 0) | .mxb a b => some (r 37 a b 0 1)
  | .mxc a b c => some (r 37 a b c 2) | .mxgo c => some (r 37 0 0 c 3)
  | .mxdrain a b c => some (r 37 a b c 4) | .mxrel => some (r 37 0 0 0 5)
  | .acopy a c ui => some ((38 : BitVec 6) ++ a ++ (0 : BitVec 6) ++ c ++ bit ui ++ (0 : BitVec 7))
  | .agather a c ui => some ((38 : BitVec 6) ++ a ++ (0 : BitVec 6) ++ c ++ bit ui ++ (1 : BitVec 7))
  | .ascatter a c ui => some ((38 : BitVec 6) ++ a ++ (0 : BitVec 6) ++ c ++ bit ui ++ (2 : BitVec 7))
  | .acoll a c ui => some ((38 : BitVec 6) ++ a ++ (0 : BitVec 6) ++ c ++ bit ui ++ (3 : BitVec 7))
  | .await a c => some (r 38 a 0 c 4) | .acancel a c => some (r 38 a 0 c 5)
  | .cfgload a b c => some (r 39 a b c 0) | .cfgarm a c => some (r 39 a 0 c 1)
  | .cfgshadow a b c => some (r 39 a b c 2) | .roll a b c => some (r 39 a b c 3)
  | .cfgpatch a b c => some (r 39 a b c 4) | .qput a b c => some (r 39 a b c 5)
  | .qtake a b c => some (r 39 a b c 6)
  | .ereply a b c k =>
    match k with
    | 0 => some (r 39 a b c 8) | 1 => some (r 39 a b c 9) | 2 => some (r 39 a b c 10)
  | .edrop a => some (r 39 a 0 0 12) | .ctok a b c => some (r 39 a b c 13)
  | .launch a b c => some (r 40 a b c 0) | .spawn a c => some (r 40 a 0 c 1)
  | .prio a c => some (r 40 a 0 c 2)
  | .cancel a lv => some ((40 : BitVec 6) ++ a ++ (0 : BitVec 12) ++ (2 : BitVec 5) ++ levelBits lv)
  | .cancelFault a lv =>
    some ((40 : BitVec 6) ++ a ++ (0 : BitVec 12) ++ (3 : BitVec 5) ++ levelBits lv)
  | .mfs d n => some (sys d 0 0 n) | .mts a n => some (sys 0 a 1 n)
  | .tret => some (sys 0 0 2 1) | .ilock d a => some (sys d a 2 2)
  | .iunlock d a => some (sys d a 2 3) | .iflush => some (sys 0 0 2 4)
  | .tlbinv d a => some (sys d a 2 5) | .snap d => some (sys d 0 2 6) | .brk => some (sys 0 0 2 7)
  | .hint n => some (sys 0 n 2 8) | .waiti d => some (sys d 0 2 9)
  | _ => none

end Sys2Proof
end

