-- ==== Sys2Proof/Machine/Tbl.lean ====
section
/-!
DEFINITION. Sparse tables: plain data for large families of like things (register files, threads,
counters, sites). A table lists its keys in rising order and lists no entry equal to the value an
unlisted key reads as, so that equal tables are equal lists.
-/

namespace Sys2Proof.Machine

abbrev Tbl (α : Type) := List (Nat × α)

namespace Tbl

/-- The value at key `k`; an unlisted key reads as `d`. -/
def look {α : Type} (d : α) : Tbl α → Nat → α
  | [], _ => d
  | (i, x) :: r, k => if i = k then x else look d r k

/-- The table without key `k`. -/
def drop {α : Type} (t : Tbl α) (k : Nat) : Tbl α := t.filter (fun e => !(e.1 == k))

/-- The table with key `k` holding `x`, whatever `x` is. -/
def ins {α : Type} : Tbl α → Nat → α → Tbl α
  | [], k, x => [(k, x)]
  | (i, y) :: r, k, x =>
    if i = k then (k, x) :: r else if k < i then (k, x) :: (i, y) :: r else (i, y) :: ins r k x

/-- Writes `x` at key `k`; writing the default removes the entry. -/
def put {α : Type} [DecidableEq α] (d : α) (t : Tbl α) (k : Nat) (x : α) : Tbl α :=
  if x = d then t.drop k else t.ins k x

/-- Keys rise strictly. -/
def sorted {α : Type} : Tbl α → Bool
  | [] => true
  | [_] => true
  | (i, _) :: (j, y) :: r => decide (i < j) && sorted ((j, y) :: r)

/-- The canonical form. -/
def wf {α : Type} [DecidableEq α] (d : α) (t : Tbl α) : Bool :=
  t.sorted && t.all (fun e => !decide (e.2 = d))

end Tbl

/-- Appends to a list at most `n` long; a full list is unchanged. -/
def pushCap {α : Type} (n : Nat) (l : List α) (x : α) : List α :=
  if l.length < n then l ++ [x] else l

end Sys2Proof.Machine
end

