-- ==== Sys2Proof/Machine/State.lean ====
section
/-!
DEFINITION. The state of one KVT-C3-P576 package, as plain data: every register, memory, queue and
status the manual names, the reasons a step can stop, and the state after the fundamental reset.
Large families are sparse tables (`Tbl`); the default record of each family is the record's value
after the fundamental reset.
-/

namespace Sys2Proof.Machine

open Sys2Proof

/-- Why a step stops. -/
inductive Fault where
  /-- The agenda's next event names a unit the package does not have, or a register field value
  its register cannot carry (Sys2Proof.WellFormed). Raised by `step` only. Safe: no such event can
  reach a C3. -/
  | illFormedEvent
  deriving DecidableEq, Repr

/-- Why an instruction has no meaning. -/
inductive Refusal where
  /-- An instruction whose meaning has not been written. No arm of `exec` gives it any more. Safe. -/
  | notModelled (mnemonic : String)
  deriving DecidableEq, Repr

/-- State of the full bit of a word: never set since reset, empty, full. -/
inductive FullBit where | unset | empty | full
  deriving DecidableEq, Repr

/-! ## Threads -/

/-- Slot states of R192 and SLOTST of R214; HALTED is seen through Tocsin. -/
inductive SlotSt where | empty | ready | memory | walk | blocked | retry | pendreg
  deriving DecidableEq, Repr

/-- What started a thread (R123, R169, R193). -/
inductive StartKind where | task | escape | message | drain
  deriving DecidableEq, Repr

/-- A destination register of an outstanding relaxed load, resolved at issue (R201, R232). -/
inductive Dest where | none | g (n : Nat) | h (n : Nat) | v (n : Nat)
  deriving DecidableEq, Repr

/-- One part of an access: `n` bytes at home address `pa`; `cached` when the page is cached, with
its coherence grain. -/
structure Part where
  pa     : Nat
  n      : Nat
  cached : Bool
  grain  : Nat
  hc     : Bool
  /-- The partition whose hash places its line in L2 (R224). -/
  prt    : Nat
  /-- The device physical address, which indexes the L1 (R222). -/
  dpa    : Nat
  deriving DecidableEq, Repr

/-- What an outstanding relaxed access does at its home (R232, R235). -/
inductive RlxOp where
  | load (sx : Bool) (dest : Dest)
  | store (data : V256)
  | amo (fn : AmoFn) (x : W64) (dest : Dest)
  | cas (cmp new : W64) (dest : Dest)
  /-- STE, FESET and FECLR. -/
  | ste (x : W64)
  | febit (full : Bool)
  deriving DecidableEq, Repr

/-- An outstanding relaxed access (R232): its parts and its size in bytes. -/
structure Rlx where
  op    : RlxOp
  parts : List Part
  n     : Nat
  deriving DecidableEq, Repr

/-- The ticket an escape thread holds (R169, R172). -/
structure Held where
  prt    : Nat
  slot   : Nat
  site   : Nat
  ticket : Nat
  gen    : Nat
  deriving DecidableEq, Repr

/-- The local window of a thread that a resize has moved: home addresses of its scratchpad and
accumulators, and their bytes (R95, R219). -/
structure Win where
  scr  : Nat
  scrn : Nat
  acc  : Nat
  accn : Nat
  deriving DecidableEq, Repr

/-- A TLB entry (R77, R245). -/
structure TlbEntry where
  vpage : Nat
  /-- 0 4 KiB, 1 64 KiB, 2 2 MiB, 3 1 GiB. -/
  size  : Nat
  ppage : Nat
  /-- Bits [11:0] of the leaf (R242). -/
  attr  : BitVec 12
  asid  : W16
  gen   : W16
  slot  : Nat
  deriving DecidableEq, Repr

/-- The state of one thread slot (R198, R258, R418). -/
structure Thread where
  st      : SlotSt := .empty
  /-- Counts the threads started in the slot: tells a command's issuer from a later thread. -/
  life    : Nat := 0
  kind    : StartKind := .task
  g       : Tbl W64 := []
  v       : Tbl V256 := []
  p       : BitVec 8 := 0
  h       : Tbl W64 := []
  ft      : W64 := 0
  sc      : Tbl W64 := []
  pc      : W64 := 0
  sup     : Bool := false
  rlx     : Nat := 0
  rlxOut  : List Rlx := []
  fflags  : BitVec 5 := 0
  mscope  : BitVec 3 := 4
  uivec   : W64 := 0
  uiepc   : W64 := 0
  uicause : W64 := 0
  uiRlx   : BitVec 4 := 0
  uiin    : Bool := false
  /-- The privilege the user handler interrupted (log 50). -/
  uiSup   : Bool := false
  uiPend  : List W64 := []
  mxhpc   : W64 := 0
  snvec   : W64 := 0
  tcause  : W64 := 0
  tval    : W64 := 0
  tepc    : W64 := 0
  tscratch : W64 := 0
  tRlx    : BitVec 4 := 0
  intrap  : Bool := false
  prev    : Bool := false
  poolsel : W64 := 0
  mxA : W64 := 0
  mxAS : W64 := 0
  mxB : W64 := 0
  mxBS : W64 := 0
  mxOff : W64 := 0
  mxShape : W64 := 0
  mxCnt : W64 := 0
  arrived : Bool := false
  arrWord : W64 := 0
  arrGen  : W32 := 0
  /-- Last async handle given out (R390). -/
  handle  : Nat := 0
  /-- The most recent commands: handle and completion status, or none while running (R395). -/
  cmds    : List (Nat × Option Nat) := []
  /-- The handles an AWAIT of every command waits for (R395). -/
  awaits  : List Nat := []
  prt     : Nat := 0
  ctx     : Nat := 0
  asid    : W16 := 0
  root    : Nat := 0
  /-- Launch ring slot, 0 to 4095; 0xFFFF with no launch (R123), which registers and records show in 12
  bits as 0xFFF (R419). -/
  lslot   : Nat := 0xFFFF
  prio    : Nat := 0
  held    : Option Held := none
  /-- The drain row a handler holds: the drain's identity and the row (R210). -/
  row     : Option (Nat × Nat) := none
  /-- WAITI events since it issued, and whether one is waiting (R417). -/
  wiWait  : Bool := false
  wi      : BitVec 4 := 0
  /-- A full-empty or counter instruction that waits at its word's home (R337). -/
  atHome  : Bool := false
  /-- The word of the instruction that waits: it counts as issued, and its turn looks at its condition again
  without a fetch (R192); a SEND's return traps with it (R136). -/
  word    : W32 := 0
  /-- A wait whose condition the thread's own turn looks at again (R192). -/
  poll    : Bool := false
  /-- Faults the walker found for this thread's pending access: 4 KiB page and BADPTE; raised at
  the thread's turn (R246). -/
  wfault  : List (Nat × Bool) := []
  /-- The translations its walks have brought it, which its access goes on with (R192). -/
  fills   : List TlbEntry := []
  /-- A data walk has been filled: the access is outstanding (R192, R214). -/
  filled  : Bool := false
  /-- Replies that came while the thread was halted, oldest first: the destination and its value; a
  served waiter also goes on (R73, R337). -/
  late    : List (Dest × V256) := []
  /-- The trap of a SEND's return that came meanwhile: cause and name (R73, R136). -/
  lateTrap : Option (Nat × W32) := none
  served  : Bool := false
  lw      : Option Win := none
  deriving DecidableEq, Repr

/-- What a new thread starts with: a queued task packet, an escape, a message or a drain row. -/
structure Packet where
  kind   : StartKind := .task
  pc     : W64 := 0
  regs   : Tbl W64 := []
  ft     : W64 := 0
  scbase : W64 := 0
  /-- sc0 to sc3 given directly: a drain handler copies its issuer's (R193). -/
  sc     : Tbl W64 := []
  target : Option Nat := none
  prio   : Nat := 0
  wait   : Nat := 0
  prt    : Nat := 0
  ctx    : Nat := 0
  asid   : W16 := 0
  root   : Nat := 0
  lslot  : Nat := 0xFFFF
  held   : Option Held := none
  row    : Option (Nat × Nat) := none
  lw     : Option Win := none
  /-- A thread moved by a resize that waits for a slot (R95). -/
  moved  : Option Thread := none
  deriving DecidableEq, Repr

/-! ## Cores and clusters -/

/-- A receive queue of a core and context slot (R383, R419). -/
structure RecvQ where
  enable : Bool := false
  base   : Nat := 0
  cap    : Nat := 0
  head   : Nat := 0
  tail   : Nat := 0
  deriving DecidableEq, Repr

structure Core where
  rot       : Nat := 0
  cycle     : W64 := 0
  queue     : List Packet := []
  tlb       : List TlbEntry := []
  /-- The TLB of the inactive context, in shadow storage (R266). -/
  tlbOut    : List TlbEntry := []
  poolpw0   : W64 := 0
  poolpw1   : W64 := 0
  pwRefused : Bool := false
  rq        : Tbl RecvQ := []
  /-- Threads waiting in RECV: queue number with context, and thread slot, oldest first. -/
  recvWait  : List (Nat × Nat) := []
  deriving DecidableEq, Repr

/-- An operand of one row or column of a K step: elements, or blocks of scale byte and codes (R290). -/
inductive OpRow where
  | elems (l : List Nat)
  | blocks (l : List (Nat × List Nat))
  deriving DecidableEq, Repr

/-- A matrix command or drain in a core's queue at the tile (R205, R387, R389). -/
structure MxCmd where
  id      : Nat
  drain   : Bool
  tid     : Nat
  life    : Nat
  word    : W32
  pc      : W64
  prt     : Nat
  ctx     : Nat
  asid    : W16
  root    : Nat
  lslot   : Nat
  /-- Privilege of the issuing thread when it issued the command, and its g3 (R193). -/
  sup     : Bool
  g3      : W64
  aBase : W64
  aStride : W64
  bBase : W64
  bStride : W64
  off     : Nat
  shape   : W64
  counter : W64
  dst     : W64
  dword   : W64
  ft      : W64
  sc      : Tbl W64
  mxhpc   : W64
  kdone   : Nat
  granted : Bool
  /-- Rows of A and columns of B of the granted K step (R208). -/
  fetched : Option (List OpRow × List OpRow)
  flags   : BitVec 5
  /-- Drain: next row to start, next row to write, rows released out of order. -/
  rowStart : Nat
  rowNext  : Nat
  released : List Nat
  lw       : Option Win
  deriving DecidableEq, Repr

/-- A line of the instruction cache (R202, R203). -/
structure IcLine where
  line   : Nat
  data   : BitVec 1024
  locked : Bool
  prt    : Nat
  ctx    : Nat
  deriving DecidableEq, Repr

/-- A page walk in progress or waiting, with the threads that asked (R246, R250). -/
structure Walk where
  prt   : Nat
  asid  : W16
  root  : Nat
  va    : Nat
  gen   : W16
  /-- Threads waiting: thread, whether a fetch, whether the access writes, second part. -/
  who   : List (Nat × Bool × Bool × Bool)
  deriving DecidableEq, Repr

structure Cluster where
  mxweight : BitVec 32 := 0x11111111
  queues   : Tbl (List MxCmd) := []
  /-- Arbiter: queue served last and K steps it has had in a row (R207). -/
  lastQ    : Nat := 7
  streak   : Nat := 0
  icache   : List IcLine := []
  /-- Lock ranges of swapped-out contexts: partition, context, first line, lines (R204). -/
  icSaved  : List (Nat × Nat × Nat × Nat) := []
  icLost   : Nat := 0
  walks    : List Walk := []
  epCache  : Tbl Nat := []
  escNext  : Nat := 0
  /-- The tile fetch unit: its TLB, most recently used first, and the blocks it has pinned (R208). -/
  ftlb     : List TlbEntry := []
  pins     : List Nat := []
  deriving DecidableEq, Repr

/-- An async command (R390 to R394). -/
structure ACmd where
  id      : Nat
  tid     : Nat
  life    : Nat
  cluster : Nat
  /-- 0 ACOPY, 1 AGATHER, 2 ASCATTER, 3 ACOLL; 4 a matrix command or drain that has ended. -/
  op      : Nat
  handle  : Nat
  word    : W32
  pc      : W64
  prt     : Nat
  ctx     : Nat
  asid    : W16
  root    : Nat
  lslot   : Nat
  /-- Privilege of the issuing thread when it issued the command. -/
  sup     : Bool
  dst     : W64
  src     : W64
  len     : W64
  counter : W64
  tag     : W64
  aux0    : W64
  aux1    : W64
  ui      : Bool
  /-- Bytes (ACOPY) or elements done: the resume offset of R272. -/
  done    : Nat
  status  : Nat
  ended   : Bool
  flags   : BitVec 5
  /-- Fault to be recorded: cause and address (R386). -/
  cause   : Nat
  faddr   : W64
  /-- A remote part is awaited (R392). -/
  wait    : Bool
  /-- ACOLL (R394): members, the issuer's rank, the group tag, the member SITE words, whether the
  issuer's own data have been sent, data received so far by rank. -/
  n       : Nat
  rank    : Nat
  gtag    : W64
  members : List W32
  lw      : Option Win
  sent    : Bool
  got     : List (Nat × List Byte)
  deriving DecidableEq, Repr

/-! ## Partitions -/

inductive OwnSt where | free | owned | scrubbing
  deriving DecidableEq, Repr

structure Owner where
  st  : OwnSt := .free
  prt : Nat := 0
  deriving DecidableEq, Repr

/-- Counter status codes, R115. -/
inductive CStat where | free | running | done | cancelled | faulted | gangShort
  deriving DecidableEq, Repr

structure Cntr where
  reason : Nat := 0
  st     : CStat := .free
  read   : Bool := false
  gen    : W16 := 0
  out    : Nat := 0
  /-- Reason of the first child that resolved with the worst status so far (R125). -/
  worst  : CStat := .done
  worstReason : Nat := 0
  /-- The status and reason a cancel that names or covers the counter gives it (R130). -/
  stop   : Option (CStat × Nat) := none
  deriving DecidableEq, Repr

structure JobRun where
  notify : Bool := false
  wb     : Bool := false
  vf     : Nat := 0
  nphase : Nat := 0
  phases : W64 := 0
  status : W64 := 0
  root   : Nat := 0
  asid   : W16 := 0
  ctx    : Nat := 0
  /-- Next phase table position to start. -/
  next   : Nat := 0
  deriving DecidableEq, Repr

structure PhaseRun where
  job      : Nat := 0
  pos      : Nat := 0
  gang     : Bool := false
  tag      : W32 := 0
  deadline : Nat := 0
  armed    : Bool := false
  members  : BitVec 256 := 0
  acks     : BitVec 256 := 0
  membersVa : W64 := 0
  graphs   : W64 := 0
  ngraph   : Nat := 0
  /-- Graph counter of each table position, and once it has resolved whether it is DONE: none when the
  entry did not start. -/
  graphOf  : List (Option (Nat × Option Bool)) := []
  short    : Bool := false
  deriving DecidableEq, Repr

structure GraphRun where
  phase    : Nat := 0
  pos      : Nat := 0
  launches : W64 := 0
  nlaunch  : Nat := 0
  next     : Nat := 0
  /-- Ring slot of each record read, and once its launch has resolved whether it is DONE, since the slot
  may then be taken again: none when the record was not started. -/
  slotOf   : List (Option (Nat × Option Bool)) := []
  deriving DecidableEq, Repr

inductive LaunchSt where | waiting | ready | placed
  deriving DecidableEq, Repr

/-- A dependence (R121), resolved to a counter: level 1 LAUNCH or 2 GRAPH; 0 one that names a
record that was not started. -/
structure Dep where
  any   : Bool
  level : Nat
  index : Nat
  deriving DecidableEq, Repr

structure LaunchRun where
  st       : LaunchSt := .waiting
  graph    : Nat := 0
  prio     : Nat := 0
  wb       : Bool := false
  recVa    : W64 := 0
  anyplace : Bool := false
  image    : W64 := 0
  origin   : W32 := 0
  tasks    : W64 := 0
  ntask    : Nat := 0
  deps     : List Dep := []
  asid     : W16 := 0
  root     : Nat := 0
  ctx      : Nat := 0
  waited   : Nat := 0
  passed   : Nat := 0
  readySeq : Nat := 0
  /-- A region unit of this launch is live. -/
  region   : Bool := false
  /-- Task packets read and not yet placed: no queue and no pending buffer has room for the first (R133). -/
  left     : List Packet := []
  deriving DecidableEq, Repr

/-- An entry of the relocation table (R83, R113). -/
structure Reloc where
  valid   : Bool := false
  core    : Bool := false
  live    : Bool := false
  launch  : Nat := 0
  width   : Nat := 0
  height1 : Nat := 0
  old     : W32 := 0
  new     : W32 := 0
  poolOff : Nat := 0
  /-- The shares of a moved pool: first byte, first byte of the scratchpad, end (R95). -/
  spans   : List (Nat × Nat × Nat) := []
  /-- Order in which the entries were made. -/
  seq     : Nat := 0
  /-- Order in which launches resolved, for the replacement of R83; 0 while live. -/
  doneSeq : Nat := 0
  deriving DecidableEq, Repr

/-- A forwarding stub from a core to the core a SITE word names, of this package or another (R135). -/
structure Stub where
  name : W32
  old  : Nat
  new  : W32
  deriving DecidableEq, Repr

structure GangHold where
  tag    : W32
  acks   : BitVec 256
  cancel : Bool
  deriving DecidableEq, Repr

/-- A shoot-down in progress (R248): the agents that have not acknowledged. -/
structure Shoot where
  gen     : W16
  asid    : W16
  allAsid : Bool
  allVa   : Bool
  first   : Nat
  pages   : Nat
  wait    : List Nat
  /-- The waiting TLBINV thread and its destination register, or none for PF0. -/
  tid     : Option (Nat × Nat)
  deriving DecidableEq, Repr

/-- A tier migration slot (R252, R253). -/
structure Mig where
  va     : W64 := 0
  dst    : W64 := 0
  asid   : W16 := 0
  state  : Nat := 0
  reason : Nat := 0
  w      : Nat := 0
  /-- While running: source partition address, page bytes, leaf's partition address, the generation
  of the shoot-down that ends the move. -/
  src    : Nat := 0
  size   : Nat := 0
  leaf   : Nat := 0
  inv    : Option W16 := none
  /-- A move runs, for this address, destination and ASID, whatever the registers then hold. -/
  run    : Bool := false
  rva    : Nat := 0
  rdst   : Nat := 0
  rasid  : W16 := 0
  deriving DecidableEq, Repr

/-- The counter files of a partition (R115). -/
structure Part64 where
  jobs     : Tbl Cntr := []
  phases   : Tbl Cntr := []
  graphs   : Tbl Cntr := []
  launches : Tbl Cntr := []
  deriving DecidableEq, Repr

/-- A context spilled to memory (R269): the bytes of its image, its slot, the pool partition words and
tile word it recorded, and the bytes and full bits of the shares it moved (log 19). -/
structure Spill where
  img   : List Byte
  slot  : Nat
  words : Tbl W64
  mtpw  : W64
  cells : List Host.Cell
  full  : Tbl FullBit
  /-- Names the image's units, which belong to context `2 + id` while they are out. -/
  id    : Nat
  deriving DecidableEq, Repr

/-- A partition (04, 05, 09). -/
structure Prt where
  exist    : Bool := false
  groups   : List Nat := []
  ddrUnits : List Nat := []
  -- PRT_ page
  rszSeq    : W16 := 0
  rszBusy   : Bool := false
  rszStep   : Nat := 0
  rszOrigin : Nat := 0
  rszStatus : Nat := 0
  quota     : W64 := 0
  weight    : W32 := 0x01010101
  hwm       : W64 := 0
  recaddr   : W64 := 0
  grdEp     : W64 := 0
  propBlk   : BitVec 272 := 0
  propClu   : BitVec 256 := 0
  propHbm   : BitVec 96 := 0
  propDdr   : Nat := 0
  propReloc : Tbl W64 := []
  grdCnt    : Nat := 0
  grdRec0   : W64 := 0
  grdRec1   : W64 := 0
  reloc     : Tbl Reloc := []
  -- LNK_ page and registers
  linkMask  : W16 := 0
  domValid  : Bool := false
  domain    : BitVec 12 := 0
  rt        : Tbl W32 := []
  -- Counters and runs
  cnt       : Part64 := {}
  jobRun    : Tbl JobRun := []
  phaseRun  : Tbl PhaseRun := []
  graphRun  : Tbl GraphRun := []
  launchRun : Tbl LaunchRun := []
  nextSlot  : Nat := 0
  resolved  : Nat := 0
  pending   : List Packet := []
  stubs     : List Stub := []
  /-- SITE word plus one of each endpoint's core at its last EPSYNC (R135). -/
  eps       : Tbl Nat := []
  gangs     : List GangHold := []
  -- SCH_ page
  cntsel    : Tbl W32 := []
  schWeight : Byte := 1
  decided   : Nat := 0
  epdir     : W64 := 0
  -- Traps, faults, contexts
  tvec0     : W64 := 0
  tvec1     : W64 := 0
  frbase    : W64 := 0
  frCons    : W16 := 0
  frLost    : W16 := 0
  frProd    : W16 := 0
  frnote    : W64 := 0
  fsave     : W64 := 0
  /-- Save-area use: offset and bytes of each saved region (R265). -/
  saved     : List (Nat × Nat × Nat) := []
  mtpw0     : W64 := 0
  mtpw1     : W64 := 0
  ctxState  : Nat := 0
  ctxStatus : Nat := 0
  ctxSpilled : Bool := false
  ctxHeld   : BitVec 2 := 1
  ctxActive : Nat := 0
  ctxSpill  : W64 := 0
  spills    : List Spill := []
  /-- A context command that waits for a resize (R269). -/
  ctxWait   : Nat := 0
  dbgctl    : W64 := 0
  -- MMU_ page
  genIssued : W16 := 0
  genDone   : W16 := 0
  invAddr   : W64 := 0
  invCtl    : W64 := 0
  shoots    : List Shoot := []
  mig       : Tbl Mig := []
  /-- Departing units of the running resize past their drain point (R84, R90): kind 1 a core's pool, 2 a
  DDR-5 unit's place, 3 a fabric block, 4 the first page of HBM4 memory that goes. -/
  drained   : List (Nat × Nat) := []
  deriving DecidableEq, Repr

/-- A resize command with its copy of the proposal registers (R85). -/
structure Resize where
  prt     : Nat
  /-- 1 CREATE, 2 RESIZE, 3 DESTROY. -/
  cmd     : Nat
  origin  : Nat
  blk     : BitVec 272
  clu     : BitVec 256
  hbm     : BitVec 96
  ddr     : Nat
  relocs  : Tbl W64
  step    : Nat
  /-- New group list, once PROPOSE has passed. -/
  groups  : List Nat
  /-- HBM4 sweep: watermark in pages, and whether the list grows (R97). -/
  w       : Nat
  grow    : Bool
  nblk : Nat
  ncore : Nat
  nthread : Nat
  nbytes : Nat
  nreloc : Nat
  /-- Regions and cores still to be moved. -/
  regions : List (Nat × W32)
  /-- Regions it has moved. -/
  gone    : List Nat := []
  cores   : List Nat
  /-- Lines REHASH has moved (R98). -/
  moved   : Nat
  /-- Blocks and clusters of the old shape, which PRT_SHAPE and PRT_CUR_ show until COMMIT (R89). -/
  oldBlk  : BitVec 272
  oldClu  : BitVec 256
  durs    : List Nat
  deriving DecidableEq, Repr

/-! ## Fabric -/

/-- A token (R142). -/
structure Token where
  payload : W64
  tag     : BitVec 12
  deriving DecidableEq, Repr

/-- The configuration words of a site, as the image gives them (R305). -/
structure SiteCfg where
  /-- 0 UNUSED, 1 ELEMENT, 2 TILE, 3 FIBRE. -/
  kind  : Nat := 0
  sw0   : W16 := 0
  sw1   : W16 := 0
  pa : W32 := 0
  pb : W32 := 0
  pc : W32 := 0
  o0 : W32 := 0
  o1 : W32 := 0
  ops   : List W32 := []
  einit : Option (W64 × W64 × W64) := none
  /-- Role word and extension, or the two fibre words. -/
  w0 : W32 := 0
  w1 : W32 := 0
  base0 : W64 := 0
  base1 : W64 := 0
  /-- A copy of a replicated operator, with its number; the owner's site (R153). -/
  copyOf : Option (Nat × Nat) := none
  /-- Escape handler of an ESC element (R305). -/
  handler : W64 := 0
  deriving DecidableEq, Repr

/-- A fault that stopped a unit (R146, R147): its code, 0 for none; whether its record is written;
the port of the offending token (0 to 2 ports, 3 to 6 hop buffers, 7 none) and its place there; the
operation word that was active; POISON. -/
structure Flt where
  code   : Nat := 0
  told   : Bool := false
  port   : Nat := 7
  idx    : Nat := 0
  act    : Nat := 0
  poison : Bool := false
  deriving DecidableEq, Repr

/-- A ticket slot of an ESC element (R167 to R170). -/
structure Ticket where
  gen   : Nat := 0
  /-- 0 free, 1 parked, 2 replied. -/
  st    : Nat := 0
  /-- Its escape thread has been started or queued. -/
  asked : Bool := false
  tok   : Token := ⟨0, 0⟩
  tokB  : W64 := 0
  pos   : Nat := 0
  reply : List Token := []
  deriving DecidableEq, Repr

/-- A token held in an ESC element in arrival order: passing, or parked under a ticket. -/
inductive EscItem where
  | pass (t : Token)
  | park (ticket : Nat)
  deriving DecidableEq, Repr

/-- A generator's or unit's extent (R163, R247). -/
structure Extent where
  vpage : Nat
  ppage : Nat
  pages : Nat
  attr  : BitVec 12
  gen   : W16
  deriving DecidableEq, Repr

/-- The state of a site of a loaded region (R141 to R160). -/
structure Site where
  cfg    : SiteCfg := {}
  shadow : Option SiteCfg := none
  /-- The extents of the shadow's bases, translated at the shadow load (R183, R247). -/
  shadowExt : List Extent := []
  /-- The loop counter (R164): no rule of the spec counts, reads or writes it. -/
  loop : Nat := 0
  a : List Token := []
  b : List Token := []
  c : List Token := []
  hn : List Token := []
  he : List Token := []
  hs : List Token := []
  hw : List Token := []
  e0 : W64 := 0
  e1 : W64 := 0
  e2 : W64 := 0
  /-- Outputs of firings that have not entered the hop buffers, oldest first: each the tokens for
  out0 and out1 that enter together (R150); an empty entry awaits a transcendental reply (R165). -/
  res    : List (List (Nat × Token)) := []
  /-- The last value, stop or done token of each port's stream (R145): 0 none, 1 value, 2 + j stop
  S_j, 6 done. -/
  lastA  : Nat := 0
  lastB  : Nat := 0
  lastC  : Nat := 0
  /-- MERGE: 0 boundary next A, 1 boundary next B, 2 inside A, 3 inside B. -/
  merge  : Nat := 0
  /-- Value firings dealt (R153); PAD and STOPGEN value count; value tokens that reached an ESC
  element (R169); phase of a ROOT scan. -/
  count  : Nat := 0
  /-- STOPGEN, SCAN: an S0 is due if a value follows. CVT from B4: the block's second token. -/
  flagX  : Bool := false
  /-- ACC: the smallest non-zero LANES of the open fibre's values, 0 if none (R143, R449). -/
  lanes  : Nat := 0
  /-- REDUCE: the accumulator. -/
  acc    : W64 := 0
  /-- SCAN: the next position and the end; BUILD: n and f; REPEAT: the reference. -/
  cur    : Nat := 0
  cur2   : Nat := 0
  haveX  : Bool := false
  /-- The previous coordinate of the fibre at A and B (R146 ORDER). -/
  prevA  : Option Nat := none
  prevB  : Option Nat := none
  tickets : Tbl Ticket := []
  held   : List EscItem := []
  replies : List Nat := []
  /-- The configuration that took ROLL, while tokens it holds have still to leave (R170, R185). -/
  old    : Option SiteCfg := none
  /-- FIFO head and tail (R158). -/
  head   : Nat := 0
  tail   : Nat := 0
  /-- CACHE lines present by virtual line number (R159). -/
  lines  : Tbl (BitVec 1024) := []
  /-- CACHE lines asked for: virtual and physical line number. -/
  miss   : List (Nat × Nat) := []
  extents : List Extent := []
  /-- A patch miss pauses the unit (R163): the address it wants. -/
  paused : Bool := false
  want   : Nat := 0
  started : Bool := false
  /-- ROLL has been taken or emitted: the site swaps next (R185). -/
  rolled : Bool := false
  /-- The ROLL instruction named this source site. -/
  rollReq : Bool := false
  /-- D has passed: on every stream of an element or fibre unit, or on a tile's port A or out0; on
  a tile's ports B and C (R164). -/
  finA : Bool := false
  finB : Bool := false
  flt  : Flt := {}
  deriving DecidableEq, Repr

/-- A generator of a region (R161, R443), keyed by 4 times its seam site plus its number. -/
structure Gen where
  /-- Its seven words; none while it is not configured. -/
  ws : List W32 := []
  base : W64 := 0
  shadow : Option (List W32 × W64) := none
  /-- The extents of the shadow's base, translated at the shadow load (R183, R247). -/
  shadowExt : List Extent := []
  /-- i0 to i3 of the next visit. -/
  i : Nat × Nat × Nat × Nat := (0, 0, 0, 0)
  /-- The walk is exhausted. -/
  done : Bool := false
  /-- D has been emitted or absorbed. -/
  dSent : Bool := false
  /-- Stop to emit next, if one is due. -/
  stop : Option Nat := none
  inbox : List Token := []
  last : Nat := 0
  extents : List Extent := []
  paused : Bool := false
  want : Nat := 0
  rolled : Bool := false
  rollReq : Bool := false
  flt : Flt := {}
  deriving DecidableEq, Repr

/-- A stream window (R173). -/
structure Window where
  decl  : Bool := false
  site  : Nat := 0
  gen   : Nat := 0
  level : Nat := 0
  base  : W64 := 0
  len   : W64 := 0
  count : W32 := 0
  /-- Publications due and not yet made. -/
  due   : Nat := 0
  deriving DecidableEq, Repr

/-- A circuit of a region (R32, R33). -/
structure Circuit where
  index : Nat
  src   : Nat
  dst   : Nat
  buf   : List Token
  deriving DecidableEq, Repr

/-- A fabric-mode matrix tile entry (R444). -/
structure MxFab where
  cluster : Nat := 0
  /-- Its seven words; none while a shadow image gives the tile to a later configuration. -/
  ws    : List W32 := []
  aBase : W64 := 0
  bBase : W64 := 0
  shadow : Option (List W32 × W64 × W64) := none
  tile  : Nat := 0
  kdone : Nat := 0
  granted : Bool := false
  fetched : Option (List OpRow × List OpRow) := none
  /-- Row and first column of the next token of a finished tile; none while it is computed. -/
  emit  : Option (Nat × Nat) := none
  /-- Stop to emit next, if one is due; 4 the done token. -/
  stop  : Option Nat := none
  dSent : Bool := false
  rolled : Bool := false
  rollReq : Bool := false
  flt   : Flt := {}
  deriving DecidableEq, Repr

/-- A region, loaded or ended, keyed by partition and launch ring slot (R187, R469). -/
structure Region where
  loaded : Bool := false
  armed  : Bool := false
  ctx    : Nat := 0
  asid   : W16 := 0
  root   : Nat := 0
  /-- Top-left column counted across the bridge (0 to 735), row, width, height. -/
  x : Nat := 0
  y : Nat := 0
  w : Nat := 0
  h : Nat := 0
  pi : Bool := false
  endq : Bool := false
  stallAt : Nat := 65536
  sites : Tbl Site := []
  gens  : Tbl Gen := []
  mxs   : List MxFab := []
  wins  : Tbl Window := []
  circs : List Circuit := []
  index : Nat := 0
  loadst : Nat := 0
  fcode : Nat := 0
  esclost : Nat := 0
  stalls : Nat := 0
  stall : Bool := false
  quiescent : Bool := false
  faulted : Bool := false
  rolling : Bool := false
  hasShadow : Bool := false
  /-- Windows of the shadow image. -/
  winsNext : Tbl Window := []
  flags : BitVec 5 := 0
  /-- CFGARM waits for the region's matrix tiles: its thread and register, none for the scheduler. -/
  arming : Bool := false
  armWait : Option (Nat × Nat) := none
  /-- The thread and register of a ROLL instruction whose source sites have not all emitted ROLL. -/
  rollWait : Option (Nat × Nat) := none
  /-- The region unit has ended: the windows stay readable (R174); it ended DONE: so do its status,
  counts and flags (R453). -/
  ended : Bool := false
  endDone : Bool := false
  everArmed : Bool := false
  /-- Blocks in which a count of the region has changed since the last sweep (R175). -/
  touched : List Nat := []
  /-- Something has acted since the last sweep (R177). -/
  acted : Bool := false
  /-- 0 running, 1 stopped by a fault, 2 by a scan-out. -/
  clock : Nat := 0
  /-- SAVED at an offset of the save area, and RESUME has been written for it (R265). -/
  savedAt : Option Nat := none
  reload : Bool := false
  /-- While it is saved: its memory tiles' bytes and full bits by place in the region (R265). -/
  tileMem : List Host.Cell := []
  tileFull : Tbl FullBit := []
  deriving DecidableEq, Repr

/-- A configuration port's present load (R181, R189). -/
structure CfgPort where
  busy : Bool := false
  op   : Nat := 0
  prt  : Nat := 0
  slot : Nat := 0
  bytes : Nat := 0
  deriving DecidableEq, Repr

/-- A load whose completion is awaited: the thread and its register, or the scheduler. -/
structure CfgLoad where
  /-- The configuration port that reports the end. -/
  port   : Nat
  prt    : Nat
  ctx    : Nat
  asid   : W16
  root   : Nat
  slot   : Nat
  shadow : Bool
  image  : W64
  /-- The loader reads the image at user privilege. -/
  user   : Bool
  /-- The SITE word of the region's top-left site. -/
  origin : W32
  waiter : Option (Nat × Nat)
  /-- The scheduler places a launch's region (R127). -/
  sched  : Bool
  deriving DecidableEq, Repr

/-! ## Host interface, power, links, debug -/

structure Vf where
  enable : Bool := false
  port   : Bool := false
  prt    : Nat := 0
  jqbase : W64 := 0
  jqsize : W64 := 0
  tail   : Nat := 0
  head   : Nat := 0
  baddb  : Nat := 0
  badrec : Nat := 0
  deriving DecidableEq, Repr

structure Hif where
  errStat : Byte := 0
  errAddr : Nat := 0
  aper0   : W64 := 0
  aper1   : W64 := 0
  vfs     : Tbl Vf := []
  hdmBase : W64 := 0
  hdmLimit : W64 := 0
  fwStatus : Nat := 0
  fwAddr  : W64 := 0
  fwLen   : W64 := 0
  /-- Staged image: hash, SVN, whether it raises the minimum (R63). -/
  staged  : Option (BitVec 512 × Byte × Bool) := none
  /-- SVN of firmware activated since reset, and the raised minimum; none as fused. -/
  svn     : Option Byte := none
  minSvn  : Option Byte := none
  fwRuns  : Bool := true
  /-- A fetch begun by START has not ended; an accepted ACTIVATE has not ended, and its image. -/
  fetching : Bool := false
  activating : Option (BitVec 512 × Byte × Bool) := none
  /-- Lines of 64 bytes of device memory that the host may hold (R60, R225). -/
  lines   : List Nat := []
  /-- Hash of the image activated since reset (R63). -/
  runHash : Option (BitVec 512) := none
  rewHash : BitVec 512 := 0
  /-- IDE keys delivered in SPDM secure sessions, by port and stream (R66). -/
  ide     : List (Nat × Nat × BitVec 256) := []
  deriving DecidableEq, Repr

/-- An island (R19 to R25). -/
structure Island where
  freq    : Nat := 90
  state   : Nat := 0
  freqNow : Nat := 90
  stNow   : Nat := 0
  err     : Nat := 0
  busy    : Bool := false
  throt   : Bool := false
  temp    : Option Byte := none
  /-- The limiter's ceiling, and whether it lowers the frequency (R25). -/
  lim     : Nat := 90
  hot     : Bool := false
  queued  : Option (Nat × Nat) := none
  deriving DecidableEq, Repr

structure Pwr where
  isl  : Tbl Island := []
  trip : W64 := 0
  deriving DecidableEq, Repr

inductive LinkSt where | down | training | up8 | up4 | dupid
  deriving DecidableEq, Repr

/-- A flit at a link: the route entry it was queued by (R44), the participant of the round robin it
counts for (R38, R46), its place in the order of queuing (R45), and how often it has been replayed (R39). -/
structure Queued where
  flit  : Flit
  entry : W32
  part  : Nat
  ord   : Nat
  tries : Nat := 0
  deriving DecidableEq, Repr

/-- A Peal link (R36 to R46). -/
structure Link where
  enable  : Bool := false
  st      : LinkSt := .down
  peer    : Nat := 0
  replays : Nat := 0
  drops   : Nat := 0
  /-- Flits waiting for the output, oldest first. -/
  out     : List Queued := []
  /-- Flits held until acknowledged, oldest first (at most 512). -/
  hold    : List Queued := []
  nextSeq : Nat := 0
  expect  : Nat := 0
  /-- Credits the peer has given for BULK, LOW-LATENCY, CONTROL, COLLECTIVE. -/
  cr0 : Nat := 128
  cr1 : Nat := 64
  cr2 : Nat := 16
  cr3 : Nat := 128
  /-- Weighted round robin: class served last and its count. -/
  rrClass : Nat := 3
  rrCount : Nat := 0
  deriving DecidableEq, Repr

/-- A request of this package waiting on another package (R38, R42). -/
structure RReq where
  id   : Nat
  /-- The async command it belongs to, or none for a SEND of thread `tid`. -/
  cmd  : Option Nat
  tid  : Nat
  deriving DecidableEq, Repr

/-- A message in flight inside the package (R136). -/
structure Msg where
  id     : Nat
  prt    : Nat
  name   : W32
  w0     : W64
  w1     : W64
  core   : Nat
  hops   : Nat
  /-- Sending thread, none for the partition manager; sender's SITE word. -/
  sender : Option Nat
  site   : W32
  asid   : W16
  root   : Nat
  /-- Package of a remote sender and its request number. -/
  remote : Option (Nat × Nat)
  /-- Returned: 1 STALE, 2 QOVF. -/
  ret    : Nat
  deriving DecidableEq, Repr

structure Lnk where
  pkgid  : Nat := 0
  lock   : Bool := false
  links  : Tbl Link := []
  base   : Tbl W32 := []
  reqs   : List RReq := []
  /-- Collective data whose command has not been issued here, by partition (R394). -/
  coll   : List (Nat × Payload) := []
  /-- Collective data whose last part has not arrived, by partition (R37). -/
  collIn : List (Nat × Payload) := []
  /-- Aborted collectives: partition, group tag, rank and list entry of the member that aborted, list
  entry of the member here that has not issued (R394). -/
  collDead : List (Nat × W64 × Nat × W32 × W32) := []
  /-- Flits queued at links so far (R45). -/
  queued : Nat := 0
  bridgeReplays : Nat := 0
  deriving DecidableEq, Repr

structure Evt where
  site : W32 := 0
  ctl  : W32 := 0
  deriving DecidableEq, Repr

inductive TocSt where | running | halting | halted | stepping
  deriving DecidableEq, Repr

structure Dbg where
  toc     : TocSt := .running
  fatal   : Bool := false
  cause   : Nat := 0
  tocProp : Bool := false
  steps   : Nat := 1
  stepMask : W64 := 0
  evts    : Tbl Evt := []
  tsel    : W64 := 0
  arm     : Bool := false
  srcSnap : Bool := true
  srcEvent : Bool := false
  srcTocsin : Bool := true
  clapProp : Bool := false
  seq     : W16 := 0
  missed  : Nat := 0
  source  : Nat := 0
  latched : Bool := false
  deriving DecidableEq, Repr

/-- CFG_, FAB_ registers outside the regions. -/
structure CfgRegs where
  refused : Nat := 0
  loaded  : Nat := 0
  misses  : W64 := 0
  ports   : Tbl CfgPort := []
  sel     : W32 := 0
  deriving DecidableEq, Repr

/-- A request to a transcendental unit: the region's key, the element's site, the token. -/
structure TransReq where
  key  : Nat
  site : Nat
  tok  : Token
  deriving DecidableEq, Repr

/-- A transcendental unit: waiting requests by block row, granted requests, next row (R165). -/
structure Trans where
  wait  : Tbl (List TransReq) := []
  run   : List TransReq := []
  next  : Nat := 0
  deriving DecidableEq, Repr

/-- A copy of an 8-byte word that may be stale: level 0 to 255 an L1 of that cluster, 256 + d the
copies of die d, 258 the word as memory holds it where a cache holds a newer one (R60, R222 to R225). -/
structure Copy where
  level : Nat
  addr  : Nat
  val   : W64
  reg   : Bool
  dirty : Bool
  /-- The L1 set of its line (R222), and its page's partition, grain and host-coherent bit. -/
  set   : Nat
  prt   : Nat
  grain : Nat
  hc    : Bool
  deriving DecidableEq, Repr

/-- A 512-byte block at a die-local home (R224, R225): its number among the home addresses, the slice
that holds it (by cluster), the partition, the grain of its page, which of its 16 sectors are valid, and
which of them the home holds EXCLUSIVE (the other valid ones SHARED, the rest INVALID). -/
structure Block where
  die   : Nat
  blk   : Nat
  slice : Nat
  prt   : Nat
  grain : Nat
  hc    : Bool
  valid : BitVec 16
  excl  : BitVec 16
  deriving DecidableEq, Repr

/-- A full-empty or counter-word waiter at its word's home (R337, R378). -/
inductive WaitKind where
  | ldf (dest : Dest) (clr : Bool)
  | stf (data : W64)
  | amof (fn : AmoFn) (x : W64) (dest : Dest)
  | cntwait (n : W64) (dest : Dest)
  | bar (gen : W32)
  deriving DecidableEq, Repr

structure Waiter where
  tid  : Nat
  va   : Nat
  addr : Nat
  part : Part
  acq  : Bool
  kind : WaitKind
  /-- The thread's relaxed count before the instruction took one of it (R232). -/
  rlx  : Nat
  deriving DecidableEq, Repr

/-- What Clapper keeps of the package at the last taken trigger (R70). -/
structure Snap where
  valid : Bool := false
  /-- The die the trigger came from, where it came from one (R69). -/
  die   : Option Nat := none
  seq   : W16 := 0
  hif   : Hif := {}
  pwr   : Pwr := {}
  lnk   : Lnk := {}
  prts  : Tbl Prt := []
  blkOwn : Tbl Owner := []
  cluOwn : Tbl Owner := []
  hbmOwn : Tbl Owner := []
  resize : Option Resize := none
  resizeQ : List Resize := []
  cores : Tbl Core := []
  clusters : Tbl Cluster := []
  threads : Tbl Thread := []
  regions : Tbl Region := []
  toc : TocSt := .running
  stepMask : W64 := 0
  deriving DecidableEq, Repr

/-- A MSI-X vector raised: 0 to 255 a virtual function, 256 PF0 (R57). -/
structure Irq where
  fn  : Nat
  vec : Nat
  deriving DecidableEq, Repr

/-- An answer of the attestation service (R66). -/
inductive SpdmAns where
  /-- The asymmetric algorithms and the hashes it advertises. -/
  | algorithms (asym hash : List String)
  | certificate (chain : List Byte)
  | measurement (value : BitVec 512)
  | error
  deriving DecidableEq, Repr

/-- What left the package toward the host outside a register read. -/
inductive Out where
  | spdm (pf : Nat) (ans : SpdmAns)
  | hostRead (addr : Nat) (data : List Byte)
  | bar2Read (pf : Nat) (data : List Byte)
  | snoopReply (addr : Nat) (data : List Byte)
  | cntval (vf : Nat) (word : W64)
  | flit (link : Nat) (f : Flit)
  deriving DecidableEq, Repr

/-- The state of the package. -/
structure State where
  agenda  : List Instr
  /-- How many events of the agenda act before the cores' next turns (log 1). -/
  due     : Nat
  cur     : Nat
  tid     : Nat
  fresh   : Nat
  idNext  : Nat
  irqs    : List Irq
  outbox  : List Out
  threads : Tbl Thread
  cores   : Tbl Core
  clusters : Tbl Cluster
  acmds   : List ACmd
  mem     : List Host.Cell
  full    : Tbl FullBit
  /-- Ranges of HBM4 and DDR-5 word numbers zeroed since the fundamental reset: their words' full bits
  are empty until set (R334). Of a DDR-5 range, the dies whose channels have kept their contents (R20). -/
  zeroed  : List (Nat × Nat × List Nat)
  poison  : List Nat
  copies  : List Copy
  /-- The L2 slices' blocks, the least recently brought first. -/
  l2      : List Block
  /-- The slices (by cluster) whose data arrays have held a block since they last read zero (R23, R80). -/
  l2used  : List Nat
  waiters : List Waiter
  prts    : Tbl Prt
  blkOwn  : Tbl Owner
  cluOwn  : Tbl Owner
  hbmOwn  : Tbl Owner
  resize  : Option Resize
  resizeQ : List Resize
  regions : Tbl Region
  circFree : Nat
  trans   : Tbl Trans
  cfg     : CfgRegs
  loads   : List CfgLoad
  hif     : Hif
  pwr     : Pwr
  lnk     : Lnk
  msgs    : List Msg
  dbg     : Dbg
  snap    : Snap
  deriving DecidableEq, Repr

/-- The package after the fundamental reset (R5, R80): every register at its map's reset value,
every resource FREE, no partition, nothing in memory, no thread; an empty agenda (log 1). -/
def State.reset : State where
  agenda := []
  due := 0
  cur := 0
  tid := 0
  fresh := 0
  idNext := 0
  irqs := []
  outbox := []
  threads := []
  cores := []
  clusters := []
  acmds := []
  mem := []
  full := []
  zeroed := []
  poison := []
  copies := []
  l2 := []
  l2used := []
  waiters := []
  prts := []
  blkOwn := []
  cluOwn := []
  hbmOwn := []
  resize := none
  resizeQ := []
  regions := []
  circFree := 1024
  trans := []
  cfg := {}
  loads := []
  hif := {}
  pwr := {}
  lnk := {}
  msgs := []
  dbg := {}
  snap := {}

end Sys2Proof.Machine
end

