-- ==== Sys2Proof/Machine/Bits.lean ====
section
/-!
DEFINITION. Fields, sign extension, byte order and lanes (00_scope.md R4, R7; 12 R313), and the
geometry of the package: SITE words (02 R26 to R28), blocks and clusters (04 R78), site kinds
(06 R140).
-/

namespace Sys2Proof.Machine

open Sys2Proof

/-- x[hi:lo] of R4, as a number. -/
def fld {n : Nat} (x : BitVec n) (hi lo : Nat) : Nat := x.toNat / 2 ^ lo % 2 ^ (hi + 1 - lo)

def bitAt {n : Nat} (x : BitVec n) (i : Nat) : Bool := x.toNat / 2 ^ i % 2 == 1

def nfld (x hi lo : Nat) : Nat := x / 2 ^ lo % 2 ^ (hi + 1 - lo)

def nbit (x i : Nat) : Bool := x / 2 ^ i % 2 == 1

def b2n (b : Bool) : Nat := if b then 1 else 0

/-- The low `w` bits of `x` read as two's complement. -/
def sInt (w x : Nat) : Int :=
  let y := x % 2 ^ w
  if y < 2 ^ (w - 1) then (y : Int) else (y : Int) - (2 : Int) ^ w

/-- sign_extend of R7 to 64 bits. -/
def sext64 (w x : Nat) : W64 := BitVec.ofInt 64 (sInt w x)

/-- `sat(x, w)` of R313. -/
def satS (x : Int) (w : Nat) : Int :=
  if x < -(2 : Int) ^ (w - 1) then -(2 : Int) ^ (w - 1)
  else if (2 : Int) ^ (w - 1) - 1 < x then (2 : Int) ^ (w - 1) - 1 else x

/-- Little-endian bytes of `x`, `n` of them (R4). -/
def leBytes : Nat → Nat → List Byte
  | 0, _ => []
  | n + 1, x => BitVec.ofNat 8 x :: leBytes n (x / 256)

/-- The number little-endian bytes hold (R4). -/
def leNat : List Byte → Nat
  | [] => 0
  | b :: r => b.toNat + 256 * leNat r

/-- Lane `i` of `w` bits of a packed value (R143, R359). -/
def lane (w : Nat) (x i : Nat) : Nat := x / 2 ^ (w * i) % 2 ^ w

/-- The value whose lanes, lane 0 first, are the list's entries. -/
def ofLanes (w : Nat) : List Nat → Nat
  | [] => 0
  | x :: r => x % 2 ^ w + 2 ^ w * ofLanes w r

def lanesOf (w n x : Nat) : List Nat := (List.range n).map (lane w x)

def setAt {α : Type} (l : List α) (i : Nat) (x : α) : List α := l.set i x

/-! ## Geometry -/

/-- What a column holds (R27). -/
inductive ColKind where
  | fabric (k : Nat)
  /-- A seam column serving fabric stripe `k`. -/
  | seam (k : Nat)
  | swarm (k lane : Nat)
  deriving DecidableEq, Repr

def colKind (col : Nat) : ColKind :=
  let k := col / 22
  let m := col % 22
  if m ≤ 15 then .fabric k
  else if m = 16 then .seam k
  else if m ≤ 20 then .swarm k (m - 17)
  else .seam (k + 1)

def siteIdx (die col row : Nat) : Nat := (die * 368 + col) * 128 + row
def siteDie (s : Nat) : Nat := s / 47104
def siteCol (s : Nat) : Nat := s / 128 % 368
/-- Column counted across the bridge, 0 to 735. -/
def siteX (s : Nat) : Nat := s / 128
def siteRow (s : Nat) : Nat := s % 128

/-- The site at column `x` counted across the bridge. -/
def siteAt (x row : Nat) : Nat := x * 128 + row

/-- Number of the block of fabric stripe `k` and block row `b` (R78). -/
def blockNo (die b k : Nat) : Nat := 136 * die + 17 * b + k

/-- The block a fabric or seam site belongs to (R78). -/
def siteBlock (s : Nat) : Option Nat :=
  match colKind (siteCol s) with
  | .fabric k | .seam k => some (blockNo (siteDie s) (siteRow s / 16) k)
  | .swarm _ _ => none

/-- Top-left site of a block. -/
def blockSite (n : Nat) : Nat := siteIdx (n / 136) (22 * (n % 17)) (16 * (n % 136 / 17))

/-- Kinds of fabric sites (R140): 0 spare or no fabric site, 1 compute element, 2 memory tile,
3 fibre unit. -/
def siteKind (s : Nat) : Nat :=
  match colKind (siteCol s) with
  | .fabric _ =>
    let c := siteCol s % 22
    let q := siteRow s % 16
    if c % 4 = 3 ∧ q % 4 = 3 then 2
    else if c % 4 = 1 ∧ (q = 1 ∨ q = 5 ∨ q = 9) then 3
    else if c % 4 = 1 ∧ q = 13 then 0
    else 1
  | _ => 0

/-- The cluster of a core, its position (R14, R78). -/
def coreCluster (c : Nat) : Nat := c / 8
def clusterDie (m : Nat) : Nat := m / 128
def clusterRow (m : Nat) : Nat := m % 128 / 16
def clusterStripe (m : Nat) : Nat := m % 16
def coreCol (c : Nat) : Nat := 22 * clusterStripe (c / 8) + 17 + c % 8 % 4
def coreRow (c : Nat) : Nat := 16 * clusterRow (c / 8) + c % 8 / 4
def threadCore (t : Nat) : Nat := t / 16

/-- SITE word (R26). -/
def siteWord (pkg die col row sub : Nat) : W32 :=
  BitVec.ofNat 32 (pkg % 256 * 2 ^ 24 + die % 2 * 2 ^ 23 + col % 512 * 2 ^ 14 + row % 128 * 2 ^ 7
    + sub % 128)

def coreSite (pkg c : Nat) : W32 := siteWord pkg (clusterDie (c / 8)) (coreCol c) (coreRow c) 0
def slotSite (pkg t : Nat) : W32 :=
  siteWord pkg (clusterDie (t / 128)) (coreCol (t / 16)) (coreRow (t / 16)) (t % 16)
def fabSite (pkg s sub : Nat) : W32 := siteWord pkg (siteDie s) (siteCol s) (siteRow s) sub

/-- What a SITE word names on its package (R28). -/
inductive SiteName where
  | nothing
  | fabric (site sub : Nat)
  | trans (x b : Nat)
  | gen (site n : Nat)
  | escPort (site : Nat)
  | cfgPort (site : Nat)
  | slot (tid : Nat)
  | tile (m : Nat)
  | slice (m : Nat)
  | walker (m : Nat)
  | engine (m k : Nat)
  deriving DecidableEq, Repr

def sitePkg (w : W32) : Nat := fld w 31 24

/-- R27, R28: the thing a SITE word names, its PKG apart. -/
def siteName (w : W32) : SiteName :=
  let die := fld w 23 23
  let col := fld w 22 14
  let row := fld w 13 7
  let sub := fld w 6 0
  let b := row / 16
  let s := siteIdx die col row
  if 368 ≤ col then .nothing
  else
    match colKind col with
    | .fabric _ =>
      if row % 16 = 0 ∧ sub = 127 then .trans (die * 368 + col) b
      else if siteKind s = 0 then .nothing
      else if sub ≤ 5 then .fabric s sub
      else .nothing
    | .seam _ =>
      if row % 16 ≠ 0 then .nothing
      else if sub ≤ 3 then .gen s sub
      else if sub = 4 then .escPort s
      else if sub = 5 then .cfgPort s
      else .nothing
    | .swarm k l =>
      let m := 128 * die + 16 * b + k
      if row % 16 ≤ 1 then
        if sub ≤ 15 then .slot ((8 * m + 4 * (row % 16) + l) * 16 + sub) else .nothing
      else if row % 16 = 2 then
        if l = 3 then (if sub ≤ 2 then .engine m sub else .nothing)
        else if sub = 0 then (if l = 0 then .tile m else if l = 1 then .slice m else .walker m)
        else .nothing
      else .nothing

/-- Tile `t` of block `n`: the site of the memory tile (R216). -/
def tileSite (n t : Nat) : Nat := blockSite n + (4 * (t % 4) + 3) * 128 + 4 * (t / 4) + 3

/-- The SRAM window address of a memory-tile site (R216). -/
def tileAddr (s : Nat) : Nat :=
  let n := blockNo (siteDie s) (siteRow s / 16) (siteCol s / 22)
  let t := 4 * (siteRow s % 16 / 4) + siteCol s % 22 / 4
  0x400040000000 + 0x10000 * (16 * n + t)

/-- Blocks and clusters whose islands are RETAIN or OFF are judged by island (R19). -/
def blockIsland (n : Nat) : Nat := 20 * (n / 136) + Nat.min (n % 17 / 2) 7
def clusterIsland (m : Nat) : Nat := 20 * (m / 128) + 8 + m % 16 / 2
def groupIsland (g : Nat) : Nat :=
  let s := g / 8
  20 * (s / 6) + (if s % 6 < 3 then 16 else 17)

end Sys2Proof.Machine
end

