-- ==== Sys2Proof/Machine/Mem.lean ====
section
/-!
DEFINITION. Accessors of State, memory at its homes (08 R215, R216, R221), full bits (12 R334),
poison (03 R58) and the copies that may be stale (08 R222 to R225).
-/

namespace Sys2Proof.Machine

open Sys2Proof

/-! ## Accessors -/

def State.thread (s : State) (t : Nat) : Thread := s.threads.look {} t
def State.setThread (s : State) (t : Nat) (x : Thread) : State :=
  { s with threads := s.threads.put {} t x }
/-- An island's clock runs (R20, R22). -/
def State.clockOn (s : State) (island : Nat) : Bool := (s.pwr.isl.look {} island).stNow == 0
/-- The thread whose instruction runs. -/
def State.thr (s : State) : Thread := s.thread s.tid
def State.setThr (s : State) (x : Thread) : State := s.setThread s.tid x
def State.core (s : State) (c : Nat) : Core := s.cores.look {} c
def State.setCore (s : State) (c : Nat) (x : Core) : State := { s with cores := s.cores.put {} c x }
def State.clu (s : State) (m : Nat) : Cluster := s.clusters.look {} m
def State.setClu (s : State) (m : Nat) (x : Cluster) : State :=
  { s with clusters := s.clusters.put {} m x }
def State.prt (s : State) (q : Nat) : Prt := s.prts.look {} q
def State.setPrt (s : State) (q : Nat) (x : Prt) : State := { s with prts := s.prts.put {} q x }
/-- The region of ring slot `sl` of partition `q`. -/
def rgnKey (q sl : Nat) : Nat := 4096 * q + sl
def State.region (s : State) (q sl : Nat) : Region := s.regions.look {} (rgnKey q sl)
def State.setRegion (s : State) (q sl : Nat) (x : Region) : State :=
  { s with regions := s.regions.put {} (rgnKey q sl) x }
def State.pkg (s : State) : Nat := s.lnk.pkgid
/-- Appends an event that hardware takes on its own (log 1). -/
def State.post (s : State) (e : Instr) : State := { s with agenda := s.agenda ++ [e] }
/-- A free value (log 4) and the state after it is drawn. -/
def State.draw (s : State) : W64 × State :=
  (Config.freeWord s.fresh, { s with fresh := s.fresh + 1 })
/-- A choice the manual leaves open (log 1) and the state after it is made. -/
def State.choice (s : State) : Nat × State :=
  (Config.choice s.fresh, { s with fresh := s.fresh + 1 })
def State.newId (s : State) : Nat × State := (s.idNext, { s with idNext := s.idNext + 1 })
def State.irq (s : State) (fn vec : Nat) : State := { s with irqs := s.irqs ++ [⟨fn, vec⟩] }
def State.emitOut (s : State) (o : Out) : State := { s with outbox := s.outbox ++ [o] }

/-- A context command of the partition that waits looks at its condition again (R269, R271). -/
def State.pokeCtx (s : State) (q : Nat) : State :=
  match (s.prt q).ctxState with
  | 1 => s.post (.ctxSwapDone q)
  | 2 => s.post (.ctxSpillDone q)
  | 3 => s.post (.ctxFillDone q)
  | 4 => s.post (.ctxSwapDone q)
  | _ => s

def Owner.heldBy (o : Owner) (q : Nat) : Bool := decide (o.st = .owned) && o.prt == q
def State.ownsBlock (s : State) (q n : Nat) : Bool := (s.blkOwn.look {} n).heldBy q
def State.ownsCluster (s : State) (q m : Nat) : Bool := (s.cluOwn.look {} m).heldBy q
def State.cluOwner (s : State) (m : Nat) : Option Nat :=
  let o := s.cluOwn.look {} m
  if o.st = .owned then some o.prt else none

/-! ## Memory: the canonical list -/

namespace Memory

/-- What the byte at `a` reads as; an unlisted byte reads zero (R80, log 3). -/
def get (m : List Host.Cell) (a : Nat) : Byte := Tbl.look 0 m a

/-- Writes one byte and keeps the form: addresses rise, no listed byte is zero. -/
def set (m : List Host.Cell) (a : Nat) (x : Byte) : List Host.Cell := Tbl.put 0 m a x

/-- Addresses rise strictly and no entry is zero. -/
def wf (m : List Host.Cell) : Bool := Tbl.wf 0 m

def readList (m : List Host.Cell) (a : Nat) : Nat → List Byte
  | 0 => []
  | n + 1 => get m a :: readList m (a + 1) n

def writeList (m : List Host.Cell) (a : Nat) : List Byte → List Host.Cell
  | [] => m
  | b :: r => writeList (set m a b) (a + 1) r

/-- Removes every listed byte in [lo, hi): a zeroed range (R101). -/
def zero (m : List Host.Cell) (lo hi : Nat) : List Host.Cell :=
  m.filter (fun c => decide (c.1 < lo) || decide (hi ≤ c.1))

end Memory

def State.byteAt (s : State) (a : Nat) : Byte := Memory.get s.mem a
def State.readHome (s : State) (a n : Nat) : Nat := leNat (Memory.readList s.mem a n)
/-- The bytes a write leaves no longer carry an uncorrectable error (log 14). -/
def State.writeHome (s : State) (a n x : Nat) : State :=
  { s with mem := Memory.writeList s.mem a (leBytes n x)
           poison := s.poison.filter (fun p => decide (p < a) || decide (a + n ≤ p)) }
def State.writeBytes (s : State) (a : Nat) (l : List Byte) : State :=
  { s with mem := Memory.writeList s.mem a l
           poison := s.poison.filter (fun p => decide (p < a) || decide (a + l.length ≤ p)) }
def State.poisoned (s : State) (a n : Nat) : Bool :=
  s.poison.any (fun p => decide (a ≤ p) && decide (p < a + n))

/-! ## Address windows (R216) -/

def hbmWin : Nat := 0x100000000000
def hbmGroup : Nat := 0x180000000
def ddrWin : Nat := 0x200000000000
def poolWin : Nat := 0x400000000000
def tileWin : Nat := 0x400040000000
def l2Win : Nat := 0x400080000000
def shadowWin : Nat := 0x4000C0000000
def hostWin : Nat := 0x8000000000000
def poolBase (c : Nat) : Nat := poolWin + 0x40000 * c

def isPool (a : Nat) : Bool := decide (poolWin ≤ a) && decide (a < 0x400020000000)
def isTile (a : Nat) : Bool := decide (tileWin ≤ a) && decide (a < 0x400051000000)
def isSram (a : Nat) : Bool := isPool a || isTile a
def isHost (a : Nat) : Bool := decide (hostWin ≤ a) && decide (a < 0x10000000000000)

/-! ## DDR-5 (R10, R11, R217) -/

/-- Channels that stay online: the populated ones whose DIMM is as that of the lowest (R11). -/
def ddrOnline : List Nat :=
  (List.range 8).filter (fun n => (Config.dimm n).isSome &&
    Config.dimm n == ((List.range 8).findSome? Config.dimm))

/-- GiB of a DIMM: 64, 128 or 256 (R10). -/
def dimmGiB (d : Fin 3 × Nat) : Nat := 64 * 2 ^ d.1.val

/-- GiB of the tier: what the online channels hold (R11). -/
def ddrGiB : Nat :=
  ddrOnline.length * (match Config.dimm (ddrOnline.getD 0 0) with | some d => dimmGiB d | none => 0)

/-- The channel of tier address `t` (R217). -/
def ddrChannel (t : Nat) : Nat := ddrOnline.getD (t / 512 % ddrOnline.length) 0

/-- The die a channel is attached to: channels 0 to 3 to die 0 (R10, log 51). -/
def channelDie (n : Nat) : Nat := n / 4

/-- Device memory that the package has (R216): HBM4, and DDR-5 to the end of the tier. -/
def isHbm (a : Nat) : Bool := decide (hbmWin ≤ a) && decide (a < hbmWin + 96 * hbmGroup)
def isDdr (a : Nat) : Bool := decide (ddrWin ≤ a) && decide (a < ddrWin + ddrGiB * 0x40000000)

/-- The memory die of a home address: that of its HBM4 stack or DDR-5 channel (R225); 0 for others. -/
def memDie (a : Nat) : Nat :=
  if hbmWin ≤ a ∧ a < ddrWin then (if (a - hbmWin) / hbmGroup / 8 < 6 then 0 else 1)
  else if ddrWin ≤ a ∧ a < poolWin then channelDie (ddrChannel (a - ddrWin))
  else 0

/-! ## Full bits (R334) -/

/-- The full bit of the 8-byte word at home address `a`: SRAM words start empty (R80), other words
hold a free value until they are set or zeroed. -/
def State.fullAt (s : State) (a : Nat) : Bool :=
  match s.full.look .unset (a / 8) with
  | .full => true
  | .empty => false
  | .unset =>
    if isSram a || s.zeroed.any (fun z => decide (z.1 ≤ a / 8) && decide (a / 8 < z.2.1) &&
        (decide (a < ddrWin) || z.2.2.contains (memDie a)))
    then false else Config.fullAtReset (a / 8)

def State.setFull (s : State) (a : Nat) (f : Bool) : State :=
  { s with full := s.full.put .unset (a / 8) (if f then .full else .empty) }

/-- Zeroing leaves every word of the range empty (R334, R101, R23). -/
def State.zeroRange (s : State) (lo hi : Nat) : State :=
  { s with mem := Memory.zero s.mem lo hi
           poison := s.poison.filter (fun p => decide (p < lo) || decide (hi ≤ p))
           full := s.full.filter (fun e => decide (e.1 * 8 + 8 ≤ lo) || decide (hi ≤ e.1 * 8))
           zeroed := if isSram lo then s.zeroed else
             (lo / 8, hi / 8, [0, 1]) :: s.zeroed.filter (fun z =>
               !(decide (lo / 8 ≤ z.1) && decide (z.2.1 ≤ hi / 8))) }

/-! ## Copies (R222 to R225, log 7) -/

def dieLevel (d : Nat) : Nat := 256 + d
/-- The word as memory holds it while a cache holds a newer one (R60). -/
def hostLevel : Nat := 258

def State.copyAt (s : State) (lvl w : Nat) : Option Copy :=
  s.copies.find? (fun c => c.level == lvl && c.addr == w)

def State.dropCopy (s : State) (lvl w : Nat) : State :=
  { s with copies := s.copies.filter (fun c => !(c.level == lvl && c.addr == w)) }

/-- The value of the word at `w` that die `d`'s home serves; the present one for another `d`. -/
def State.dieWord (s : State) (d w : Nat) : W64 :=
  match s.copyAt (dieLevel d) w with
  | some c => c.val
  | none => BitVec.ofNat 64 (s.readHome w 8)

/-- The value of the word that a plain load of cluster `m` reads. -/
def State.l1Word (s : State) (m w : Nat) : W64 :=
  match s.copyAt m w with
  | some c => c.val
  | none => s.dieWord (clusterDie m) w

/-- The 8-byte words that `n` bytes at `a` touch. -/
def wordsOf (a n : Nat) : List Nat :=
  (List.range ((a % 8 + n + 7) / 8)).map (fun i => 8 * (a / 8 + i))

/-! ### The L2 slices (R98, R99, R224, R225) -/

/-- Bytes of a grain unit: 32, 128 or 512; a host-coherent page's of 32 counts as 128 (R60). -/
def grainBytes (grain : Nat) (hc : Bool) : Nat :=
  match grain with | 0 => if hc then 128 else 32 | 1 => 128 | _ => 512

/-- Sectors of its block that the grain unit at home address `a` takes. -/
def unitSectors (grain : Nat) (hc : Bool) (a : Nat) : BitVec 16 :=
  let g := grainBytes grain hc
  BitVec.ofNat 16 ((2 ^ (g / 32) - 1) * 2 ^ (a % 512 / g * (g / 32)))

/-- The clusters whose slices a partition's hash covers: those it owns, from REHASH on those of the
resize, unless it leaves none (R98). -/
def State.hashOver (s : State) (q : Nat) : List Nat :=
  let own := (s.cluOwn.filter (fun e => e.2.heldBy q)).map (·.1)
  match s.resize with
  | some z => if z.prt = q ∧ 5 ≤ z.step ∧ z.clu ≠ 0 then (List.range 256).filter (fun m => z.clu.getLsbD m) else own
  | none => own

/-- The slice for a block on die `d`: of the partition's slices there, or of all of them where it has
none there (R224). -/
def State.sliceOf (s : State) (q d blk : Nat) : Nat :=
  let all := s.hashOver q
  let here := all.filter (fun m => clusterDie m == d)
  let set := if here.isEmpty then all else here
  set.getD (Config.l2Hash set.length blk % set.length) 0

/-- A matrix tile of the die has pinned the block (R208). -/
def State.pinned (s : State) (d blk : Nat) : Bool :=
  s.clusters.any (fun e => clusterDie e.1 == d && e.2.pins.contains blk)

/-- The block leaves its slice: what it alone held is written back; a word registered in an L1 is not
(R223). -/
def State.evictBlock (s : State) (x : Block) : State :=
  { s with
    l2 := s.l2.filter (fun y => decide (y ≠ x))
    copies := s.copies.filter (fun c =>
      !(c.addr / 512 == x.blk && (c.level == dieLevel x.die ||
        (c.level == hostLevel && !s.copies.any (fun y => y.addr == c.addr && y.reg))))) }

/-- Makes room in the block's set of a slice (256 sets of 16 ways): an unpinned block, by a free
choice, is evicted (R224, log 7). -/
def State.makeRoom (s : State) (slice blk : Nat) : State :=
  let set := s.l2.filter (fun y => y.slice == slice && y.blk % 256 == blk % 256 && y.blk != blk)
  let old := set.filter (fun y => !s.pinned y.die y.blk)
  match old with
  | [] => s
  | x :: _ =>
    if set.length < 16 then s
    else
      let (ch, s) := s.choice
      s.evictBlock (old.getD (ch % old.length) x)

/-- The block at die `d`'s home, found first in its slice by the present hash, then in its old slice,
from where it moves unless it is pinned (R98, R99); LINES counts the moves (R110). -/
def State.findBlock (s : State) (d blk : Nat) : State :=
  match s.l2.find? (fun y => y.die == d && y.blk == blk) with
  | none => s
  | some x =>
    let sl := s.sliceOf x.prt d blk
    if x.slice = sl ∨ s.pinned d blk then s
    else
      let s := s.makeRoom sl blk
      { s with
        l2 := s.l2.map (fun y => if y = x then { x with slice := sl } else y)
        l2used := if s.l2used.contains sl then s.l2used else s.l2used ++ [sl]
        resize := s.resize.map (fun z => if z.prt = x.prt then { z with moved := z.moved + 1 } else z) }

/-- Die `d`'s home takes the grain unit at home address `a`, SHARED or EXCLUSIVE; the other die's home
keeps it SHARED or loses it (R225). -/
def State.takeUnit (s : State) (d q grain : Nat) (hc ex : Bool) (a : Nat) : State :=
  let blk := a / 512
  let u := unitSectors grain hc a
  let s := s.findBlock d blk
  let s :=
    if s.l2.any (fun y => y.die == d && y.blk == blk) then s
    else
      let sl := s.sliceOf q d blk
      let s := s.makeRoom sl blk
      { s with l2 := s.l2 ++ [⟨d, blk, sl, q, grain, hc, 0, 0⟩]
               l2used := if s.l2used.contains sl then s.l2used else s.l2used ++ [sl] }
  { s with
    l2 := s.l2.map (fun y =>
      if y.blk ≠ blk then y
      else if y.die = d then { y with valid := y.valid ||| u, excl := if ex then y.excl ||| u else y.excl }
      else { y with valid := if ex then y.valid &&& ~~~u else y.valid, excl := y.excl &&& ~~~u })
    copies := if ex then
        s.copies.filter (fun c => !(decide (256 ≤ c.level) && c.level != hostLevel &&
          c.level != dieLevel d && c.addr / 512 == blk && u.getLsbD (c.addr % 512 / 32)))
      else s.copies
    hif := if ex && hc then
        let g := grainBytes grain hc
        { s.hif with lines := s.hif.lines.filter (fun l => l * 64 / g != a / g) }
      else s.hif }

/-! ### The L1 (R222, R223) -/

/-- A copy of the word at `w` of a part, at a level. -/
def Part.copy (p : Part) (lvl w : Nat) (v : W64) (own : Bool) : Copy :=
  { level := lvl, addr := w, val := v, reg := own, dirty := own
    set := (p.dpa / 8 * 8 + (w - p.pa / 8 * 8)) / 128 % 128, prt := p.prt, grain := p.grain, hc := p.hc }

/-- A word of the L1s of die `d` is written back: the home holds its grain unit EXCLUSIVE (R225). -/
def State.wroteBack (s : State) (d : Nat) (c : Copy) : State := s.takeUnit d c.prt c.grain c.hc true c.addr

/-- A line of the L1 of cluster `m` goes: dirty words are written back to the home, which then holds
their grain unit EXCLUSIVE, and are deregistered (R223). -/
def State.evictLine (s : State) (m line : Nat) : State :=
  let gone := s.copies.filter (fun c => c.level == m && c.addr / 128 == line)
  let s := { s with copies := s.copies.filter (fun c => !(c.level == m && c.addr / 128 == line)) }
  (gone.filter (·.dirty)).foldl (fun s c => s.wroteBack (clusterDie m) c) s

/-- Room for a word of a part in its set: 128 sets of 4 lines by bits [13:7] of the physical address (R222). -/
def State.l1Room (s : State) (m : Nat) (p : Part) (w : Nat) : State :=
  let ls := ((s.copies.filter (fun c => c.level == m && c.set == (p.copy m w 0 false).set)).map
    (fun c => c.addr / 128)).eraseDups
  if ls.contains (w / 128) ∨ ls.length < 4 then s
  else
    let (ch, s) := s.choice
    s.evictLine m (ls.getD (ch % ls.length) 0)

/-- A load of part `p` leaves copies of the word in the L1 and at the die's home. -/
def State.keepCopies (s : State) (m : Nat) (p : Part) (w : Nat) : State :=
  let d := clusterDie m
  if (s.copyAt m w).isSome then s
  else
    let s := (s.takeUnit d p.prt p.grain p.hc false w).l1Room m p w
    let v := s.dieWord d w
    { s with copies :=
        (if (s.copyAt (dieLevel d) w).isSome then s.copies
         else s.copies ++ [p.copy (dieLevel d) w v false]) ++ [p.copy m w v false] }

/-- A write of the word at die `d`'s home, other than through an L1: the home holds the unit EXCLUSIVE;
registered copies go, and so do the home's own; plain copies stay. -/
def State.homeWrote (s : State) (d : Nat) (p : Part) (w : Nat) : State :=
  let s := s.takeUnit d p.prt p.grain p.hc true w
  { s with copies := s.copies.filter (fun c =>
      !(c.addr == w && (c.reg || c.level == dieLevel d))) }

/-- A store through the L1 of cluster `m`: the registration moves to it, and the home's copy goes. -/
def State.l1Wrote (s : State) (m : Nat) (p : Part) (w : Nat) : State :=
  let d := clusterDie m
  let s := (s.takeUnit d p.prt p.grain p.hc false w).l1Room m p w
  { s with copies := (s.copies.filter (fun c =>
      !(c.addr == w && (c.reg || c.level == dieLevel d || c.level == m)))) ++
        [p.copy m w (BitVec.ofNat 64 (s.readHome w 8)) true] }

/-- Before a cached write: memory itself may keep the old value of a word that the host may read without
the caches (R60). -/
def State.behind (s : State) (p : Part) : State :=
  if p.cached && !p.hc && (isHbm p.pa || (decide (ddrWin ≤ p.pa) && decide (p.pa < poolWin))) then
    (wordsOf p.pa p.n).foldl (fun s w =>
      if (s.copyAt hostLevel w).isSome then s
      else { s with copies := s.copies ++ [p.copy hostLevel w (BitVec.ofNat 64 (s.readHome w 8)) false] }) s
  else s

/-- Before a store through an L1 of die `d`: the other die keeps the value it would have read, until the
store is written back (R231). -/
def State.behindDie (s : State) (d : Nat) (p : Part) : State :=
  if p.cached then
    (wordsOf p.pa p.n).foldl (fun s w =>
      if (s.copyAt (dieLevel (1 - d)) w).isSome then s
      else { s with copies := s.copies ++ [p.copy (dieLevel (1 - d)) w (s.dieWord (1 - d) w) false] }) s
  else s

/-- An acquire of DIE scope or wider by a thread of cluster `m` (R223). -/
def State.acquireAt (s : State) (m scope : Nat) : State :=
  if 3 ≤ scope then
    { s with copies := s.copies.filter (fun c => !(c.level == m && !c.reg)) }
  else s

/-- A release of PACKAGE scope or wider by a thread of die `d` (R231, R233): the die's dirty words are
written back, and the other die's home reads the present value; one of SYSTEM scope reaches memory
(R239). -/
def State.releaseAt (s : State) (d scope : Nat) : State :=
  if 4 ≤ scope then
    let s := (s.copies.filter (fun c => decide (c.level < 256) && clusterDie c.level == d && c.dirty)).foldl
      (fun s c => s.wroteBack d c) s
    { s with copies := (s.copies.filter (fun c =>
        c.level != dieLevel (1 - d) && (c.level != hostLevel || decide (scope < 5)))).map (fun c =>
          if c.level < 256 ∧ clusterDie c.level = d then { c with dirty := false } else c) }
  else s

/-- Writes back and drops every copy and block of the range (R97, R252). -/
def State.flushRange (s : State) (lo hi : Nat) : State :=
  { s with
    copies := s.copies.filter (fun c => decide (c.addr + 8 ≤ lo) || decide (hi ≤ c.addr))
    l2 := s.l2.filter (fun y => decide (y.blk * 512 + 512 ≤ lo) || decide (hi ≤ y.blk * 512)) }

/-- A write by the device itself, visible to every agent but a reader of a plain L1 copy: no die's home
keeps a sector of it. -/
def State.deviceWrite (s : State) (a : Nat) (l : List Byte) : State :=
  let s := s.writeBytes a l
  { s with copies := s.copies.filter (fun c =>
      !(decide (a ≤ c.addr + 7) && decide (c.addr < a + l.length) &&
        (c.reg || decide (256 ≤ c.level)))) }

/-- `n` bytes at `a` as cluster `m` reads them: through its L1 when `l1`, else at its die's home. -/
def State.readWords (s : State) (m : Nat) (l1 : Bool) (a n : Nat) : Nat :=
  let ws := wordsOf a n
  let vals := ws.map (fun w => (if l1 then s.l1Word m w else s.dieWord (clusterDie m) w).toNat)
  ofLanes 64 vals / 256 ^ (a % 8) % 256 ^ n

end Sys2Proof.Machine
end

