-- ==== Sys2Proof/Machine/Addr.lean ====
section
/-!
DEFINITION. Addresses: the pool partition word (07 R196), partition windows and their homes
(04 R81 to R84, R97; 09 R252), SRAM windows (08 R218), the local window (R219), page tables
(09 R241 to R244), the TLB (R245), and the translation of a thread's or another agent's access
(12 R331, 08 R240).
-/

namespace Sys2Proof.Machine

open Sys2Proof

/-! ## The pool partition word (R196) -/

structure PoolWord where
  valid   : Bool
  drslots : Nat
  slots   : Nat
  acckb   : Nat
  scrkb   : Nat
  base    : Nat
  deriving DecidableEq, Repr

def poolWord (w : W64) : PoolWord :=
  { valid := bitAt w 43, drslots := fld w 42 41, slots := fld w 40 36, acckb := fld w 35 27
    scrkb := fld w 26 18, base := fld w 8 0 }

/-- RSIZE of R195, in KiB. -/
def PoolWord.rsize (p : PoolWord) : Nat := (3 * p.slots + 1) / 2
def PoolWord.scr (p : PoolWord) : Nat := 1024 * (p.base + p.rsize)
def PoolWord.acc (p : PoolWord) : Nat := 1024 * (p.base + p.rsize + p.scrkb)
def PoolWord.stop (p : PoolWord) : Nat := 1024 * (p.base + p.rsize + p.scrkb + p.acckb)

def Core.poolpw (c : Core) (x : Nat) : W64 := if x = 0 then c.poolpw0 else c.poolpw1
/-- The partition word of context slot `x` of core `c`; an invalid word gives no carve-out. -/
def State.pw (s : State) (c x : Nat) : PoolWord :=
  let p := poolWord ((s.core c).poolpw x)
  if p.valid then p else { p with slots := 0, acckb := 0, scrkb := 0, drslots := 0 }

/-! ## Relocation (R83) -/

def regionX (w : W32) : Nat := fld w 23 23 * 368 + fld w 22 14

/-- R83: the entry covers the word. -/
def Reloc.covers (e : Reloc) (w : W32) : Bool :=
  e.valid && e.live &&
    (if e.core then w.toNat / 128 == e.old.toNat / 128
     else
       let x := regionX w
       let x0 := regionX e.old
       let y := fld w 13 7
       let y0 := fld e.old 13 7
       decide (x0 ≤ x) && decide (x < x0 + e.width) && decide (y0 ≤ y) && decide (y ≤ y0 + e.height1))

/-- The same offset in the entry's new rectangle. -/
def Reloc.move (e : Reloc) (w : W32) : W32 :=
  let x := regionX e.new + regionX w - regionX e.old
  let y := fld e.new 13 7 + fld w 13 7 - fld e.old 13 7
  siteWord (sitePkg w) (x / 368) (x % 368) y (fld w 6 0)

/-- The CORE entry of a departed core. -/
def State.relocOf (s : State) (q : Nat) (w : W32) : Option Reloc :=
  ((s.prt q).reloc.map (·.2)).find? (fun e => e.core && e.covers w)

/-- The entry that translates a word: the earliest made of those that cover it. Every live entry leads
to the present place (R83), so none is applied after it. -/
def relocBy (es : List Reloc) (w : W32) : Option Reloc :=
  (es.filter (fun e => e.covers w)).foldl (fun (b : Option Reloc) e =>
    match b with
    | none => some e
    | some x => if e.seq < x.seq then some e else some x) none

/-- R83: a SITE word of this package after relocation. -/
def State.relocate (s : State) (q : Nat) (w : W32) : W32 :=
  if sitePkg w = s.pkg then
    match relocBy ((s.prt q).reloc.map (·.2)) w with
    | some e => e.move w
    | none => w
  else w

/-! ## Homes of partition addresses -/

/-- Where an access of the partition is performed. -/
inductive Home where
  | at (a : Nat)
  | access
  | revoked
  deriving DecidableEq, Repr

def prtHbmEnd : Nat := 0x9000000000
def prtDdrWin : Nat := 0x10000000000
def prtDdrEnd : Nat := 0x30000000000

/-- Bytes of HBM4 of a group list (R81) and of a quota (R82). -/
def hbmBytes (groups : List Nat) : Nat := groups.length * 0x180000000
def Prt.hbmCap (p : Prt) : Nat := hbmBytes p.groups
def Prt.ddrCap (p : Prt) : Nat := p.ddrUnits.length * 0x40000000

/-- R81: the home of partition HBM4 offset `a` under a group list. -/
def hbmHome (groups : List Nat) (a : Nat) : Nat :=
  let p := a / 4096
  let g := groups.getD (p % groups.length) 0
  hbmWin + hbmGroup * g + p / groups.length * 4096 + a % 4096

/-- R97: the sweep of the running resize, when it re-interleaves this partition. -/
def State.sweepOf (s : State) (q : Nat) : Option Resize :=
  match s.resize with
  | some r => if r.prt = q ∧ 4 ≤ r.step ∧ r.groups ≠ (s.prt q).groups then some r else none
  | none => none

/-- The group list in force for a page of the partition (R97). -/
def State.groupsAt (s : State) (q page : Nat) : List Nat :=
  let old := (s.prt q).groups
  match s.sweepOf q with
  | none => old
  | some r => if r.grow then (if page < r.w then r.groups else old)
    else (if r.w ≤ page then r.groups else old)

/-- R252: an open redirect sends an access below its watermark to the destination. -/
def redirect (migs : Tbl Mig) (pa : Nat) : Nat :=
  match (migs.map (·.2)).find? (fun m => m.run && decide (m.src ≤ pa) &&
      decide (pa < m.src + m.w) && decide (m.w ≤ m.size)) with
  | some m => m.rdst + (pa - m.src)
  | none => pa

/-- The home of one byte of partition memory, redirects apart. -/
def State.prtHome (s : State) (q pa : Nat) : Option Nat :=
  let p := s.prt q
  if pa < p.hbmCap then
    let gs := s.groupsAt q (pa / 4096)
    if pa < hbmBytes gs then some (hbmHome gs pa) else none
  else if prtDdrWin ≤ pa ∧ pa < prtDdrWin + p.ddrCap then
    let d := pa - prtDdrWin
    some (ddrWin + p.ddrUnits.getD (d / 0x40000000) 0 * 0x40000000 + d % 0x40000000)
  else none

/-- The home of one byte of partition memory, or none beyond its capacity (R217). -/
def State.memHome (s : State) (q pa : Nat) : Option Nat := s.prtHome q (redirect (s.prt q).mig pa)

/-- R252: where an access by home address goes, the host's: below the watermark of an open redirect, to the
destination. -/
def State.redirectHome (s : State) (a : Nat) : Nat :=
  (s.prts.findSome? (fun e => e.2.mig.findSome? (fun g =>
    let m := g.2
    if !m.run then none
    else (List.range (m.size / 4096)).findSome? (fun k =>
      match s.prtHome e.1 (m.src + 4096 * k) with
      | some h =>
        if h ≤ a ∧ a < h + 4096 ∧ 4096 * k + (a - h) < m.w then s.prtHome e.1 (m.rdst + 4096 * k + (a - h)) else none
      | none => none)))).getD a

/-- The address lies in the partition's memory windows, below their limits (R217). -/
def State.inPrtMem (s : State) (q pa n : Nat) : Bool :=
  let p := s.prt q
  decide (pa + n ≤ p.hbmCap) ||
    (decide (prtDdrWin ≤ pa) && decide (pa + n ≤ prtDdrWin + p.ddrCap))

/-- Drained units of the partition (R84): kind 1 a core's pool, 2 a place of a 1 GiB unit in partition
DDR-5 memory, 3 a fabric block, 4 a page of partition HBM4 memory and all after it. -/
def Prt.isDrained (p : Prt) (kind i : Nat) : Bool := p.drained.contains (kind, i)

/-- The partition address lies in memory that departs and has passed its drain point (R84, R89). -/
def Prt.memDrained (p : Prt) (pa : Nat) : Bool :=
  if prtDdrWin ≤ pa then p.isDrained 2 ((pa - prtDdrWin) / 0x40000000)
  else p.drained.any (fun e => e.1 == 4 && decide (e.2 ≤ pa / 4096))

/-- R218, R84: `n` bytes of a pool address of partition `q`. -/
def State.poolHome (s : State) (q pa n : Nat) : Home :=
  let c := (pa - poolWin) / 0x40000
  let off := (pa - poolWin) % 0x40000
  match s.relocOf q (coreSite s.pkg c) with
  | some e =>
    match siteName e.new with
    | .slot t =>
      if e.spans.any (fun p => decide (p.2.1 ≤ off) && decide (off + n ≤ p.2.2)) then
        .at (poolBase (t / 16) + off + e.poolOff)
      else if (s.prt q).isDrained 1 c then .revoked
      else .access
    | _ => .access
  | none =>
    if s.ownsCluster q (c / 8) &&
        [0, 1].any (fun x =>
          let w := s.pw c x
          w.valid && decide (w.scr ≤ off) && decide (off + n ≤ w.stop)) then .at pa
    else if (s.prt q).isDrained 1 c then .revoked
    else .access

/-- R84, R90: a site of a departing block past its drain point: no loaded region of the partition that has
still to move holds it. -/
def State.siteDrained (s : State) (q site : Nat) : Bool :=
  (s.prt q).isDrained 3 (blockNo (siteDie site) (siteRow site / 16) (siteCol site / 22)) &&
    !s.regions.any (fun e => e.1 / 4096 == q && e.2.loaded && decide (e.2.ctx < 2) &&
      decide (e.2.x ≤ siteX site) && decide (siteX site < e.2.x + e.2.w) &&
      decide (e.2.y ≤ siteRow site) && decide (siteRow site < e.2.y + e.2.h))

/-- The tile site of a memory-tile window address (R216). -/
def tileOfAddr (pa : Nat) : Nat :=
  let i := (pa - tileWin) / 0x10000
  tileSite (i / 16) (i % 16)

/-- R218, R84: `n` bytes of a memory-tile address of partition `q`. -/
def State.tileHome (s : State) (q pa n : Nat) : Home :=
  let site := tileOfAddr pa
  let off := (pa - tileWin) % 0x10000
  if 0x10000 < off + n then .access
  else
    let w := fabSite s.pkg site 0
    let w' := s.relocate q w
    if w' ≠ w then
      match siteName w' with
      | .fabric site' _ => .at (tileAddr site' + off)
      | _ => .access
    else
      let b := blockNo (siteDie site) (siteRow site / 16) (siteCol site / 22)
      if s.siteDrained q site then .revoked
      else if s.ownsBlock q b then .at pa
      else .access

/-- R216: the home of `n` bytes at device physical address `pa`, for an agent of partition `q`. -/
def State.homeOf (s : State) (q pa n : Nat) : Home :=
  if isPool pa then s.poolHome q pa n
  else if isTile pa then s.tileHome q pa n
  else if isHost pa then (if Config.cxlCache ∧ pa + n ≤ 0x10000000000000 then .at pa else .access)
  else if s.inPrtMem q pa n then
    if (s.prt q).memDrained pa then .revoked
    else
      match s.memHome q pa with
      | some a => .at a
      | none => .access
  else .access

/-- R84: a SITE word of this package names a fabric site, or an engine, past its drain point that no entry of
the relocation table covers. Every departed core has an entry (R95). -/
def State.siteRevoked (s : State) (q : Nat) (w : W32) : Bool :=
  let p := s.prt q
  sitePkg w == s.pkg && (relocBy (p.reloc.map (·.2)) w).isNone &&
    (match siteName w with
     | .fabric site _ => s.siteDrained q site
     | .engine m _ => (List.range 8).any (fun c => p.isDrained 1 (8 * m + c))
     | _ => false)

/-! ## Page tables (R241 to R243) -/

structure Leaf where
  addr : Nat
  /-- 0 4 KiB, 1 64 KiB, 2 2 MiB, 3 1 GiB. -/
  size : Nat
  attr : BitVec 12
  deriving DecidableEq, Repr

def pageBits (size : Nat) : Nat :=
  match size with | 0 => 12 | 1 => 16 | 2 => 21 | _ => 30

def Leaf.read (l : Leaf) : Bool := bitAt l.attr 2
def Leaf.write (l : Leaf) : Bool := bitAt l.attr 3
def Leaf.exec (l : Leaf) : Bool := bitAt l.attr 4
def Leaf.user (l : Leaf) : Bool := bitAt l.attr 5
def Leaf.cached (l : Leaf) : Bool := bitAt l.attr 7
def Leaf.grain (l : Leaf) : Nat := fld l.attr 9 8
def Leaf.fe (l : Leaf) : Bool := bitAt l.attr 10
def Leaf.hc (l : Leaf) : Bool := bitAt l.attr 11

/-- Device physical address of `va` under a leaf. -/
def Leaf.pa (l : Leaf) (va : Nat) : Nat := l.addr + va % 2 ^ pageBits l.size

inductive WalkRes where
  | leaf (l : Leaf)
  /-- The home address of the entry and its word, beside the leaf's fault. -/
  | fault (badpte : Bool)
  deriving DecidableEq, Repr

/-- Bits [11:0] of ADDR: the ADDR field of an entry as an address. -/
def pteAddr (e : Nat) : Nat := e / 4096 % 2 ^ 40 * 4096

/-- Low index bit of a table of level `l` (R241). -/
def levelShift (l : Nat) : Nat := 12 + 9 * l

/-- R242, R243: an entry with V set that is no legal leaf. -/
def badLeaf (lvl e : Nat) : Bool :=
  decide (nfld e 63 53 ≠ 0) || nbit e 6 || nfld e 9 8 == 3 || decide (3 ≤ lvl) ||
  (nbit e 52 && decide (lvl ≠ 0)) ||
  decide (pteAddr e % 2 ^ (if lvl = 0 then (if nbit e 52 then 16 else 12) else levelShift lvl) ≠ 0)

/-- R243: an entry with V set that is no legal table pointer. -/
def badTable (s : State) (q lvl e : Nat) : Bool :=
  lvl == 0 || decide (nfld e 63 52 ≠ 0) || decide (nfld e 11 1 ≠ 0) ||
  !s.inPrtMem q (pteAddr e) 4096

def leafSize (lvl e : Nat) : Nat :=
  match lvl with | 0 => if nbit e 52 then 1 else 0 | 1 => 2 | _ => 3

/-- An entry as the home of die `d` serves it (R246); as memory holds it for an agent of no die. -/
def State.readPte (s : State) (d q a : Nat) : Nat :=
  match s.memHome q a with
  | some h => (s.dieWord d h).toNat
  | none => 0

/-- The level-0 entry a 64 KiB page translates by: `ch` picks one of the 16 (R243). -/
def pick64 (s : State) (d q table va ch e : Nat) : Nat :=
  if nbit e 0 && nbit e 52 then
    let i := va / 4096 % 512
    let e' := s.readPte d q (table + 8 * (i / 16 * 16 + (i + ch) % 16))
    if nbit e' 0 && nbit e' 1 && nbit e' 52 then e' else e
  else e

/-- R241: the walk from a table of level `lvl`. -/
def State.walkFrom (s : State) (d q va ch : Nat) : Nat → Nat → WalkRes
  | lvl, table =>
    let idx := va / 2 ^ levelShift lvl % (if lvl = 4 then 256 else 512)
    let e0 := s.readPte d q (table + 8 * idx)
    let e := if lvl = 0 then pick64 s d q table va ch e0 else e0
    if !nbit e 0 then .fault false
    else if nbit e 1 then
      if badLeaf lvl e then .fault true
      else .leaf ⟨pteAddr e, leafSize lvl e, BitVec.ofNat 12 e⟩
    else if badTable s q lvl e then .fault true
    else
      match lvl with
      | 0 => .fault true
      | l + 1 => s.walkFrom d q va ch l (pteAddr e)

/-- R241: the walk of a virtual address from ROOT, which itself must lie in partition memory. -/
def State.walk (s : State) (d q root va ch : Nat) : WalkRes :=
  if s.inPrtMem q root 2048 then s.walkFrom d q (va % 2 ^ 56) ch 4 root else .fault true

/-- The address of the level-0 entry of a page, for the migration engine (R252 step 4). -/
def State.leafAddr (s : State) (d q va : Nat) : Nat → Nat → Option Nat
  | 0, table => some (table + 8 * (va / 4096 % 512))
  | l + 1, table =>
    let e := s.readPte d q (table + 8 * (va / 2 ^ levelShift (l + 1) % (if l = 3 then 256 else 512)))
    if nbit e 0 && !nbit e 1 then s.leafAddr d q va l (pteAddr e) else none

/-- R241: bits [63:56] equal bit 55. -/
def canonical (va : Nat) : Bool := va / 2 ^ 55 == 0 || va / 2 ^ 55 == 511

/-! ## Kinds of access and their checks (R244) -/

structure AccKind where
  rd : Bool := false
  wr : Bool := false
  ex : Bool := false
  /-- A full-empty instruction: the page needs effective tracking (R227). -/
  fe : Bool := false
  /-- An atomic: refused on a banked-uncached host page (R344). -/
  atomic : Bool := false
  /-- A counter word: refused on any uncached page but SRAM (R378). -/
  counter : Bool := false
  /-- A record or list, which is cut at pages alone. -/
  whole : Bool := false
  /-- The access of an agent that is no thread: R240's page-crossing ALIGN does not apply. -/
  agent : Bool := false
  /-- The access returns no data, so an uncorrectable error is not met (R254). -/
  noData : Bool := false
  /-- ILOCK: EXEC is checked and USER is not (R203). -/
  noUser : Bool := false
  deriving DecidableEq, Repr

namespace AccKind
def load : AccKind := { rd := true }
def store : AccKind := { wr := true }
def fetch : AccKind := { ex := true }
def both : AccKind := { rd := true, wr := true, atomic := true }
def record : AccKind := { rd := true, whole := true }
/-- DETAIL bits FETCH and WRITE (R258). -/
def detail (k : AccKind) : Nat := b2n k.ex + 2 * b2n k.wr
end AccKind

/-- R244. -/
def permitted (k : AccKind) (user : Bool) (l : Leaf) : Bool :=
  (!k.rd || l.read) && (!k.wr || l.write) && (!k.ex || l.exec) &&
    (if k.noUser then true
     else if user then l.user
     else !(k.ex && l.user))

/-- What translating one page's part of an access gives. -/
inductive PieceRes where
  | ok (p : Part) (tracked : Bool)
  | fault (cause detail : Nat) (tval : Nat)
  | miss (va : Nat)
  deriving DecidableEq, Repr

/-- Trap causes of R254. -/
def cILL : Nat := 1
def cPRIV : Nat := 2
def cALIGN : Nat := 3
def cPAGE : Nat := 4
def cACCESS : Nat := 5
def cBREAK : Nat := 6
def cSUBNORM : Nat := 7
def cREVOKED : Nat := 8
def cSTALE : Nat := 9
def cTICKET : Nat := 10
def cQOVF : Nat := 11
def cSVC : Nat := 12
def cMEMERR : Nat := 13

/-- R227, R244, R217, R218, R84: the checks of a translated part. -/
def State.checkPart (s : State) (q : Nat) (user : Bool) (k : AccKind) (l : Leaf) (va n det : Nat) :
    PieceRes :=
  let pa := l.pa va
  match s.homeOf q pa n with
  -- A refused fetch ranks before REVOKED (R255).
  | .revoked => if k.ex && !permitted k user l then .fault cACCESS det va else .fault cREVOKED 0 va
  | .access => .fault cACCESS det va
  | .at h =>
    let sram := isSram h
    let cached := l.cached && !sram
    let tracked := sram || (cached && l.fe)
    if !permitted k user l then .fault cACCESS det va
    else if k.fe && !tracked then .fault cACCESS det va
    else if k.atomic && isHost h && !cached then .fault cACCESS det va
    else if k.counter && !sram && !cached then .fault cACCESS det va
    else .ok ⟨h, n, cached, l.grain, l.hc, q, pa⟩ tracked

def localWin : Nat := 0xFFFFFFFFFFF00000
def localAcc : Nat := 0xFFFFFFFFFFF80000

/-- The local window of context slot `x` of core `c` (R219). -/
def State.win (s : State) (c x : Nat) : Win :=
  let w := s.pw c x
  ⟨poolBase c + w.scr, 1024 * w.scrkb, poolBase c + w.acc, 1024 * w.acckb⟩

/-- R219: an address of the local window of a thread on core `c` in context slot `x`; a thread moved
by a resize keeps the bytes it had (R95, R100, log 26). -/
def State.localPart (s : State) (c x : Nat) (lw : Option Win) (va n det : Nat) : PieceRes :=
  let w := lw.getD (s.win c x)
  if va < localAcc then
    let o := va - localWin
    if o + n ≤ w.scrn then .ok ⟨w.scr + o, n, false, 0, false, 0, w.scr + o⟩ true
    else .fault cACCESS det va
  else
    let o := va - localAcc
    if o + n ≤ w.accn then .ok ⟨w.acc + o, n, false, 0, false, 0, w.acc + o⟩ true
    else .fault cACCESS det va

/-! ## The TLB (R245) -/

def TlbEntry.hits (e : TlbEntry) (slot : Nat) (asid : W16) (va : Nat) : Bool :=
  e.slot == slot && e.asid == asid && e.vpage == va % 2 ^ 56 / 2 ^ pageBits e.size

def TlbEntry.leaf (e : TlbEntry) : Leaf := ⟨e.ppage * 2 ^ pageBits e.size, e.size, e.attr⟩

def Core.tlbFind (c : Core) (slot : Nat) (asid : W16) (va : Nat) : Option TlbEntry :=
  c.tlb.find? (fun e => e.hits slot asid va)

/-- The list of a TLB is kept most recently used first. -/
def Core.tlbTouch (c : Core) (slot : Nat) (asid : W16) (va : Nat) : Core :=
  match c.tlbFind slot asid va with
  | some e => { c with tlb := e :: c.tlb.filter (fun x => decide (x ≠ e)) }
  | none => c

/-- A fill replaces the least recently used of 16 entries. -/
def Core.tlbFill (c : Core) (e : TlbEntry) : Core :=
  { c with tlb := (e :: c.tlb.filter (fun x =>
      !(x.slot == e.slot && x.asid == e.asid && x.size == e.size && x.vpage == e.vpage))).take 16 }

/-! ## Translation of a thread's access (R331) -/

/-- The translation of a thread's address: of its TLB, else one that a walk has brought its present
instruction (R192, R245). -/
def State.entryAt (s : State) (t va : Nat) : Option TlbEntry :=
  let th := s.thread t
  match (s.core (t / 16)).tlbFind (t % 16) th.asid va with
  | some e => some e
  | none => th.fills.find? (fun e => e.hits (t % 16) th.asid va)

/-- One page's part of a thread's access, through its TLB. -/
def State.piece (s : State) (t : Nat) (k : AccKind) (det va n : Nat) : PieceRes :=
  let th := s.thread t
  if localWin ≤ va then
    -- A fetch needs EXEC of a leaf, and the window has none (R244, log 15).
    if k.ex then .fault cACCESS det va else s.localPart (t / 16) th.ctx th.lw va n det
  else if !canonical va then .fault cACCESS det va
  else
    match s.entryAt t va with
    | some e => s.checkPart th.prt (!th.sup) k e.leaf va n det
    | none =>
      match th.wfault.find? (fun f => f.1 == va % 2 ^ 56 / 4096) with
      | some f => .fault cPAGE (det + 4 * b2n f.2) va
      | none => .miss va

/-- The pieces of `n` bytes at `va`, split at multiples of `g`; addresses wrap at 2^64. -/
def pieces (g : Nat) : Nat → Nat → Nat → List (Nat × Nat)
  | 0, _, _ => []
  | f + 1, va, n =>
    if n = 0 then []
    else
      let k := Nat.min n (g - va % g)
      (va, k) :: pieces g f ((va + k) % 2 ^ 64) (n - k)

/-- The pieces by page. -/
def piecesOf (va n : Nat) : List (Nat × Nat) := pieces 4096 (n / 4096 + 2) va n

/-- Where an access is cut: at 64-byte granules while a page of the partition moves between tiers
(R252), at pages when it is read whole, else at aligned 128-byte lines (R240). -/
def State.cutAt (s : State) (q : Nat) (whole : Bool) : Nat :=
  if (s.prt q).mig.any (fun e => e.2.run) then 64 else if whole then 4096 else 128

/-- The pieces of an access that is not cut at lines. -/
def State.piecesFor (s : State) (q va n : Nat) : List (Nat × Nat) :=
  let g := s.cutAt q true
  pieces g (n / g + 2) va n

/-- What translating a whole access gives. -/
inductive Look where
  | ok (ps : List Part)
  /-- The second of two accesses that a line crossing within a page makes faults: the first is
  performed (R240). -/
  | half (p : Part) (cause detail : Nat) (tval : W64)
  | fault (cause detail : Nat) (tval : W64)
  | miss (va : Nat)
  deriving DecidableEq, Repr

def rank (cause : Nat) : Nat :=
  if cause = cREVOKED then 0 else if cause = cPAGE then 1 else 2

/-- The fault R255 ranks first, the lower address first within a rank. -/
def firstFault : List PieceRes → Option (Nat × Nat × Nat)
  | [] => none
  | .fault c d v :: r =>
    match firstFault r with
    | some (c', d', v') => if rank c' < rank c then some (c', d', v') else some (c, d, v)
    | none => some (c, d, v)
  | _ :: r => firstFault r

def firstMiss : List PieceRes → Option Nat
  | [] => none
  | .miss v :: _ => some v
  | _ :: r => firstMiss r

def partsOf : List PieceRes → List (Part × Bool)
  | [] => []
  | .ok p t :: r => (p, t) :: partsOf r
  | _ :: r => partsOf r

/-- R240: two parts differ in cache mode, coherence grain or effective tracking. -/
def mixed : List (Part × Bool) → Bool
  | (p, t) :: (p', t') :: r =>
    decide (p.cached ≠ p'.cached) || decide (p.grain ≠ p'.grain) || decide (t ≠ t') ||
      mixed ((p', t') :: r)
  | _ => false

/-- Combines the parts of an access at `va`: a miss first, then faults by R255, then the ALIGN of
R240's second row. A cut at an address that `bound` marks is a page boundary; any other is a line's. -/
def combine (k : AccKind) (va : Nat) (rs : List PieceRes) (bound : Nat → Bool := fun v => v % 4096 == 0) : Look :=
  match firstMiss rs with
  | some v => .miss v
  | none =>
    match firstFault rs with
    | some (c, d, v) =>
      match rs with
      | [.ok p _, .fault _ _ _] =>
        if !k.whole ∧ v % 128 = 0 ∧ !bound v then .half p c d (BitVec.ofNat 64 v)
        else .fault c d (BitVec.ofNat 64 v)
      | _ => .fault c d (BitVec.ofNat 64 v)
    | none =>
      let ps := partsOf rs
      if !k.agent && mixed ps then .fault cALIGN k.detail (BitVec.ofNat 64 va)
      else .ok (ps.map (·.1))

/-- SPLIT is reported for a fault of the second part (R258). -/
def pieceDetail (k : AccKind) (va : Nat) (p : Nat × Nat) : Nat :=
  k.detail + (if p.1 = va then 0 else 8)

/-- A multiple of 4 KiB at which one page of the thread ends and another begins: not inside the local window
or a larger page that translates both sides. -/
def State.pageEdge (s : State) (t v : Nat) : Bool :=
  v % 4096 == 0 &&
    (if localWin < v then false
     else
       match s.entryAt t v with
       | some e => decide (s.entryAt t ((v + (2 ^ 64 - 1)) % 2 ^ 64) ≠ some e)
       | none => true)

/-- R331 steps 1 to 3: the homes of `n` bytes at `va` for thread `t`. -/
def State.xlate (s : State) (t : Nat) (k : AccKind) (va n : Nat) : Look :=
  let g := s.cutAt (s.thread t).prt k.whole
  combine k va ((pieces g (n / g + 2) va n).map (fun p => s.piece t k (pieceDetail k va p) p.1 p.2)) (s.pageEdge t)

/-- Marks the entries an access used as most recently used (R245). -/
def State.touch (s : State) (t va n : Nat) : State :=
  let th := s.thread t
  (piecesOf va n).foldl (fun s p =>
    s.setCore (t / 16) ((s.core (t / 16)).tlbTouch (t % 16) th.asid p.1)) s

/-! ## What stopped clocks keep out of reach (R19, R20) -/

/-- The die bridge runs: its PHY is in island 17 of each die (R19). -/
def State.bridgeClock (s : State) : Bool := s.clockOn 17 && s.clockOn 37

/-- The die of a home address; host memory is reached through port A, of die 0. -/
def homeDie (a : Nat) : Nat :=
  if isPool a then clusterDie ((a - poolWin) / 0x40000 / 8)
  else if isTile a then siteDie (tileOfAddr a)
  else memDie a

/-- The island that holds the storage of a home address, for host memory that of port A (R19). -/
def homeIsland (a : Nat) : Option Nat :=
  if isPool a then some (clusterIsland ((a - poolWin) / 0x40000 / 8))
  else if isTile a then (siteBlock (tileOfAddr a)).map blockIsland
  else if isHbm a then some (groupIsland ((a - hbmWin) / hbmGroup))
  else if isDdr a then some (20 * memDie a + 16)
  else if isHost a then some 16
  else none

/-- The storage of a home address has its clock. -/
def State.homeClock (s : State) (a : Nat) : Bool :=
  match homeIsland a with
  | some n => s.clockOn n
  | none => true

/-- Dies `d` and `e` reach each other; an agent of no die reaches both. -/
def State.bridged (s : State) (d e : Nat) : Bool := d == e || decide (2 ≤ d) || s.bridgeClock

/-- An agent of die `d` reaches the home address: its storage has its clock, and so has the bridge where the
home lies on the other die. -/
def State.reaches (s : State) (d a : Nat) : Bool := s.homeClock a && s.bridged d (homeDie a)

/-- The walk of `walkFrom` reads entries at homes that die `d` reaches. -/
def State.tablesReach (s : State) (d q va : Nat) : Nat → Nat → Bool
  | lvl, table =>
    let a := table + 8 * (va / 2 ^ levelShift lvl % (if lvl = 4 then 256 else 512))
    (match s.memHome q a with | some h => s.reaches d h | none => true) &&
      (match lvl with
       | 0 => true
       | l + 1 =>
         let e := s.readPte d q a
         if nbit e 0 && !nbit e 1 then s.tablesReach d q va l (pteAddr e) else true)

/-- A walk by an agent of die `d` reaches every table it reads (R20). -/
def State.walkReaches (s : State) (d q root va : Nat) : Bool := s.tablesReach d q (va % 2 ^ 56) 4 root

/-! ## Translation by other agents -/

/-- The identity an engine, the scheduler or a fabric unit translates under. -/
structure Agent where
  prt  : Nat
  root : Nat
  user : Bool
  /-- Core and context slot whose local window the addresses may name (R219), for engine commands. -/
  loc  : Option (Nat × Nat × Option Win)
  deriving DecidableEq, Repr

/-- The die whose homes the agent's walks read: that of its core; none for an agent of no core. -/
def Agent.die (a : Agent) : Nat := match a.loc with | some (c, _, _) => clusterDie (c / 8) | none => 9

def State.agentPiece (s : State) (a : Agent) (k : AccKind) (va n : Nat) : PieceRes :=
  let det := k.detail
  match (if localWin ≤ va then a.loc else none) with
  | some (c, x, lw) => s.localPart c x lw va n det
  | none =>
    if !canonical va then .fault cACCESS det va
    else
      match s.walk a.die a.prt a.root va (Config.choice s.fresh) with
      | .fault b => .fault cPAGE (det + 4 * b2n b) va
      | .leaf l => s.checkPart a.prt a.user k l va n det

/-- The homes of `n` bytes at `va` for an agent that walks the tables itself. -/
def State.agentXlate (s : State) (a : Agent) (k : AccKind) (va n : Nat) : Look :=
  combine { k with whole := true, agent := true } va ((s.piecesFor a.prt va n).map (fun p => s.agentPiece a k p.1 p.2))

end Sys2Proof.Machine
end

