-- ==== Sys2Proof/Machine/Home.lean ====
section
/-!
DEFINITION. Accesses performed at their homes and through an L1 (08 R222 to R225), the replies they make
(07 R192, 03 R73), the waiters of a word (12 R337, 14 R378), and the reads and writes of agents that are
no thread.
-/

namespace Sys2Proof.Machine

open Sys2Proof

/-- Partition `q` runs, or, with none, every one does (R72, R75): not halted, or in a step that names it. -/
def State.prtRuns (s : State) (q : Option Nat) : Bool :=
  match s.dbg.toc with
  | .running | .halting => true
  | .halted => false
  | .stepping =>
    match q with
    | some q => bitAt s.dbg.stepMask q
    | none => false

/-! ## Registers written by replies -/

/-- Writes the destination that was resolved at issue; g0 is discarded (R198). -/
def Thread.setDest (t : Thread) (d : Dest) (x : V256) : Thread :=
  match d with
  | .none => t
  | .g n => if n = 0 then t else { t with g := t.g.put 0 n (x.setWidth 64) }
  | .h n => { t with h := t.h.put 0 n (x.setWidth 64) }
  | .v n => { t with v := t.v.put 0 n x }

/-- The waiting instruction is done. -/
def Thread.go (t : Thread) : Thread :=
  { t with st := .ready, atHome := false, poll := false, word := 0, pc := t.pc + 4 }

/-- The thread is halted: replies to it are held until it resumes (R73). -/
def State.heldUp (s : State) (t : Nat) : Bool := !s.prtRuns (some (s.thread t).prt)

/-- A reply writes its register. -/
def State.replyReg (s : State) (t : Nat) (d : Dest) (x : V256) : State :=
  let th := s.thread t
  s.setThread t (if s.heldUp t then { th with late := th.late ++ [(d, x)] } else th.setDest d x)

/-- A reply lets the thread go on to its next instruction. -/
def State.replyGo (s : State) (t : Nat) : State :=
  let th := s.thread t
  s.setThread t (if s.heldUp t then { th with served := true } else th.go)

/-- The replies held for a thread. -/
def Thread.takeLate (t : Thread) : Thread :=
  let t' := { t.late.foldl (fun (t : Thread) r => t.setDest r.1 r.2) t with late := [], served := false }
  if t.served then t'.go else t'

/-- Threads that run again get the replies held for them (R73). -/
def State.takeLate (s : State) : State :=
  { s with threads := s.threads.map (fun (e : Nat × Thread) =>
      (e.1, if s.prtRuns (some e.2.prt) && (e.2.served || !e.2.late.isEmpty) then e.2.takeLate else e.2)) }

/-- The effect of an atomic on an old value of `8n` bits (R342). -/
def amoNew (fn : AmoFn) (n old x : Nat) : Nat :=
  let w := 8 * n
  match fn with
  | .add => (old + x) % 2 ^ w
  | .adds => (satS (sInt w old + sInt w x) w % (2 : Int) ^ w).toNat
  | .and => old &&& x
  | .or => old ||| x
  | .xor => old ^^^ x
  | .min => if sInt w x < sInt w old then x else old
  | .max => if sInt w old < sInt w x then x else old
  | .swap => x

/-! ## Performing an access at its home -/

/-- Reads one part for cluster `m`; `l1` when the access may be served by the L1. -/
def State.readPart (s : State) (m : Nat) (l1 : Bool) (p : Part) : Nat :=
  if p.cached then s.readWords m l1 p.pa p.n else s.readHome p.pa p.n

/-- A plain load of a part: the L1 holds a copy of each word of a cached one afterwards. -/
def State.loadPart (s : State) (m : Nat) (p : Part) : Nat × State :=
  (s.readPart m true p, if p.cached then (wordsOf p.pa p.n).foldl (fun s w => s.keepCopies m p w) s else s)

/-- An acquire load of a part: at the home; the L1 copy of its words is updated (R222). -/
def State.acqPart (s : State) (m : Nat) (p : Part) : Nat × State :=
  if p.cached then
    let s := (wordsOf p.pa p.n).foldl (fun s w =>
      match s.copyAt m w with
      | some c => if c.reg then s else (s.dropCopy m w).keepCopies m p w
      | none => s.keepCopies m p w) s
    (s.readPart m true p, s)
  else (s.readPart m false p, s)

/-- A store through the L1: its words become registered there (R223). -/
def State.storePart (s : State) (m : Nat) (p : Part) (x : Nat) : State :=
  let s := ((s.behind p).behindDie (clusterDie m) p).writeHome p.pa p.n x
  if p.cached then (wordsOf p.pa p.n).foldl (fun s w => s.l1Wrote m p w) s else s

/-- An access at the home that bypasses the L1 (atomics, full-empty words; R344): the word's
registrant writes back, the issuing cluster's copy is invalidated, and the home holds the grain unit
EXCLUSIVE, so the other die holds no shared copy (R225). -/
def State.homeAccess (s : State) (m : Nat) (p : Part) : State :=
  if p.cached then
    (wordsOf p.pa p.n).foldl (fun s w => (s.homeWrote (clusterDie m) p w).dropCopy m w) (s.behind p)
  else s

/-- A release store of a part: at the home; an L1 copy of its words is updated, none is registered
(R222). -/
def State.relPart (s : State) (m : Nat) (p : Part) (x : Nat) : State :=
  if p.cached then
    let ws := (wordsOf p.pa p.n).filter (fun w => (s.copyAt m w).isSome)
    let s := (s.homeAccess m p).writeHome p.pa p.n x
    ws.foldl (fun s w => s.keepCopies m p w) s
  else s.writeHome p.pa p.n x

def State.loadParts (s : State) (m : Nat) (acq : Bool) : List Part → Nat × State
  | [] => (0, s)
  | p :: r =>
    let (x, s) := if acq then s.acqPart m p else s.loadPart m p
    let (y, s) := s.loadParts m acq r
    (x + 256 ^ p.n * y, s)

def State.storeParts (s : State) (m : Nat) (rel : Bool) : List Part → Nat → State
  | [], _ => s
  | p :: r, x =>
    (if rel then s.relPart m p (x % 256 ^ p.n) else s.storePart m p (x % 256 ^ p.n)).storeParts m rel r
      (x / 256 ^ p.n)

/-- Extends a loaded value of `n` bytes to the register (R332, R333). -/
def loadExt (sx : Bool) (n x : Nat) : V256 :=
  if sx then (sext64 (8 * n) x).setWidth 256 else BitVec.ofNat 256 x

/-! ## Full-empty and counter words at their homes (R337, R378) -/

/-- The condition of a waiter at its word. -/
def State.waiterReady (s : State) (w : Waiter) : Bool :=
  match w.kind with
  | .ldf _ _ | .amof _ _ _ => s.fullAt w.addr
  | .stf _ => !s.fullAt w.addr
  | .cntwait n _ => decide ((BitVec.ofNat 64 (s.readHome w.addr 8) - n).toNat < 2 ^ 63)
  | .bar gen => decide (s.readHome w.addr 8 / 2 ^ 32 ≠ gen.toNat)

/-- LDF and AMOF read their word after the wait (R335, R342). -/
def WaitKind.reads : WaitKind → Bool
  | .ldf _ _ | .amof _ _ _ => true
  | _ => false

/-- The wait is over with nothing done: the instruction issues again with the relaxed count it had
(R337). -/
def State.unserved (s : State) (w : Waiter) : State :=
  s.setThread w.tid { s.thread w.tid with st := .ready, atHome := false, poll := false, rlx := w.rlx }

/-- The waiting instruction's action, one atomic step at the home, and its reply (R335, R336, R342, R378).
A read of a word with an uncorrectable error is left to the instruction, which raises MEMERR (R254). -/
def State.serve (s : State) (w : Waiter) : State :=
  if w.kind.reads && s.poisoned w.addr 8 then s.unserved w
  else
    let m := w.tid / 128
    let s := s.homeAccess m w.part
    let old := s.readHome w.addr 8
    let t := w.tid
    let s :=
      match w.kind with
      | .ldf d clr => (if clr then s.setFull w.addr false else s).replyReg t d (BitVec.ofNat 256 old)
      | .stf x => (s.writeHome w.addr 8 x.toNat).setFull w.addr true
      | .amof fn x d =>
        (s.writeHome w.addr 8 (amoNew fn 8 old x.toNat)).replyReg t d (BitVec.ofNat 256 old)
      | .cntwait _ d => s.replyReg t d (BitVec.ofNat 256 old)
      | .bar _ => s.setThread t { s.thread t with arrived := false }
    let scope :=
      match w.kind with
      | .cntwait _ _ => 5
      | _ => Nat.min 5 (s.thread t).mscope.toNat
    (if w.acq then s.acquireAt m scope else s).replyGo t

/-- FE_WAITER_SERVE: the oldest waiter of the word whose condition holds, then the oldest of the
rest whose condition still holds, and so on (R337). -/
def State.serveN (a : Nat) : Nat → State → State
  | 0, s => s
  | n + 1, s =>
    match s.waiters.find? (fun w => w.addr == a && s.waiterReady w) with
    | some w => State.serveN a n ({ s with waiters := s.waiters.erase w }.serve w)
    | none => s

def State.serveWord (s : State) (a : Nat) : State := s.serveN a s.waiters.length

/-- The words of a stored range are looked at again by their waiters (R378). -/
def State.serveRange (s : State) (a n : Nat) : State :=
  if s.waiters.isEmpty then s else (wordsOf a n).foldl State.serveWord s

def State.serveParts (s : State) (ps : List Part) : State := ps.foldl (fun s p => s.serveRange p.pa p.n) s

/-- A write by the device itself, seen by the waiters of its words. -/
def State.deviceStore (s : State) (a : Nat) (l : List Byte) : State :=
  (s.deviceWrite a l).serveRange a l.length

/-! ## Partition memory by partition address (R265, R271) -/

/-- Bytes the manual gives no layout for: each a free value (log 13). -/
def State.freeBytes (s : State) (n : Nat) : List Byte × State :=
  ((List.range n).map (fun k => Config.freeByte (s.fresh + k)), { s with fresh := s.fresh + n })

/-- Writes bytes from partition address `pa` on, 64 at a time; those beyond the capacity are lost. -/
def State.prtStore (s : State) (q pa : Nat) : Nat → List Byte → State
  | 0, _ => s
  | f + 1, l =>
    let s := match s.memHome q pa with
      | some h => s.deviceStore h (l.take 64)
      | none => s
    s.prtStore q (pa + 64) f (l.drop 64)

/-- Reads `n` blocks of 64 bytes from partition address `pa` on. -/
def State.prtBytes (s : State) (q pa : Nat) : Nat → List Byte
  | 0 => []
  | n + 1 =>
    (match s.memHome q pa with
     | some h => Memory.readList s.mem h 64
     | none => List.replicate 64 0) ++ s.prtBytes q (pa + 64) n

/-! ## Reads and writes by other agents -/

/-- What an agent's access ends with when a clock it needs has stopped: it waits (R20). No trap has this
code. -/
def cWAIT : Nat := 255

/-- The bytes of a part as an agent reads them: of a cached part, as the home of its die serves them. -/
def State.agentBytes (s : State) (a : Agent) (p : Part) : List Byte :=
  match a.loc with
  | some (c, _, _) => leBytes p.n (s.readPart (c / 8) false p)
  | none => Memory.readList s.mem p.pa p.n

/-- The agent reaches the tables that translate `n` bytes at `va` (R20). -/
def State.agentReaches (s : State) (a : Agent) (va n : Nat) : Bool :=
  (piecesOf va n).all (fun p => decide (localWin ≤ p.1) || s.walkReaches a.die a.prt a.root p.1)

/-- Bytes at `va` as an agent reads them at their homes; the fault's cause and address otherwise. -/
def State.agentRead (s : State) (a : Agent) (va n : Nat) : Except (Nat × W64) (List Byte) :=
  match s.agentXlate a .load va n with
  | .ok ps =>
    if !s.agentReaches a va n || !ps.all (fun p => s.reaches a.die p.pa) then .error (cWAIT, 0)
    else if ps.any (fun p => s.poisoned p.pa p.n) then .error (cMEMERR, BitVec.ofNat 64 va)
    else .ok (ps.flatMap (s.agentBytes a))
  | .fault c _ v | .half _ c _ v => .error (c, v)
  | .miss v => .error (cPAGE, BitVec.ofNat 64 v)

/-- What an agent's read leaves: the home of its die holds the cached grain units SHARED (R225). -/
def State.agentTook (s : State) (a : Agent) (va n : Nat) : State :=
  match a.loc, s.agentXlate a .load va n with
  | some (c, _, _), .ok ps => ps.foldl (fun s p =>
      if p.cached then (wordsOf p.pa p.n).foldl (fun s w =>
        s.takeUnit (clusterDie (c / 8)) p.prt p.grain p.hc false w) s
      else s) s
  | _, _ => s

/-- A write of part `p` by an agent of die `d`: a cached part's grain units are EXCLUSIVE at the home of that
die, or for an agent of no die at that of the memory (R225). -/
def State.agentPut (s : State) (d : Nat) (p : Part) (l : List Byte) : State :=
  let d := if d < 2 then d else memDie p.pa
  let s := if p.cached then (wordsOf p.pa p.n).foldl (fun s w => s.takeUnit d p.prt p.grain p.hc true w) s else s
  s.deviceStore p.pa l

/-- Writes bytes at `va` for an agent, at their homes. -/
def State.agentWrite (s : State) (a : Agent) (va : Nat) (l : List Byte) :
    Except (Nat × W64) State :=
  match s.agentXlate a .store va l.length with
  | .ok ps => .ok ((ps.foldl (fun (acc : State × List Byte) p =>
      (acc.1.agentPut a.die p (acc.2.take p.n), acc.2.drop p.n)) (s, l)).1)
  | .fault c _ v | .half _ c _ v => .error (c, v)
  | .miss v => .error (cPAGE, BitVec.ofNat 64 v)

/-- The scheduler reads and writes records as a supervisor-level agent of the partition (R118). -/
def schedAgent (q root : Nat) : Agent := ⟨q, root, false, none⟩

end Sys2Proof.Machine
end

