-- ==== Sys2Proof/Machine/Report.lean ====
section
/-!
DEFINITION. What one block tells others: interrupt vectors (03 R57), flits and their routes
(02 R38, R42), Clapper triggers (03 R69, R70), Tocsin triggers (R72, R74), event comparators (R71),
messages (05 R135, R136) and the partition fault ring (09 R262, R263).
-/

namespace Sys2Proof.Machine

open Sys2Proof

/-! ## Interrupt vectors (R57) -/

def vfBound (v : Vf) (q : Nat) : Bool := v.enable && v.prt == q

/-- Raises vector `vec` of every virtual function bound to the partition. -/
def State.irqVfs (s : State) (q vec : Nat) : State :=
  { s with irqs := s.irqs ++ ((s.hif.vfs.filter (fun e => vfBound e.2 q)).map
      (fun e => Irq.mk e.1 vec)) }

/-- PF0's function number among the interrupt vectors. -/
def pf0 : Nat := 256

/-- R58: sets an error bit; the ERROR vector is raised when the bit becomes set. -/
def State.hifError (s : State) (bit : Nat) : State :=
  if bitAt s.hif.errStat bit then s
  else { s with hif := { s.hif with errStat := s.hif.errStat ||| BitVec.ofNat 8 (2 ^ bit) } }.irq pf0 0

/-! ## Peal flits -/

def State.link (s : State) (n : Nat) : Link := s.lnk.links.look {} n
def State.setLink (s : State) (n : Nat) (l : Link) : State :=
  { s with lnk := { s.lnk with links := s.lnk.links.put {} n l } }
def Link.up (l : Link) : Bool := decide (l.st = .up8) || decide (l.st = .up4)

/-- The partition that serves a flit's domain here (R38): the lowest PRTID. -/
def State.domainPrt (s : State) (d : Nat) : Option Nat :=
  if d = 0 then none
  else (s.prts.find? (fun e => e.2.domValid && e.2.domain.toNat == d)).map (·.1)

def classNo : FClass → Nat | .bulk => 0 | .lowLatency => 1 | .control => 2 | .collective => 3

def rtKey (cls dst : Nat) : Nat := cls * 256 + dst

/-- Bytes of data a payload carries. -/
def payloadData : Payload → List Byte
  | .write _ _ l _ | .reply _ l _ | .coll _ _ _ _ _ _ _ _ l _ _ _ => l
  | _ => []

/-- LEN (R37): the payload's 4-byte words, at most 57. -/
def payloadLen (p : Payload) : Nat :=
  Nat.min 57 (Config.payloadHead p + ((payloadData p).length + 3) / 4)

/-- A DATA flit from this package (R37): HOPS 15, which the package it leaves does not lower
(log 48), and the domain of its sender in the tag. -/
def mkFlit (src dst domain : Nat) (cls : FClass) (p : Payload) : Flit :=
  { seq := 0, ack := 0, ackv := false, nak := false, cls := cls, dst := dst, src := src
    type := .data, hops := 15, credits := 0, crClass := .bulk, len := payloadLen p
    tag := BitVec.ofNat 32 domain, payload := p }

/-- The route entry of a flit (R42): its local partition's, or the base table's. -/
def State.rtEntry (s : State) (f : Flit) : W32 :=
  let k := rtKey (classNo f.cls) f.dst
  let base := s.lnk.base.look 0 k
  match s.domainPrt (fld f.tag 11 0) with
  | none => base
  | some q => let e := (s.prt q).rt.look 0 k; if bitAt e 9 then e else base

/-- The route R42 takes: the link, or none for drop_noroute. -/
def State.route (s : State) (f : Flit) : Option Nat :=
  let e := s.rtEntry f
  if !bitAt e 9 then none
  else if (s.link (fld e 3 0)).up then some (fld e 3 0)
  else if bitAt e 8 && (s.link (fld e 7 4)).up then some (fld e 7 4)
  else none

/-- The sender's request a payload belongs to, for a route notice (R42). -/
def payloadOrigin : Payload → Option Nat
  | .message _ _ _ _ _ req _ | .write _ _ _ req | .read _ _ _ req | .coll _ _ _ _ _ _ _ _ _ _ _ req => some req
  | _ => none

def State.linkDrop (s : State) (n : Nat) : State :=
  let l := s.link n
  s.setLink n { l with drops := Nat.min 0xFFFF (l.drops + 1) }

/-- The participant of R40's round robin a flit counts for: class and local partition, or 256 for every
flit without one (R38). A change of a partition's domain does not reach flits queued before it (R46). -/
def State.participant (s : State) (f : Flit) : Nat :=
  match s.domainPrt (fld f.tag 11 0) with
  | some q => 64 * classNo f.cls + q
  | none => 256

/-- Queues a flit at link `n` by its present entry (R44). -/
def State.pushOut (s : State) (n : Nat) (f : Flit) : State :=
  let l := s.link n
  let x : Queued := { flit := f, entry := s.rtEntry f, part := s.participant f, ord := s.lnk.queued }
  ({ s with lnk := { s.lnk with queued := s.lnk.queued + 1 } }.setLink n
    { l with out := l.out ++ [x] }).post (.flitTransmit n)

/-- A CONTROL notice to the source of a dropped flit, which tells the request the flit belonged to, if any.
A notice that finds no route here is dropped and counted itself (R42). -/
def State.sendNotice (s : State) (f : Flit) : State :=
  let req := payloadOrigin f.payload
  if f.src = s.pkg then (match req with | some r => s.post (.routeNotice r) | none => s)
  else
    let g := mkFlit s.pkg f.src 0 .control (.notice req)
    match s.route g with
    | some n => s.pushOut n g
    | none => s.linkDrop (fld (s.rtEntry g) 3 0)

/-- drop_noroute of R42; the drop counts at the link the flit arrived on, or at the source at the link
its route entry names (log 48). -/
def State.dropNoroute (s : State) (arrived : Option Nat) (f : Flit) : State :=
  (s.linkDrop (arrived.getD (fld (s.rtEntry f) 3 0))).sendNotice f

/-- Sends a flit that is not for this package (R42). -/
def State.sendFlit (s : State) (arrived : Option Nat) (f : Flit) : State :=
  match s.route f with
  | some n => s.pushOut n f
  | none => s.dropNoroute arrived f

/-- Sends a payload in the domain of partition `q`; a partition without one sends nothing (R38). -/
def State.sendFrom (s : State) (q dst : Nat) (cls : FClass) (p : Payload) : State :=
  if (s.prt q).domValid then s.sendFlit none (mkFlit s.pkg dst (s.prt q).domain.toNat cls p) else s

/-- Sends a CONTROL flit of domain 0 to every package at the end of a live link. -/
def State.propagate (s : State) (p : Payload) : State :=
  s.lnk.links.foldl (fun s e =>
    if e.2.up then s.pushOut e.1 (mkFlit s.pkg e.2.peer 0 .control p) else s) s

/-! ## Clapper (R69, R70) -/

/-- Every block latches: the records read from these copies (R70). -/
def State.latch (s : State) : Snap :=
  { valid := true, seq := s.dbg.seq + 1, hif := s.hif, pwr := s.pwr, lnk := s.lnk
    prts := s.prts, blkOwn := s.blkOwn, cluOwn := s.cluOwn, hbmOwn := s.hbmOwn
    resize := s.resize, resizeQ := s.resizeQ, cores := s.cores, clusters := s.clusters
    threads := s.threads, regions := s.regions, toc := s.dbg.toc, stepMask := s.dbg.stepMask }

/-- A Clapper trigger of SOURCE code `src` from a die, if it came from one: taken while ARM is 1, else
counted in MISSED. -/
def State.clapperAt (s : State) (src : Nat) (die : Option Nat) : State :=
  if s.dbg.arm then
    let snap := { s.latch with die := die }
    let s := { s with snap := snap
                      dbg := { s.dbg with arm := false, latched := true, seq := s.dbg.seq + 1
                                          source := src } }
    let s := s.irq pf0 1
    if s.dbg.clapProp then s.propagate .clapper else s
  else { s with dbg := { s.dbg with missed := Nat.min 255 (s.dbg.missed + 1) } }

/-- A trigger of no die: the host's or another package's. -/
def State.clapper (s : State) (src : Nat) : State := s.clapperAt src none

/-! ## Tocsin (R72, R74, R75) -/

/-- A Tocsin trigger of CAUSE code `cause`; 4 is a fatal event, which acts in every state. -/
def State.tocsinAt (s : State) (cause : Nat) (die : Option Nat) : State :=
  let s := if cause = 4 then { s with dbg := { s.dbg with fatal := true, cause := 4 } } else s
  if s.dbg.toc = .running then
    let s := { s with dbg := { s.dbg with toc := .halting, cause := cause } }
    let s := if s.dbg.srcTocsin then s.clapperAt 3 die else s
    let s := if s.dbg.tocProp then s.propagate (.tocsin false) else s
    s.post .tocsinHalted
  else if cause = 4 ∧ s.dbg.toc = .stepping then
    { s with dbg := { s.dbg with toc := .halting } }.post .tocsinHalted
  else s

def State.tocsin (s : State) (cause : Nat) : State := s.tocsinAt cause none

/-! ## Event comparators (R71) -/

/-- R71: the comparator's site and scope admit the event's site; an event without a site (a
counter's) matches at package scope only (log 16). -/
def evtSite (e : Evt) (site : Option W32) : Bool :=
  match fld e.ctl 23 22, site with
  | 2, _ => true
  | 1, some w => fld e.site 31 23 == fld w 31 23
  | 0, some w => fld e.site 31 7 == fld w 31 7
  | _, _ => false

def Evt.matches (e : Evt) (cls code : Nat) (site : Option W32) : Bool :=
  bitAt e.ctl 31 && fld e.ctl 15 8 == cls && (fld e.ctl 7 0 == 0xFF || fld e.ctl 7 0 == code) &&
    evtSite e site

/-- R71: an event of a class meets the comparators; together they make one trigger of each kind
(R69, R75). -/
def State.debugEvent (s : State) (cls code : Nat) (site : Option W32) : State :=
  let hit := s.dbg.evts.filter (fun e => e.2.matches cls code site)
  let act (a : Nat) : Bool := hit.any (fun e => fld e.2.ctl 30 29 == a || fld e.2.ctl 30 29 == 2)
  let die := site.map (fun w => fld w 23 23)
  let s := if act 0 && s.dbg.srcEvent then s.clapperAt 2 die else s
  if act 1 then s.tocsinAt 2 die else s

/-! ## Endpoints and messages (R135, R136) -/

/-- The directory entry of a name: its home address, when the directory is enabled. -/
def State.epEntry (s : State) (q : Nat) (name : W32) : Option Nat :=
  let d := (s.prt q).epdir
  let lg := fld d 4 0
  if lg < 7 ∨ 16 < lg then none
  else s.memHome q (fld d 51 12 * 4096 + 32 * (name.toNat % 2 ^ lg))

/-- A valid directory entry: words 0, 1 and 2. -/
def State.epLook (s : State) (q : Nat) (name : W32) : Option (Nat × Nat × Nat) :=
  match s.epEntry q name with
  | none => none
  | some a =>
    let w0 := s.readHome a 8
    if w0 % 2 ^ 32 = name.toNat ∧ nbit w0 32 then
      some (w0, s.readHome (a + 8) 8, s.readHome (a + 16) 8)
    else none

/-- The core a SITE word of this package names after R83: SUB 0 alone names it (R28). -/
def State.coreOf (s : State) (q : Nat) (w : W32) : Option Nat :=
  match sitePkg w == s.pkg, siteName (s.relocate q w) with
  | true, .slot t => if t % 16 = 0 then some (t / 16) else none
  | _, _ => none

/-- Key of an endpoint cache entry: partition and name (R136). -/
def epKey (q : Nat) (name : W32) : Nat := q * 2 ^ 32 + name.toNat

/-- Puts a message in flight toward a core and schedules its delivery. -/
def State.sendMsg (s : State) (m : Msg) : State :=
  let (id, s) := s.newId
  { s with msgs := s.msgs ++ [{ m with id := id }] }.post (.messageDelivery id)

/-- A message from the partition manager (R106, R263): dropped when its name does not resolve. -/
def State.managerMsg (s : State) (q : Nat) (name : W32) (w0 w1 : W64) : State :=
  match s.epLook q name with
  | none => s
  | some (_, c, _) =>
    match s.coreOf q (BitVec.ofNat 32 c) with
    | none => s
    | some core =>
      s.sendMsg { id := 0, prt := q, name := name, w0 := w0, w1 := w1, core := core, hops := 0
                  sender := none, site := 0, asid := 0, root := 0, remote := none, ret := 0 }

/-! ## WAITI events (R417) -/

/-- Records a WAITI event for the waiting threads that satisfy `f`. -/
def State.waitiEvent (s : State) (bit : Nat) (f : Nat → Thread → Bool) : State :=
  { s with threads := s.threads.map (fun e =>
      if e.2.wiWait && f e.1 e.2 then
        (e.1, { e.2 with wi := e.2.wi ||| BitVec.ofNat 4 (2 ^ bit) }) else e) }

def State.waitiPrt (s : State) (q bit : Nat) : State := s.waitiEvent bit (fun _ th => th.prt == q)

/-- R88, R106: a RESIZE or GUARD report of the partition. -/
def State.report (s : State) (q vec : Nat) : State := (s.irqVfs q vec).waitiPrt q 2

/-! ## The fault ring (R263) -/

/-- Writes a record, or counts it LOST; then the notices FRNOTE asks for. R262 gives a record no field for
a switch's CLASS (R302, log 53). -/
def State.faultRecord (s : State) (q : Nat) (site : W32) (rec : List Byte) : State :=
  let p := s.prt q
  let lg := fld p.frbase 4 0
  let used := (p.frProd - p.frCons).toNat
  let a := fld p.frbase 51 12 * 4096 + 64 * (p.frProd.toNat % 2 ^ lg)
  match (if lg = 0 ∨ 2 ^ lg ≤ used then none else s.memHome q a) with
  | none =>
    s.setPrt q { p with frLost := if p.frLost = 0xFFFF then 0xFFFF else p.frLost + 1 }
  | some h =>
    let s := (s.deviceStore h rec).setPrt q { p with frProd := p.frProd + 1 }
    let s := s.waitiPrt q 0
    let s := if bitAt p.frnote 62 then s.irqVfs q 2 else s
    if bitAt p.frnote 63 then
      s.managerMsg q (BitVec.ofNat 32 p.frnote.toNat) (BitVec.ofNat 64 a) (site.setWidth 64)
    else s

/-- The thread record of R262. -/
def threadRecord (site word : W32) (cause lslot : Nat) (tval tepc : W64) : List Byte :=
  leBytes 4 site.toNat ++ leBytes 4 word.toNat ++ leBytes 1 cause ++ leBytes 1 0 ++
  leBytes 2 (lslot % 4096 + 4096) ++ leBytes 4 0 ++ leBytes 8 tval.toNat ++
  leBytes 8 tepc.toNat ++ leBytes 32 0

end Sys2Proof.Machine
end

