-- ==== Sys2Proof/Machine/Work.lean ====
section
/-!
DEFINITION. Completion counters and the accounting of units (05 R114 to R117, R125, R127, R128,
R130, R131), relaxed accesses performed at their homes (08 R232), and the end of a thread
(12 R328, 09 R257).
-/

namespace Sys2Proof.Machine

open Sys2Proof

/-- Launch records wait for a ring slot to become reusable (R126): reading goes on. -/
def State.pokeReads (s : State) (q : Nat) : State :=
  (s.prt q).graphRun.foldl (fun s e => if e.2.next < e.2.nlaunch then
    s.post (.launchRecordRead q e.1) else s) s

/-! ## Counters (R115, R116) -/

def statCode : CStat → Nat
  | .free => 0 | .running => 1 | .done => 2 | .cancelled => 3 | .faulted => 4 | .gangShort => 5

/-- The ranks of R116. -/
def statRank : CStat → Nat
  | .cancelled => 1 | .gangShort => 2 | .faulted => 3 | _ => 0

/-- The counter word (R115). -/
def Cntr.word (c : Cntr) : W64 :=
  BitVec.ofNat 64 (c.reason % 256 * 2 ^ 56 + statCode c.st * 2 ^ 53 + b2n c.read * 2 ^ 52 +
    c.gen.toNat * 2 ^ 32 + c.out % 2 ^ 32)

/-- R117. -/
def Cntr.reusable (c : Cntr) : Bool :=
  decide (c.st = .free) || (decide (c.st ≠ .running) && c.read)
def Cntr.resolved (c : Cntr) : Bool := decide (c.st ≠ .free) && decide (c.st ≠ .running)
def Cntr.running (c : Cntr) : Bool := decide (c.st = .running)

/-- Reuse clears READ, increments GEN and sets RUNNING (R117). -/
def Cntr.start (c : Cntr) (out : Nat) : Cntr :=
  { reason := 0, st := .running, read := false, gen := c.gen + 1, out := out }

/-- Reason codes (R124). -/
def rBADREC : Nat := 1
def rCNTBUSY : Nat := 2
def rOUTSIDE : Nat := 3
def rBADADDR : Nat := 4
def rDEPFAIL : Nat := 5
def rBADDEP : Nat := 6
def rCANCEL : Nat := 7
def rGANG : Nat := 8
def rUNIT : Nat := 9
def rIMAGE : Nat := 10
def rFLR : Nat := 11
def rDESTROY : Nat := 12

/-- Counters of each level of a file (R114). -/
def fileSize (lvl : Nat) : Nat :=
  match lvl with | 1 => 4096 | 2 => 256 | 3 => 64 | 4 => 16 | _ => 0

def Prt.cntr (p : Prt) (lvl i : Nat) : Cntr :=
  match lvl with
  | 1 => p.cnt.launches.look {} i
  | 2 => p.cnt.graphs.look {} i
  | 3 => p.cnt.phases.look {} i
  | 4 => p.cnt.jobs.look {} i
  | _ => {}

def Prt.setCntr (p : Prt) (lvl i : Nat) (c : Cntr) : Prt :=
  match lvl with
  | 1 => { p with cnt := { p.cnt with launches := p.cnt.launches.put {} i c } }
  | 2 => { p with cnt := { p.cnt with graphs := p.cnt.graphs.put {} i c } }
  | 3 => { p with cnt := { p.cnt with phases := p.cnt.phases.put {} i c } }
  | 4 => { p with cnt := { p.cnt with jobs := p.cnt.jobs.put {} i c } }
  | _ => p

def State.cntr (s : State) (q lvl i : Nat) : Cntr := (s.prt q).cntr lvl i
def State.setCntr (s : State) (q lvl i : Nat) (c : Cntr) : State :=
  s.setPrt q ((s.prt q).setCntr lvl i c)

/-- One child of a running counter has resolved with a status and reason: OUTSTANDING falls, and
the first reason of the highest-ranked status is kept (R116, R125). -/
def Cntr.child (c : Cntr) (st : CStat) (reason : Nat) : Cntr :=
  if c.running then
    let c := { c with out := c.out - 1 }
    if statRank c.worst < statRank st then { c with worst := st, worstReason := reason } else c
  else c

def State.childDone (s : State) (q lvl i : Nat) (st : CStat) (reason : Nat) : State :=
  s.setCntr q lvl i ((s.cntr q lvl i).child st reason)

/-- One more child of a running counter. -/
def State.childAdded (s : State) (q lvl i : Nat) : State :=
  let c := s.cntr q lvl i
  if c.running then s.setCntr q lvl i { c with out := c.out + 1 } else s

/-! ## Resolution (R116, R117, R125, R127) -/

/-- Writes a word for a WB flag; a write that cannot be made is skipped (R117). -/
def State.writeBack (s : State) (q root va : Nat) (w : W64) : Option State :=
  match s.agentXlate (schedAgent q root) .store va 8 with
  | .ok ps =>
    if ps.any (fun p => s.poisoned p.pa p.n) then none
    else
      match s.agentWrite (schedAgent q root) va (leBytes 8 w.toNat) with
      | .ok s' => some s'
      | .error _ => none
  | _ => none

/-- Bytes 56 to 63 of a launch record (R121): SLOT beside the high half of the counter word. -/
def launchWord (slot : Nat) (w : W64) : W64 :=
  BitVec.ofNat 64 (slot % 4096 + w.toNat / 2 ^ 32 * 2 ^ 32)

/-- The status and reason a counter resolves with (R116, R130). -/
def Cntr.outcome (c : Cntr) : CStat × Nat :=
  match c.stop with
  | some x => x
  | none => (c.worst, if c.worst = .done then 0 else c.worstReason)

/-- Marks the entries of a counter that has resolved: a later record may name its position (R121). -/
def markResolved (l : List (Option (Nat × Option Bool))) (i : Nat) (ok : Bool) :
    List (Option (Nat × Option Bool)) :=
  l.map (fun e => match e with | some (k, none) => some (k, if k = i then some ok else none) | x => x)

/-- R116: the counter takes its status; comparators of classes 4 and 5 see it, and CODE is the counter's
REASON, the only code the class has (R71, log 52). -/
def State.takeStatus (s : State) (q lvl i : Nat) : State :=
  let c := s.cntr q lvl i
  let (st, reason) := c.outcome
  let s := s.setCntr q lvl i { c with st := st, reason := reason, out := 0 }
  if st = .faulted then s.debugEvent 4 reason none
  else if st = .cancelled then s.debugEvent 5 reason none
  else s

/-- A launch counter resolves: WB, the end of its relocation entries (R83), its graph. -/
def State.resolveLaunch (s : State) (q i : Nat) : State :=
  let s := s.takeStatus q 1 i
  let r := (s.prt q).launchRun.look {} i
  let c := s.cntr q 1 i
  let s :=
    if r.wb then
      let w := Cntr.word { c with read := true }
      match s.writeBack q r.root (r.recVa.toNat + 56) (launchWord i w) with
      | some s' => (s'.setCntr q 1 i { c with read := true }).pokeReads q
      | none => s
    else s
  let (seq, s) := s.newId
  let p := s.prt q
  let g : GraphRun := p.graphRun.look {} r.graph
  let p := { p with
    reloc := p.reloc.map (fun e =>
      if e.2.valid && !e.2.core && e.2.live && e.2.launch == i then
        (e.1, { e.2 with live := false, doneSeq := seq + 1 }) else e)
    launchRun := p.launchRun.put {} i { r with st := .placed, deps := [] }
    graphRun := p.graphRun.put {} r.graph { g with slotOf := markResolved g.slotOf i (decide (c.st = .done)) } }
  (s.setPrt q p).childDone q 2 r.graph c.st c.reason

/-- A graph counter resolves and counts in its phase. -/
def State.resolveGraph (s : State) (q i : Nat) : State :=
  let s := s.takeStatus q 2 i
  let c := s.cntr q 2 i
  let p := s.prt q
  let ph := (p.graphRun.look {} i).phase
  let r : PhaseRun := p.phaseRun.look {} ph
  let r := { r with graphOf := markResolved r.graphOf i (decide (c.st = .done)) }
  let s := s.setPrt q { p with phaseRun := p.phaseRun.put {} ph r }
  s.childDone q 3 ph c.st c.reason

/-- A phase counter resolves. After DONE the next phase starts; otherwise no later phase starts and
they count as CANCELLED (R125). A GANG_SHORT phase writes its acknowledgement set (R137). -/
def State.resolvePhase (s : State) (q i : Nat) : State :=
  let s := s.takeStatus q 3 i
  let c := s.cntr q 3 i
  let r := (s.prt q).phaseRun.look {} i
  let jr := (s.prt q).jobRun.look {} r.job
  let s :=
    if r.short then
      match s.agentWrite (schedAgent q jr.root) (r.membersVa.toNat + 32) (leBytes 32 r.acks.toNat) with
      | .ok s' => s'
      | .error _ => s
    else s
  let s := s.setPrt q { s.prt q with phaseRun := (s.prt q).phaseRun.put {} i { r with armed := false } }
  let s := s.childDone q 4 r.job c.st c.reason
  let j := s.cntr q 4 r.job
  if c.st = .done then
    if 0 < j.out then s.post (.phaseStart q r.job) else s
  else
    let j' := if 0 < j.out ∧ j.running then { j.child .cancelled c.reason with out := 0 } else j
    s.setCntr q 4 r.job j'

/-- A job counter resolves: STATUS under WB, the JOB vector under NOTIFY (R118). -/
def State.resolveJob (s : State) (q i : Nat) : State :=
  let s := s.takeStatus q 4 i
  let c := s.cntr q 4 i
  let r := (s.prt q).jobRun.look {} i
  let s :=
    if r.wb then
      match s.writeBack q r.root r.status.toNat (Cntr.word { c with read := true }) with
      | some s' => s'.setCntr q 4 i { c with read := true }
      | none => s
    else s
  if r.notify then s.irqVfs q 0 else s

/-- R127: 0 not resolved, 1 satisfied, 2 the launch is cancelled. A FREE counter satisfies. -/
def Prt.depState (p : Prt) (d : Dep) : Nat :=
  if d.level = 0 then (if d.any then 1 else 2)
  else
    let c := p.cntr d.level d.index
    if c.running then 0
    else if d.any ∨ c.st = .done ∨ c.st = .free then 1
    else 2

/-- R127: waiting launches whose dependences have resolved become ready, or are cancelled. -/
def State.depPass (s : State) (q : Nat) : State :=
  let p := s.prt q
  if p.launchRun.any (fun e => decide (e.2.st = .waiting) &&
      (e.2.deps.isEmpty || e.2.deps.any (fun d => p.depState d != 0))) then
    let (seq, s) := s.newId
    let lr := p.launchRun.map (fun e =>
      if e.2.st = .waiting then
        let deps := e.2.deps.filter (fun d => p.depState d == 0)
        let bad := e.2.deps.any (fun d => p.depState d == 2)
        (e.1, if bad then { e.2 with deps := [] }
              else if deps.isEmpty then { e.2 with st := .ready, deps := [], readySeq := seq }
              else { e.2 with deps := deps })
      else e)
    let bads := (p.launchRun.filter (fun e => decide (e.2.st = .waiting) &&
      e.2.deps.any (fun d => p.depState d == 2))).map (·.1)
    let p' := bads.foldl (fun (p : Prt) i =>
      let c := p.cntr 1 i
      if c.running then p.setCntr 1 i { c with out := 0, stop := some (.cancelled, rDEPFAIL) } else p)
      { p with launchRun := lr }
    let s := s.setPrt q p'
    if lr.any (fun e => decide (e.2.st = .ready)) && !s.agenda.contains .schedulerDecision then
      s.post .schedulerDecision
    else s
  else s

/-- The first counter of the partition that resolves now. -/
def Prt.nextResolved (p : Prt) : Option (Nat × Nat) :=
  let f (lvl : Nat) (t : Tbl Cntr) : Option (Nat × Nat) :=
    (t.find? (fun e => e.2.running && e.2.out == 0 &&
      (lvl != 1 || e.2.stop.isSome || decide ((p.launchRun.look {} e.1).st ≠ .waiting)))).map
      (fun e => (lvl, e.1))
  match f 1 p.cnt.launches with
  | some x => some x
  | none =>
    match f 2 p.cnt.graphs with
    | some x => some x
    | none => match f 3 p.cnt.phases with | some x => some x | none => f 4 p.cnt.jobs

def State.resolve (s : State) (q lvl i : Nat) : State :=
  match lvl with
  | 1 => s.resolveLaunch q i
  | 2 => s.resolveGraph q i
  | 3 => s.resolvePhase q i
  | _ => s.resolveJob q i

def State.settleN (q : Nat) : Nat → State → State
  | 0, s => s
  | n + 1, s =>
    let s := s.depPass q
    match (s.prt q).nextResolved with
    | some (lvl, i) => State.settleN q n (s.resolve q lvl i)
    | none => s

/-- COUNTER_RESOLVE: every counter whose OUTSTANDING has reached zero resolves, and its resolution
reaches its parent and its dependents (R116, R125, R127). -/
def State.settle (s : State) (q : Nat) : State :=
  let c := (s.prt q).cnt
  s.settleN q (2 * (c.launches.length + c.graphs.length + c.phases.length + c.jobs.length) + 2)

/-- A unit of a launch ends (R128). -/
def State.unitEnd (s : State) (q lslot : Nat) (st : CStat) (reason : Nat) : State :=
  if lslot < 4096 then (s.childDone q 1 lslot st reason).settle q else s

/-- A launch gains a unit before the unit that starts it can end (R128). -/
def State.unitAdd (s : State) (q lslot : Nat) : State :=
  if lslot < 4096 then s.childAdded q 1 lslot else s

/-! ## Relaxed accesses (R232) -/

/-- Performs one outstanding relaxed access of thread `t` (R232). -/
def State.performRlx (s : State) (t : Nat) (r : Rlx) : State :=
  let m := t / 128
  match r.op with
  | .load sx d =>
    let (x, s) := s.loadParts m false r.parts
    s.replyReg t d (loadExt sx r.n x)
  | .store x => s.storeParts m false r.parts x.toNat
  | .amo fn x d =>
    match r.parts with
    | [p] =>
      let s := s.homeAccess m p
      let old := s.readHome p.pa r.n
      let s := s.writeHome p.pa r.n (amoNew fn r.n old (x.toNat % 256 ^ r.n))
      s.replyReg t d (loadExt true r.n old)
    | _ => s
  | .cas cmp new d =>
    match r.parts with
    | [p] =>
      let s := s.homeAccess m p
      let old := s.readHome p.pa r.n
      let s := if old = cmp.toNat % 256 ^ r.n then s.writeHome p.pa r.n new.toNat else s
      s.replyReg t d (loadExt true r.n old)
    | _ => s
  | .ste x =>
    match r.parts with
    | [p] => ((s.homeAccess m p).writeHome p.pa 8 x.toNat).setFull p.pa false
    | _ => s
  | .febit f =>
    match r.parts with
    | [p] => (s.homeAccess m p).setFull p.pa f
    | _ => s

/-- Two lists of parts touch a common byte. -/
def overlaps (a b : List Part) : Bool :=
  a.any (fun p => b.any (fun q => decide (p.pa < q.pa + q.n) && decide (q.pa < p.pa + p.n)))

/-- Removes entry `i` of thread `t`'s outstanding accesses and performs it. -/
def State.performAt (s : State) (t i : Nat) : State :=
  let th := s.thread t
  match th.rlxOut[i]? with
  | none => s
  | some r => ((s.setThread t { th with rlxOut := th.rlxOut.eraseIdx i }).performRlx t r).serveParts
      (match r.op with | .load _ _ => [] | _ => r.parts)

def State.performN (t : Nat) : Nat → State → State
  | 0, s => s
  | n + 1, s => State.performN t n (s.performAt t 0)

/-- Performs every outstanding relaxed access of the thread, oldest first. -/
def State.performAll (s : State) (t : Nat) : State :=
  s.performN t (s.thread t).rlxOut.length

/-- Accesses of one thread to overlapping bytes keep program order (R229): performs the
outstanding ones up to the last that overlaps. -/
def State.performOverlap (s : State) (t : Nat) (ps : List Part) : State :=
  let l := (s.thread t).rlxOut
  let k := (List.range l.length).foldl (fun k i =>
    match l[i]? with
    | some r => if overlaps r.parts ps then i + 1 else k
    | none => k) 0
  s.performN t k

/-- Outstanding accesses of every thread of a partition, performed before a move or at an
acknowledgement (R249, R90). -/
def State.performPrt (s : State) (q : Nat) : State :=
  (s.threads.map (·.1)).foldl (fun s t => if (s.thread t).prt = q then s.performAll t else s) s

/-! ## Withdrawing waiters (R337) -/

/-- Withdraws the thread's waiters; the instruction has had no effect, and takes again of the relaxed
count when it issues again (R337). -/
def State.withdraw (s : State) (t : Nat) : State :=
  let c := s.core (t / 16)
  let s := match s.waiters.find? (fun w => w.tid == t) with
    | some w => s.setThread t { s.thread t with rlx := w.rlx }
    | none => s
  { s with waiters := s.waiters.filter (fun w => w.tid != t) }.setCore (t / 16)
    { c with recvWait := c.recvWait.filter (fun w => w.2 != t) }

/-! ## Tickets and rows a thread holds -/

/-- R169, R172: the ticket of a site is answered with a list of tokens, when it is parked under
that generation. -/
def Site.answer (x : Site) (ticket gen : Nat) (toks : List Token) : Option Site :=
  let k := x.tickets.look {} ticket
  if k.st = 1 ∧ k.gen = gen then
    some { x with tickets := x.tickets.put {} ticket { k with st := 2, reply := toks }
                  replies := x.replies ++ [ticket] }
  else none

/-- R172: an unanswered ticket of an ending thread is freed as by EDROP and counts in ESCLOST. -/
def State.freeTicket (s : State) (h : Held) : State :=
  let r := s.region h.prt h.slot
  match (r.sites.look {} h.site).answer h.ticket h.gen [] with
  | some x =>
    (s.setRegion h.prt h.slot
      { r with sites := r.sites.put {} h.site x, esclost := Nat.min 255 (r.esclost + 1) }).post
      (.escapeTokenLeave h.site)
  | none => s

/-- R210, R211: the row of a drain is released. -/
def State.releaseRow (s : State) (m : Nat) (id row : Nat) : State :=
  let cl := s.clu m
  let f (c : MxCmd) : MxCmd :=
    if c.id = id ∧ c.drain ∧ !c.released.contains row then { c with released := c.released ++ [row] }
    else c
  (s.setClu m { cl with queues := cl.queues.map (fun e => (e.1, e.2.map f)) }).post
    (.drainRowWrite m)

/-- No message, remote request, load or shoot-down answers an ended thread. -/
def State.forget (s : State) (t : Nat) : State :=
  { s with
    msgs := s.msgs.map (fun m => if m.sender = some t then { m with sender := none } else m)
    lnk := { s.lnk with reqs := s.lnk.reqs.filter (fun r => r.cmd.isSome || r.tid != t) }
    loads := s.loads.map (fun l =>
      match l.waiter with
      | some (u, _) => if u = t then { l with waiter := none } else l
      | none => l)
    regions := s.regions.map (fun (e : Nat × Region) => (e.1, { e.2 with
      armWait := e.2.armWait.filter (fun w => w.1 != t)
      rollWait := e.2.rollWait.filter (fun w => w.1 != t) }))
    prts := s.prts.map (fun (e : Nat × Prt) => (e.1, { e.2 with
      shoots := e.2.shoots.map (fun h =>
        match h.tid with
        | some (u, _) => if u = t then { h with tid := none } else h
        | none => h) })) }

/-! ## The end of a thread (R328, R257, R130) -/

/-- An escape of the partition is held at its port (R134). -/
def State.escapeHeld (s : State) (q : Nat) : Bool :=
  s.regions.any (fun e => e.1 / 4096 == q && e.2.loaded &&
    e.2.sites.any (fun x => x.2.tickets.any (fun k => k.2.st == 1 && !k.2.asked)))

/-- The slot becomes EMPTY: accesses issued are performed, what the thread holds is released, its
unit counts in its launch. -/
def State.endThread (s : State) (t : Nat) (st : CStat) (reason : Nat) : State :=
  let c := t % 65536 / 16
  let m := c / 8
  let s := ((s.performAll t).withdraw t).forget t
  let th := s.thread t
  let s := match th.held with | some h => s.freeTicket h | none => s
  let s := match th.row with | some (id, row) => s.releaseRow m id row | none => s
  let cl := s.clu m
  let s := s.setClu m
    { cl with walks := cl.walks.map (fun w => { w with who := w.who.filter (fun x => x.1 != t) }) }
  let th := s.thread t
  let s := s.setThread t
    { th with st := .empty, held := none, row := none, uiPend := [], atHome := false, poll := false
              wfault := [], fills := [], wiWait := false, wi := 0, fflags := 0, p := 0, intrap := false
              uiin := false, uiSup := false, rlx := 0, arrived := false, cmds := [], late := [], lateTrap := none, served := false
              filled := false }
  let s := if (cl.queues.look [] (c % 8)).any (fun x => x.drain) then
    s.post (.drainRowStart m) else s
  let s := if (s.core c).queue.isEmpty && !s.escapeHeld th.prt then s else s.post (.taskDispatch c)
  (s.unitEnd th.prt th.lslot st reason).pokeCtx th.prt

end Sys2Proof.Machine
end

