-- ==== Sys2Proof/Machine/Operands.lean ====
section
/-!
DEFINITION. Operand forms of thread instructions: g, h, v and p registers (07 R198, R201; 11 R294),
effective addresses (12 R330), and the registers an instruction names (07 R192, PENDREG).
-/

namespace Sys2Proof.Machine

open Sys2Proof

/-! ## Registers -/

/-- A g field: g0 reads zero; 56 to 63 name h0 to h7 while UIIN is 1 (R198, R201). -/
def Thread.readG (t : Thread) (n : GReg) : W64 :=
  if n = 0 then 0
  else if t.uiin && decide (56 ≤ n.toNat) then t.h.look 0 (n.toNat - 56)
  else t.g.look 0 n.toNat

/-- The register a g field names as a destination (R198, R201). -/
def Thread.gDest (t : Thread) (n : GReg) : Dest :=
  if n = 0 then .none
  else if t.uiin && decide (56 ≤ n.toNat) then .h (n.toNat - 56)
  else .g n.toNat

def Thread.writeG (t : Thread) (n : GReg) (x : W64) : Thread :=
  if n = 0 then t
  else if t.uiin && decide (56 ≤ n.toNat) then { t with h := t.h.put 0 (n.toNat - 56) x }
  else { t with g := t.g.put 0 n.toNat x }

def Thread.readV (t : Thread) (n : Nat) : V256 := t.v.look 0 n
def Thread.writeV (t : Thread) (n : Nat) (x : V256) : Thread := { t with v := t.v.put 0 n x }

/-- p0 reads true (R198). -/
def Thread.readP (t : Thread) (n : PReg) : Bool := if n = 0 then true else bitAt t.p n.toNat
def Thread.writeP (t : Thread) (n : PReg) (b : Bool) : Thread :=
  if n = 0 then t
  else
    let m := BitVec.ofNat 8 (2 ^ n.toNat)
    { t with p := if b then t.p ||| m else t.p &&& ~~~m }

def State.g (s : State) (n : GReg) : W64 := s.thr.readG n
def State.v (s : State) (n : VReg) : V256 := s.thr.readV n.toNat
def State.p (s : State) (n : PReg) : Bool := s.thr.readP n
def State.setG (s : State) (n : GReg) (x : W64) : State := s.setThr (s.thr.writeG n x)
def State.setV (s : State) (n : VReg) (x : V256) : State := s.setThr (s.thr.writeV n.toNat x)
def State.setP (s : State) (n : PReg) (b : Bool) : State := s.setThr (s.thr.writeP n b)

/-- The instruction is done: the thread is READY at `a`. -/
def State.goto (s : State) (a : W64) : State :=
  s.setThr { s.thr with pc := a, st := .ready, poll := false, atHome := false }
/-- `next_pc` is pc + 4 (R313). -/
def State.adv (s : State) : State := s.goto (s.thr.pc + 4)
/-- Writes g[d] and goes on to the next instruction. -/
def State.fin (s : State) (d : GReg) (x : W64) : State := (s.setG d x).adv
/-- The same for a thread that another block answers. -/
def State.finT (s : State) (t : Nat) (d : GReg) (x : W64) : State :=
  let th := (s.thread t).writeG d x
  s.setThread t { th with pc := th.pc + 4, st := .ready, poll := false, atHome := false }

/-! ## Effective addresses (R330) -/

def sizeBytes : MSize → Nat | .b => 1 | .h => 2 | .w => 4 | .d => 8

/-- `(g[base] + sign_extend(off10, 10) * scale)[63:0]`. -/
def State.ea (s : State) (base : GReg) (off : BitVec 10) (scale : Nat) : Nat :=
  ((s.g base).toNat + (sext64 10 off.toNat).toNat * scale) % 2 ^ 64

/-! ## The registers an instruction names -/

/-- The general registers named as source or destination. -/
def gNames : Instr → List GReg
  | .add d a b | .sub d a b | .adds d a b | .subs d a b | .mul d a b | .mulh d a b
  | .mulhn d a b | .div d a b | .divn d a b | .rem d a b | .remn d a b | .and d a b | .or d a b
  | .xor d a b | .shl d a b | .shr d a b | .sra d a b | .min d a b | .max d a b | .minn d a b
  | .maxn d a b | .sel d _ a b | .lea d a b _ | .fadd _ d a b _ | .fsub _ d a b _
  | .fmul _ d a b _ | .ffma _ d a b _ | .fmin _ d a b | .fmax _ d a b | .frcpr _ d a b _
  | .frsqr _ d a b _ | .fsgn _ d a b _ => [d, a, b]
  | .clz d a | .ctz d a | .popc d a | .brev d a | .addi d a _ | .andi d a _ | .ori d a _
  | .xori d a _ | .shli d a _ | .shri d a _ | .srai d a _ | .ext d a _ _ | .ins d a _ _
  | .site d a | .frcp _ d a | .frsq _ d a | .fclass _ d a | .fcvt _ d a _ _ | .icvt _ d a _ _
  | .fcvti _ d a _ _ | .ilock d a | .iunlock d a | .tlbinv d a => [d, a]
  | .cmpi _ _ a _ | .mts a _ | .feset a | .feclr a | .pref a _ | .edrop a | .cancel a _
  | .cancelFault a _ | .ldv _ a _ _ | .stv _ a _ _ => [a]
  | .lih d _ _ | .addpc d _ | .mfs d _ | .snap d | .waiti d | .mxgo d => [d]
  | .cmp _ _ a b | .fcmp _ _ a b _ _ | .ste a b | .bar a b | .mxa a b | .mxb a b => [a, b]
  | .ld d b _ _ _ _ | .st d b _ _ _ | .ldf d b _ _ _ | .stf d b _ _ => [d, b]
  | .amo _ a b c _ _ _ | .cas a b c _ _ _ | .amof _ a b c _ _ | .waitw a b c | .cntadd a b c
  | .cntwait a b c | .send a b c | .recv a b c | .qwait a b c | .mxc a b c | .mxdrain a b c
  | .cfgload a b c | .cfgshadow a b c | .roll a b c | .cfgpatch a b c | .qput a b c
  | .qtake a b c | .ereply a b c _ | .ctok a b c | .launch a b c => [a, b, c]
  | .acopy a c _ | .agather a c _ | .ascatter a c _ | .acoll a c _ | .await a c | .acancel a c
  | .cfgarm a c | .spawn a c | .prio a c => [a, c]
  | .jr a b => [a, b]
  | .vmovg d _ b _ => [d, b]
  | .vmovv _ a b _ => [a, b]
  | _ => []

/-- The descriptor ft k of R276. -/
def Thread.ftk (t : Thread) (k : Nat) : W16 := BitVec.ofNat 16 (t.ft.toNat / 2 ^ (16 * k))

/-- Register groups of a conversion (R366): N over the elements a register holds. -/
def cvtGroup (src dst : Fmt) : Nat × Nat :=
  let n := Nat.max src.perReg dst.perReg
  (n / src.perReg, n / dst.perReg)

/-- The packed registers named as source or destination. -/
def vNames (t : Thread) : Instr → List Nat
  | .vadd d a b _ _ _ | .vsub d a b _ _ _ | .vmul d a b _ _ _ | .vfma d a b _ _ _
  | .vmin d a b _ _ | .vmax d a b _ _ | .vdot d a b _ _ _ | .vscale d a b _ _ _
  | .vshuf d a b _ _ | .vsel d a b _ | .vcmp d a b _ _ | .vlog d a b _ | .vshift d a b _ _ =>
    [d.toNat, a.toNat, b.toNat]
  | .vbcast d a _ _ | .vred d a _ _ _ => [d.toNat, a.toNat]
  | .vcvt d a g ty _ _ =>
    let (ns, nd) := cvtGroup ty.fmt g
    (List.range ns).map (a.toNat + ·) ++ (List.range nd).map (d.toNat + ·)
  | .vcvtDesc d a g k =>
    match Enc.fmtOf (BitVec.ofNat 4 (fld (t.ftk k.toNat) 3 0)) with
    | some f =>
      let (ns, nd) := cvtGroup f g
      (List.range ns).map (a.toNat + ·) ++ (List.range nd).map (d.toNat + ·)
    | none => [d.toNat, a.toNat]
  | .vmovg _ a _ _ => [a.toNat]
  | .vmovv d _ _ _ | .ldv d _ _ _ | .stv d _ _ _ => [d.toNat]
  | _ => []

/-- The registers that outstanding relaxed accesses have yet to write. -/
def Rlx.dest (r : Rlx) : Dest :=
  match r.op with
  | .load _ d | .amo _ _ d | .cas _ _ d => d
  | .store _ | .ste _ | .febit _ => .none

/-- R192, R232: the instruction names a register an outstanding relaxed load has yet to write. JAL
writes g55 whatever UIIN is (R294). -/
def Thread.pendReg (t : Thread) (i : Instr) : Bool :=
  t.rlxOut.any (fun r =>
    match r.dest with
    | .none => false
    | .v n => (vNames t i).contains n
    | d => ((gNames i).map t.gDest).contains d ||
      (match i with | .jal _ => decide (d = .g 55) | _ => false))

/-- The word of an instruction (R293), for TVAL and fault records. -/
def wordOf (i : Instr) : W32 := (encode i).getD 0

end Sys2Proof.Machine
end

