-- ==== Sys2Proof/Machine/Stop.lean ====
section
/-!
DEFINITION. Async commands and queued matrix commands: their end, collectives whose group aborts
(14 R394, R396), and how they stop with a unit (05 R130).
-/

namespace Sys2Proof.Machine

open Sys2Proof

/-- Threads of a swapped-out context stand in the thread table beyond the package's slots: key
`outKey + t` for the inactive slot, further keys for spilled contexts (R266, R269). -/
def outKey : Nat := 65536
/-- The slot a thread key stands for. -/
def slotOf (t : Nat) : Nat := t % 65536

/-- An 8-byte field of a record. -/
def q8 (l : List Byte) (i : Nat) : Nat := leNat ((l.drop i).take 8)

/-! ## Async commands: their end, and collectives whose group aborts (R394, R396) -/

def ACmd.agent (c : ACmd) : Agent := ⟨c.prt, c.root, !c.sup, some (slotOf c.tid / 16, c.ctx, c.lw)⟩

/-- Posts what comes next of a command: its completion or its next part. -/
def State.pokeCmd (s : State) (c : ACmd) : State :=
  s.post (if c.ended then .asyncCommandComplete c.id else .asyncEngineTransfer c.id)

def State.setCmd (s : State) (c : ACmd) : State :=
  { s with acmds := s.acmds.map (fun x => if x.id = c.id then c else x) }

/-- The command ends with a status; its completion follows. -/
def State.endCmd (s : State) (c : ACmd) (status cause : Nat) (v : W64) : State :=
  let c := { c with ended := true, wait := false, status := status, cause := cause, faddr := v }
  ({ s.setCmd c with lnk := { s.lnk with reqs := s.lnk.reqs.filter (fun r => r.cmd != some c.id) } }).pokeCmd c

/-- Its own entry in the member list. -/
def ACmd.me (c : ACmd) : W32 := c.members.getD c.rank 0

/-- The command is in the group of the member `sender` of rank `rank`: the same tag, or that entry in its
own list. -/
def ACmd.inGroup (c : ACmd) (gtag : W64) (rank : Nat) (sender : W32) : Bool :=
  c.gtag == gtag || c.members.getD rank 0 == sender

/-- Data of the member `sender` wait for the member `rcpt` of the package, which has not issued. -/
def State.collHeld (s : State) (q : Nat) (gtag : W64) (sender rcpt : W32) : Bool :=
  s.lnk.coll.any (fun e => e.1 == q && (match e.2 with
    | .coll g _ _ _ _ _ _ _ _ a b _ => g == gtag && a == sender && b == rcpt
    | _ => false))

/-- The member `rcpt` of the package learns that the member `sender` has aborted: its command completes with
MISMATCH, or the one it has still to issue will. It has completed already when `sender` had sent it data
that wait no more. -/
def State.collAbort (s : State) (q : Nat) (gtag : W64) (rank : Nat) (sender rcpt : W32) (sent : Bool) : State :=
  let cs := s.acmds.filter (fun c => c.op == 3 && c.prt == q && c.sent && c.me == rcpt && c.inGroup gtag rank sender)
  if !cs.isEmpty then (cs.filter (fun c => !c.ended)).foldl (fun s c => s.endCmd c 3 0 0) s
  else if sent && !s.collHeld q gtag sender rcpt then s
  else
    let d := (q, gtag, rank, sender, rcpt)
    { s with lnk := { s.lnk with collDead := s.lnk.collDead.filter (fun x => decide (x ≠ d)) ++ [d] } }

/-- The members of a command's group in other packages. -/
def ACmd.remotes (c : ACmd) (pkg : Nat) : List W32 :=
  c.members.filter (fun w => sitePkg w != pkg)

/-- Aborts a group on every package (R394). A member here whose data the command has and that runs no
command has completed. -/
def State.abortAll (s : State) (c : ACmd) : State :=
  (List.range c.members.length).foldl (fun s r =>
    let w := c.members.getD r 0
    if sitePkg w = s.pkg then s.collAbort c.prt c.gtag c.rank c.me w (c.got.any (fun x => x.1 == r))
    else s.sendFrom c.prt (sitePkg w) .collective
      (.collAbort c.gtag c.rank c.me w (c.got.any (fun x => x.1 == c.rank)))) s

/-- What a member word of this package ends a command with (R84): REVOKED for a unit past its drain point that
no entry covers, ACCESS for an engine the partition does not own. -/
def State.memberFault (s : State) (q : Nat) (w : W32) : Option (Nat × W64) :=
  if s.siteRevoked q w then some (cREVOKED, w.setWidth 64)
  else
    match sitePkg w == s.pkg, siteName (s.relocate q w) with
    | true, .engine m _ => if s.ownsCluster q m then none else some (cACCESS, w.setWidth 64)
    | _, _ => none

/-- Reads the group descriptor (R394): N, RANK, GTAG and the member SITE words. -/
def State.readGroup (s : State) (c : ACmd) : Except (Nat × W64) (Option ACmd) :=
  match s.agentRead c.agent c.aux0.toNat 64 with
  | .error e => .error e
  | .ok l =>
    let n := q8 l 0 % 65536
    let rank := q8 l 0 / 65536 % 65536
    if n < 1 ∨ 256 < n ∨ n ≤ rank ∨ q8 l 0 / 2 ^ 32 ≠ 0 ∨ (l.drop 24).any (fun b => b != 0) then
      .ok none
    else
      match s.agentRead c.agent (q8 l 16) (4 * n) with
      | .error e => .error e
      | .ok ms =>
        let mem := (List.range n).map (fun i => BitVec.ofNat 32 (leNat ((ms.drop (4 * i)).take 4)))
        let own := s.relocate c.prt (mem.getD rank 0)
        match mem.findSome? (s.memberFault c.prt) with
        | some e => .error e
        | none =>
        if sitePkg own = s.pkg ∧ siteName own = .engine c.cluster 2 then
          .ok (some { c with n := n, rank := rank, gtag := BitVec.ofNat 64 (q8 l 8), members := mem })
        else .ok none

/-- The command with the members of its group, which one that has not joined yet reads now. -/
def State.collGroup (s : State) (c : ACmd) : ACmd :=
  if c.op ≠ 3 ∨ c.sent then c
  else match s.readGroup c with | .ok (some g) => { g with sent := true } | _ => c

/-- ACOLLs that stop abort their groups: every other member completes with MISMATCH (R396). -/
def State.stopColls (s : State) (cs : List ACmd) : State :=
  (cs.filter (fun c => c.op == 3 && !c.ended)).foldl (fun s c =>
    let g := s.collGroup c
    if g.sent then (s.setCmd g).abortAll g else s) s

/-! ## Matrix tiles whose work goes -/

/-- The step has consumed its lines, or has been stopped: each moves to the slice of the present hash
(R99). -/
def State.unpin (s : State) (m : Nat) : State :=
  let cl := s.clu m
  cl.pins.foldl (fun s b => s.findBlock (clusterDie m) b) (s.setClu m { cl with pins := [] })

/-- A queue of the tile has changed: the arbiter, the drains, tasks held back by a drain row and an arm
that waits for the tile look again (R193, R207, R213). -/
def State.pokeTile (s : State) (m : Nat) : State :=
  let s := (s.post (.kStepGrant m)).post (.drainRowStart m)
  let s := (List.range 8).foldl (fun s k =>
    if (s.core (8 * m + k)).queue.isEmpty then s else s.post (.taskDispatch (8 * m + k))) s
  s.regions.foldl (fun s e =>
    if e.2.arming then s.post (.regionArm (e.1 / 4096) (e.1 % 4096)) else s) s

/-- Async commands and queued matrix commands stop without a completion (R130, R396); the tiles they leave
go on with what remains. -/
def State.stopCommands (s : State) (fa : ACmd → Bool) (fm : MxCmd → Bool) : State :=
  let hit := s.clusters.filter (fun e => e.2.queues.any (fun k => k.2.any fm))
  let s := s.stopColls (s.acmds.filter fa)
  let s := { s with
    acmds := s.acmds.filter (fun c => !fa c)
    clusters := s.clusters.map (fun (e : Nat × Cluster) => (e.1, { e.2 with
      queues := e.2.queues.map (fun (k : Nat × List MxCmd) => (k.1, k.2.filter (fun c => !fm c))) })) }
  hit.foldl (fun s e =>
    let ran := e.2.queues.any (fun k => k.2.any (fun c => c.granted && fm c))
    (if ran then s.unpin e.1 else s).pokeTile e.1) s

end Sys2Proof.Machine
end

