-- ==== Sys2Proof/Machine/Ops.lean ====
section
/-!
DEFINITION. Shared operations of a thread's instructions: taking a trap, ending a thread by a
fault, returning from a trap (09 R254 to R260), user-level interrupts (07 R200), waiting for a walk
(09 R246), accumulator locks (07 R209), and one memory access (12 R331, 08 R232 to R240).
-/

namespace Sys2Proof.Machine

open Sys2Proof

/-! ## Traps -/

/-- The slot of a context: a spilled context keeps its own (R266). -/
def Prt.ctxSlot (p : Prt) (ctx : Nat) : Nat :=
  if ctx < 2 then ctx
  else match p.spills.find? (fun e => e.id + 2 == ctx) with | some e => e.slot | none => 0

def Prt.tvec (p : Prt) (ctx : Nat) : W64 := if p.ctxSlot ctx = 0 then p.tvec0 else p.tvec1

/-- TEPC of a trap (R254): the next instruction for BREAK and SVC, else the instruction. -/
def trapPc (th : Thread) (cause : Nat) : W64 :=
  if cause = cBREAK ∨ cause = cSVC then th.pc + 4 else th.pc

/-- The commands of a thread stop with its unit (R130). -/
def State.stopOf (s : State) (t : Nat) : State :=
  let life := (s.thread t).life
  s.stopCommands (fun c => c.tid == t && c.life == life) (fun c => c.tid == t && c.life == life)

/-- KILL_THREAD (R257): the thread record, the comparator of class 2, and the end of the thread as by a
cancel of its unit with FAULT: its commands stop, and the unit counts FAULTED with reason UNIT. -/
def State.killThread (s : State) (w : W32) (cause : Nat) (tval : W64) : State :=
  let th := s.thr
  let site := slotSite s.pkg (s.tid % 65536)
  let s := s.faultRecord th.prt site (threadRecord site w cause th.lslot tval (trapPc th cause))
  let s := s.debugEvent 2 cause (some site)
  (s.stopOf s.tid).endThread s.tid .faulted rUNIT

/-- TRAP_ENTRY (R256): `w` is the instruction's word, `detail` bits [11:8] of TCAUSE. -/
def State.takeTrap (s : State) (w : W32) (cause : Nat) (tval : W64) (detail : Nat) : State :=
  let th := s.thr
  let vec := (s.prt th.prt).tvec th.ctx
  if th.intrap ∨ vec.toNat / 4 = 0 then s.killThread w cause tval
  else
    let s := s.debugEvent 2 cause (some (slotSite s.pkg (s.tid % 65536)))
    s.setThr { th with
      tepc := trapPc th cause
      tcause := BitVec.ofNat 64 (cause + detail % 16 * 2 ^ 8 + b2n (!th.sup) * 2 ^ 16)
      tval := tval
      prev := th.sup
      tRlx := BitVec.ofNat 4 th.rlx
      intrap := true
      rlx := 0
      sup := true
      st := .ready
      filled := false
      atHome := false
      poll := false
      wfault := []
      fills := []
      pc := BitVec.ofNat 64 (vec.toNat / 4 * 4) }

/-- The return of R256: pc, privilege and relaxed count come back and INTRAP clears. -/
def State.trapReturn (s : State) : State :=
  let th := s.thr
  s.setThr { th with pc := th.tepc, sup := th.prev, rlx := Nat.min 8 th.tRlx.toNat
                     intrap := false, st := .ready }

/-- An ILL or PRIV trap of an instruction: TVAL holds its word. -/
def State.illegal (s : State) (w : W32) : State := s.takeTrap w cILL (w.setWidth 64) 0
def State.privileged (s : State) (w : W32) : State := s.takeTrap w cPRIV (w.setWidth 64) 0

/-- SUBNORM_TRAP (R260): at user privilege with SNEN 1. With UIIN 0 the SNVEC handler is entered on
the same thread; with UIIN 1 the trap goes through TVEC. -/
def State.subnormTrap (s : State) (w : W32) : State :=
  let th := s.thr
  if th.uiin then s.takeTrap w cSUBNORM (w.setWidth 64) 0
  else
    let s := s.debugEvent 2 cSUBNORM (some (slotSite s.pkg (s.tid % 65536)))
    s.setThr { th with
      uiepc := (th.pc + 4) &&& ~~~3
      uicause := 0x8000000000000007
      uiRlx := BitVec.ofNat 4 th.rlx
      rlx := 0
      uiin := true
      uiSup := false
      h := (th.h.put 0 7 th.pc).put 0 6 (w.setWidth 64)
      pc := BitVec.ofNat 64 (th.snvec.toNat / 4 * 4) }

/-! ## User-level interrupts (R200) -/

def Thread.uiReady (t : Thread) : Bool := bitAt t.uivec 0 && !t.uiin && !t.uiPend.isEmpty

/-- R200: the oldest pending record is taken; the handler's first instruction issues next, at user
privilege (R201), and UIRET gives the interrupted privilege back (log 50). -/
def State.takeUi (s : State) : State :=
  let th := s.thr
  match th.uiPend with
  | [] => s
  | tag :: rest =>
    let s := s.withdraw s.tid
    s.setThr { th with
      uiPend := rest
      uiepc := th.pc &&& ~~~3
      uicause := tag
      uiRlx := BitVec.ofNat 4 th.rlx
      rlx := 0
      uiin := true
      uiSup := th.sup
      sup := false
      st := .ready
      atHome := false
      poll := false
      awaits := []
      wfault := []
      fills := []
      wiWait := false
      wi := 0
      pc := BitVec.ofNat 64 (th.uivec.toNat / 4 * 4) }

/-! ## Waits -/

/-- The thread waits; `poll` when its own turn looks at the condition again. -/
def State.waitIn (s : State) (st : SlotSt) (poll : Bool) : State :=
  s.setThr { s.thr with st := st, poll := poll, atHome := false }

/-- R246: the thread waits in WALK. Walks for the same page and ASID merge. -/
def State.startWalk (s : State) (va : Nat) (fetch wr : Bool) : State :=
  let th := s.thr
  let m := s.tid / 128
  let cl := s.clu m
  let pg := va % 2 ^ 56 / 4096
  let me := (s.tid, fetch, wr, false)
  let ws :=
    if cl.walks.any (fun w => w.prt == th.prt && w.asid == th.asid && w.root == th.root &&
        w.va == pg) then
      cl.walks.map (fun w =>
        if w.prt = th.prt ∧ w.asid = th.asid ∧ w.root = th.root ∧ w.va = pg then
          { w with who := if w.who.any (fun x => x.1 == s.tid) then w.who else w.who ++ [me] }
        else w)
    else
      cl.walks ++ [{ prt := th.prt, asid := th.asid, root := th.root, va := pg
                     gen := (s.prt th.prt).genIssued, who := [me] }]
  ((s.setClu m { cl with walks := ws }).waitIn .walk false).post (.pageWalkDone m)

/-! ## Accumulator locks (R209) -/

/-- Bytes [lo, hi) of the carve-out that a command or drain locks: whole 2 KiB granules. -/
def MxCmd.span (c : MxCmd) : Nat × Nat :=
  if c.drain then
    let m := fld c.dword 23 18 + 1
    let row := if fld c.dword 25 24 = 1 then 128 else 256
    let lo := fld c.dword 6 0 * 2048
    (lo, lo + (m * row + 2047) / 2048 * 2048)
  else
    let m := fld c.shape 5 0 + 1
    let row := if fld c.shape 51 48 = 0 then 128 else 256
    (c.off, c.off + (m * row + 2047) / 2048 * 2048)

def MxFab.span (f : MxFab) : Nat × Nat :=
  let w0 := f.ws.getD 0 0
  let w1 := f.ws.getD 1 0
  let m := fld w1 31 26 + 1
  let row := if fld w0 28 25 = 0 then 128 else 256
  let lo := fld w1 19 13 * 2048
  (lo, lo + (m * row + 2047) / 2048 * 2048)

/-- The pool bytes of a drain row (R389). -/
def MxCmd.rowSpan (c : MxCmd) (row : Nat) : Nat × Nat :=
  let rb := if fld c.dword 25 24 = 1 then 128 else 256
  let lo := fld c.dword 6 0 * 2048 + row * rb
  (lo, lo + rb)

/-- R209: a pool access of thread `t` meets a locked granule, other than a drain handler's access
to its own row. -/
def State.accLocked (s : State) (t : Nat) (p : Part) : Bool :=
  if !isPool p.pa then false
  else
    let c := (p.pa - poolWin) / 0x40000
    let meets (x : Nat) (lw : Option Win) (lo hi : Nat) : Bool :=
      let b := (lw.getD (s.win c x)).acc
      decide (x < 2) && decide (b + lo < p.pa + p.n) && decide (p.pa < b + hi)
    let own (cmd : MxCmd) : Bool :=
      match (s.thread t).row with
      | some (id, row) =>
        let b := (cmd.lw.getD (s.win c cmd.ctx)).acc
        let (lo, hi) := cmd.rowSpan row
        cmd.drain && cmd.id == id && decide (b + lo ≤ p.pa) && decide (p.pa + p.n ≤ b + hi)
      | none => false
    let q := (s.clu (c / 8)).queues.look [] (c % 8)
    let hits := q.filter (fun cmd => meets cmd.ctx cmd.lw cmd.span.1 cmd.span.2)
    (match hits with
     | [] => false
     | h :: _ => !own h) ||
    s.regions.any (fun e => e.2.armed && e.2.mxs.any (fun f =>
      f.cluster == c / 8 && !f.ws.isEmpty && fld (f.ws.getD 0 0) 16 14 == c % 8 &&
        meets e.2.ctx none f.span.1 f.span.2))

/-- R84: a SITE word of a unit past its drain point that no relocation entry covers raises REVOKED. -/
def State.revokes (s : State) (w site : W32) (k : State → State) : State :=
  if s.siteRevoked s.thr.prt site then s.takeTrap w cREVOKED (site.setWidth 64) 0 else k s

/-! ## One memory access (R331) -/

/-- The first part that returns data with an uncorrectable error: its index. -/
def State.poisonAt (s : State) : List Part → Nat → Option Nat
  | [], _ => none
  | p :: r, i => if s.poisoned p.pa p.n then some i else s.poisonAt r (i + p.n)

/-- MEMERR (R254): the access address, or the second part's when a line crossing split it (R240). -/
def memErrAt (va n i : Nat) : Nat × Nat :=
  let k := 128 - va % 128
  if k < n ∧ k ≤ i then ((va + k) % 2 ^ 64, 8) else (va, 0)

/-- Parts that cross an aligned 128-byte line are two accesses (R240). -/
def splitLine (p : Part) : List Part :=
  let k := 128 - p.pa % 128
  if k < p.n then [{ p with n := k }, { p with pa := p.pa + k, n := p.n - k, dpa := p.dpa + k }] else [p]

/-- Parts of a load, each split at lines, for the check of its data. -/
def lineParts (ps : List Part) : List Part := ps.flatMap splitLine

/-- The checks of one access at `va` and what follows them: a walk, a trap, a retry of a locked
granule, or `k` on the homes. Where only the second of its two accesses faults, the first is performed
by `h` (R240). -/
def State.access (s : State) (w : W32) (ak : AccKind) (va n : Nat) (k : List Part → State → State)
    (h : Part → State → State := fun _ s => s) : State :=
  match s.xlate s.tid ak va n with
  | .miss v => s.startWalk v ak.ex ak.wr
  | .fault c d tv => s.takeTrap w c tv d
  | .half p c d tv =>
    if s.accLocked s.tid p then s.waitIn .retry true
    else (h p (s.touch s.tid va n)).takeTrap w c tv d
  | .ok ps =>
    if ps.any (s.accLocked s.tid) then s.waitIn .retry true
    -- A home behind a stopped clock answers when the clock runs again (R20).
    else if !ps.all (fun p => s.reaches (clusterDie (s.tid / 128)) p.pa) then s.waitIn .memory true
    else
      let s := s.touch s.tid va n
      match (if ak.rd && !ak.noData then s.poisonAt (lineParts ps) 0 else none) with
      | some i =>
        let (a, d) := memErrAt va n i
        s.takeTrap w cMEMERR (BitVec.ofNat 64 a) (d + ak.detail)
      | none => k ps s

/-- R232: the instruction takes one of the relaxed count. -/
def State.countRlx (s : State) : State :=
  s.setThr { s.thr with rlx := s.thr.rlx - 1 }

/-- Whether this memory instruction is relaxed: within the count, its ordering bit clear. -/
def Thread.relaxed (t : Thread) (ord : Bool) : Bool := decide (0 < t.rlx) && !ord

/-- A relaxed access becomes outstanding; a ninth waits in MEMORY (R232). -/
def State.issueRlx (s : State) (r : Rlx) : State :=
  let th := s.thr
  if 8 ≤ th.rlxOut.length then s.waitIn .memory true
  else
    let s := s.setThr { th with rlxOut := th.rlxOut ++ [r], rlx := th.rlx - 1 }
    s.adv.post (.memoryReply s.tid 0)

/-- The scope code of MSCOPE; 6 and 7 act as 5 (R228). -/
def Thread.scope (t : Thread) : Nat := Nat.min 5 t.mscope.toNat

/-- "Released at scope S" (R375, R233): every earlier access of the thread is performed at S. -/
def State.release (s : State) (scope : Nat) : State :=
  (s.performAll s.tid).releaseAt (clusterDie (s.tid / 128)) scope

/-- "Acquires at scope S" (R375, R233). -/
def State.acquire (s : State) (scope : Nat) : State := s.acquireAt (s.tid / 128) scope

/-- A load of `n` bytes at `va` into `d`; `acq` makes it an acquire at MSCOPE (R332, R333). -/
def State.doLoad (s : State) (w : W32) (va n : Nat) (sx acq : Bool) (d : Dest) : State :=
  s.access w .load va n (fun ps s =>
    if s.thr.relaxed acq then s.issueRlx ⟨.load sx d, ps, n⟩
    else
      let s := s.countRlx.performOverlap s.tid ps
      let s := if acq then s.acquire s.thr.scope else s
      let (x, s) := s.loadParts (s.tid / 128) acq (lineParts ps)
      (s.setThr (s.thr.setDest d (loadExt sx n x))).adv)

/-- A store of `n` bytes; `rel` makes it a release at MSCOPE (R332, R333). -/
def State.doStore (s : State) (w : W32) (va n : Nat) (x : V256) (rel : Bool) : State :=
  s.access w .store va n (fun ps s =>
    if s.thr.relaxed rel then s.issueRlx ⟨.store x, ps, n⟩
    else
      let s := s.countRlx.performOverlap s.tid ps
      let s := if rel then s.release s.thr.scope else s
      let s := s.storeParts (s.tid / 128) rel (lineParts ps) x.toNat
      ((if rel then s.releaseAt (clusterDie (s.tid / 128)) s.thr.scope else s).serveParts ps).adv)
    (fun p s =>
      let s := s.performOverlap s.tid [p]
      let s := if rel then s.release s.thr.scope else s
      (s.storeParts (s.tid / 128) rel [p] x.toNat).serveParts [p])

/-- R240: a misaligned atomic or full-empty access traps ALIGN and performs nothing. -/
def State.aligned (s : State) (w : W32) (ak : AccKind) (va n : Nat) (k : Unit → State) : State :=
  if va % n = 0 then k () else s.takeTrap w cALIGN (BitVec.ofNat 64 va) ak.detail

/-- An atomic's checks and its single part at the home (R344). -/
def State.atomically (s : State) (w : W32) (ak : AccKind) (va n : Nat) (k : Part → State → State) :
    State :=
  s.aligned w ak va n (fun _ =>
    s.access w ak va n (fun ps s =>
      match ps with
      | [p] => k p s
      | _ => s))

/-- Orders an atomic or full-empty access: the count, the release before it. -/
def State.beforeAtomic (s : State) (p : Part) (rel : Bool) : State :=
  let s := s.countRlx.performOverlap s.tid [p]
  if rel then s.release s.thr.scope else s

/-- What follows it: waiters of the word, the acquire, the next instruction. -/
def State.afterAtomic (s : State) (p : Part) (acq : Bool) : State :=
  let s := s.serveWord (p.pa / 8 * 8)
  (if acq then s.acquire s.thr.scope else s).adv

/-! ## Reading a record for an instruction (R375) -/

/-- Reads `n` bytes as a load; `k` gets them. Nothing else has happened when a fault is raised. -/
def State.readRecord (s : State) (w : W32) (va n : Nat) (k : List Byte → State → State) : State :=
  s.access w .record va n (fun ps s =>
    let s := s.performOverlap s.tid ps
    k (ps.flatMap (fun p => leBytes p.n (s.readPart (s.tid / 128) true p))) s)

end Sys2Proof.Machine
end

