-- ==== Sys2Proof/Machine/Flags.lean ====
section
/-!
DEFINITION. The flag computations of thread instructions: FFLAGS (10 R285, 13 R348), the check of
subnormal operands (13 R349), and the truth of conditions (12 R324, R325).
-/

namespace Sys2Proof.Machine

open Sys2Proof

/-- ORs raised flags into FFLAGS (R285). -/
def State.orFlags (s : State) (f : BitVec 5) : State :=
  s.setThr { s.thr with fflags := s.thr.fflags ||| f }

/-- R349: a checked instruction with a subnormal operand traps at user privilege with SNEN 1; it
then writes nothing and ORs no flag. -/
def State.checkSub (s : State) (w : W32) (sub : Bool) (k : Unit → State) : State :=
  if sub && !s.thr.sup && bitAt s.thr.snvec 0 then s.subnormTrap w else k ()

/-- Any of the operands is subnormal in the format. -/
def anySub (f : Fmt) (xs : List Nat) : Bool := f.isFloat && xs.any (FP.isSub f)

/-- Writes a scalar result and its flags (R346, R348). -/
def State.finF (s : State) (d : GReg) (r : Nat × FP.Flags) : State :=
  (s.orFlags r.2).fin d (BitVec.ofNat 64 r.1)

/-- Writes a packed result and the OR of its lanes' flags (R359). -/
def State.finV (s : State) (d : VReg) (x : Nat) (f : FP.Flags) : State :=
  ((s.orFlags f).setV d (BitVec.ofNat 256 x)).adv

/-- The OR of lane flags. -/
def orAll (l : List (Nat × FP.Flags)) : FP.Flags := l.foldl (fun f r => f ||| r.2) 0

/-- The condition codes of R324. -/
def condHolds (cc : Cond) (x y : W64) : Bool :=
  match cc with
  | .eq => decide (x = y)
  | .ne => decide (x ≠ y)
  | .lt => x.slt y
  | .ge => !x.slt y
  | .ltn => x.ult y
  | .gen => !x.ult y

/-- The truth table of PLOG (R325). -/
def tableBit (tt : BitVec 4) (a b : Bool) : Bool := bitAt tt (2 * b2n a + b2n b)

end Sys2Proof.Machine
end

