-- ==== Sys2Proof/Machine/Packed.lean ====
section
/-!
DEFINITION. Packed instructions (13 R359 to R373). A packed value is a number of 256 bits; its lanes
are those of R143.
-/

namespace Sys2Proof.Machine

open Sys2Proof

/-! ## Lane loops (R359) -/

/-- The lanes of a packed register of `w`-bit elements, lane 0 first. -/
def vlanes (w : Nat) (x : V256) : List Nat := lanesOf w (256 / w) x.toNat

/-- Lane i of the result is `f va[i] vb[i] vd[i]`; all sources are read first. -/
def State.vmap (s : State) (vd va vb : VReg) (w : Nat) (f : Nat → Nat → Nat → Nat × FP.Flags) :
    State :=
  let x := (s.v va).toNat
  let y := (s.v vb).toNat
  let z := (s.v vd).toNat
  let rs := (List.range (256 / w)).map (fun i => f (lane w x i) (lane w y i) (lane w z i))
  s.finV vd (ofLanes w (rs.map (·.1))) (orAll rs)

/-- Any lane of a float type is subnormal. -/
def vsub? (ty : ETy) (xs : List V256) : Bool :=
  ty.isFloat && xs.any (fun x => (vlanes ty.width x).any (FP.isSub ty.fmt))

/-- A lane operation, checked for subnormals (R349). -/
def State.vop (s : State) (w : W32) (vd va vb : VReg) (ty : ETy) (srcs : List V256)
    (f : Nat → Nat → Nat → Nat × FP.Flags) : State :=
  s.checkSub w (vsub? ty srcs) (fun _ => s.vmap vd va vb ty.width f)

def satU (x : Int) (w : Nat) : Nat := if x < 0 then 0 else Nat.min x.toNat (2 ^ w - 1)

/-! ## Arithmetic (R361, R362) -/

/-- VADD (R361): modifier 0 wraps, 1 saturates signed, 2 unsigned. -/
def execVadd (vd va vb : VReg) (ty : ETy) (rm : Rm) (md : BitVec 2) (s : State) :
    Host.Outcome State Fault Refusal :=
  let w := ty.width
  .next (s.vop (wordOf (.vadd vd va vb ty rm md)) vd va vb ty [s.v va, s.v vb] (fun a b _ =>
    if ty.isFloat then FP.add ty.fmt rm a b
    else
      match md.toNat with
      | 0 => ((a + b) % 2 ^ w, 0)
      | 1 => (FP.wrapInt w (satS (sInt w a + sInt w b) w), 0)
      | _ => (satU ((a : Int) + b) w, 0)))

/-- VSUB (R361). -/
def execVsub (vd va vb : VReg) (ty : ETy) (rm : Rm) (md : BitVec 2) (s : State) :
    Host.Outcome State Fault Refusal :=
  let w := ty.width
  .next (s.vop (wordOf (.vsub vd va vb ty rm md)) vd va vb ty [s.v va, s.v vb] (fun a b _ =>
    if ty.isFloat then FP.sub ty.fmt rm a b
    else
      match md.toNat with
      | 0 => (FP.wrapInt w ((a : Int) - b), 0)
      | 1 => (FP.wrapInt w (satS (sInt w a - sInt w b) w), 0)
      | _ => (satU ((a : Int) - b) w, 0)))

/-- VMUL (R361): modifier 0 the low half, 1 the signed high half, 2 the unsigned one. -/
def execVmul (vd va vb : VReg) (ty : ETy) (rm : Rm) (md : BitVec 2) (s : State) :
    Host.Outcome State Fault Refusal :=
  let w := ty.width
  .next (s.vop (wordOf (.vmul vd va vb ty rm md)) vd va vb ty [s.v va, s.v vb] (fun a b _ =>
    if ty.isFloat then FP.mul ty.fmt rm a b
    else
      match md.toNat with
      | 0 => (a * b % 2 ^ w, 0)
      | 1 => (FP.wrapInt w (sInt w a * sInt w b / 2 ^ w), 0)
      | _ => (a * b / 2 ^ w, 0)))

/-- VFMA (R361): order a, b, c with c the old lane of vd. -/
def execVfma (vd va vb : VReg) (ty : ETy) (rm : Rm) (md : BitVec 2) (s : State) :
    Host.Outcome State Fault Refusal :=
  let w := ty.width
  .next (s.vop (wordOf (.vfma vd va vb ty rm md)) vd va vb ty [s.v va, s.v vb, s.v vd]
    (fun a b c =>
      if ty.isFloat then FP.fma ty.fmt rm a b c
      else if md = 0 then ((a * b + c) % 2 ^ w, 0)
      else (FP.wrapInt w (satS (sInt w a * sInt w b + sInt w c) w), 0)))

/-- The smaller or larger of two lanes (R362). -/
def laneMinMax (ty : ETy) (isMax unsigned : Bool) (a b : Nat) : Nat × FP.Flags :=
  let w := ty.width
  if ty.isFloat then FP.minmax ty.fmt isMax a b
  else
    let lt := if unsigned then decide (a < b) else decide (sInt w a < sInt w b)
    (if lt != isMax then a else b, 0)

/-- VMIN (R362). -/
def execVmin (vd va vb : VReg) (ty : ETy) (md : BitVec 2) (s : State) :
    Host.Outcome State Fault Refusal :=
  .next (s.vmap vd va vb ty.width (fun a b _ => laneMinMax ty false (md == 1) a b))

/-- VMAX (R362). -/
def execVmax (vd va vb : VReg) (ty : ETy) (md : BitVec 2) (s : State) :
    Host.Outcome State Fault Refusal :=
  .next (s.vmap vd va vb ty.width (fun a b _ => laneMinMax ty true (md == 1) a b))

/-! ## Dot products (R363) -/

/-- The format of VDOT's result lanes. -/
def dotFmt : ETy → Fmt
  | .f32 => .f64
  | _ => .f32

/-- One result lane of an integer VDOT: `k` products of `w`-bit lanes. -/
def dotInt (w k : Nat) (md : BitVec 2) (x y z i : Nat) : Nat :=
  let rd (signed : Bool) (v : Nat) : Int := if signed then sInt w v else v
  let sum := (List.range k).foldl (fun (t : Int) j =>
    t + rd (md == 0) (lane w x (k * i + j)) * rd (md != 2) (lane w y (k * i + j))) 0
  FP.wrapInt (k * w) (sum + sInt (k * w) (lane (k * w) z i))

/-- VDOT (R363): the sum of a lane's products and the old lane, exact and rounded once. -/
def execVdot (vd va vb : VReg) (ty : ETy) (rm : Rm) (md : BitVec 2) (s : State) :
    Host.Outcome State Fault Refusal :=
  let x := (s.v va).toNat
  let y := (s.v vb).toNat
  let z := (s.v vd).toNat
  let w := ty.width
  .next (
    if ty.isFloat then
      let g := dotFmt ty
      let sub := vsub? ty [s.v va, s.v vb] ||
        (vlanes g.width (s.v vd)).any (FP.isSub g)
      s.checkSub (wordOf (.vdot vd va vb ty rm md)) sub (fun _ =>
        let rs := (List.range (256 / g.width)).map (fun i =>
          FP.dotRound ty.fmt g rm
            [(lane w x (2 * i), lane w y (2 * i)), (lane w x (2 * i + 1), lane w y (2 * i + 1))]
            (some (lane g.width z i)))
        s.finV vd (ofLanes g.width (rs.map (·.1))) (orAll rs))
    else
      s.finV vd (ofLanes (4 * w) ((List.range (64 / w)).map (dotInt w 4 md x y z))) 0)

/-! ## Conversion (R365, R366) -/

/-- One element from format f to format g, neither of them B4 (R286). -/
def cvtElem (f g : Fmt) (rm : Rm) (sat : Bool) (x : Nat) : Nat × FP.Flags :=
  if f.isFloat then
    if g.isFloat then FP.cvt f g rm sat x
    else
      let r := FP.toInt f g rm x
      (FP.wrapInt g.width r.1, r.2)
  else if g.isFloat then FP.ofInt g rm sat (FP.readInt f x)
  else (FP.wrapInt g.width (FP.readInt f x), 0)

/-- One code of a block with scale byte `sb` into format g; an integer format is reached from the
exact FP64 value (R281, R286, log 18). -/
def cvtB4 (g : Fmt) (rm : Rm) (sat : Bool) (sb c : Nat) : Nat × FP.Flags :=
  if g.isFloat then FP.b4Decode g rm sat sb c
  else
    let r := FP.b4Decode .f64 rm false sb c
    let t := cvtElem .f64 g rm sat r.1
    (t.1, r.2 ||| t.2)

/-- Element i of a register group (R366). -/
def Thread.groupElem (t : Thread) (base : VReg) (f : Fmt) (i : Nat) : Nat :=
  lane f.width (t.readV (base.toNat + i / f.perReg)).toNat (i % f.perReg)

/-- The registers of a group of results, E elements each. -/
def packGroup (w per n : Nat) (xs : List Nat) : List Nat :=
  (List.range n).map (fun r => ofLanes w ((xs.drop (r * per)).take per))

/-- Writes a group of registers and the flags. -/
def State.finGroup (s : State) (vd : VReg) (xs : List Nat) (f : FP.Flags) : State :=
  let th := (List.range xs.length).foldl (fun (t : Thread) i =>
    t.writeV (vd.toNat + i) (BitVec.ofNat 256 (xs.getD i 0))) s.thr
  ((s.setThr th).orFlags f).adv

/-- The conversion of R365 and R366 from format f to format g. -/
def State.vconvert (s : State) (w : W32) (vd va : VReg) (f g : Fmt) (rm : Rm) (sat : Bool)
    (bty : Nat) : State :=
  let n := Nat.max f.perReg g.perReg
  let xs := (List.range n).map (s.thr.groupElem va f)
  s.checkSub w (f.isFloat && xs.any (FP.isSub f)) (fun _ =>
    match f, g with
    | .b4, g =>
      let sb := lane 8 (s.v va).toNat 16
      let rs := xs.map (cvtB4 g rm sat sb)
      s.finGroup vd (packGroup g.width g.perReg (n / g.perReg) (rs.map (·.1))) (orAll rs)
    | f, .b4 =>
      let ds := if f = .f64 then xs.map (fun x => (x, (0 : FP.Flags)))
        else xs.map (cvtElem f .f64 rm false)
      let (codes, sb, fl) := FP.b4Encode bty rm (ds.map (·.1))
      s.finGroup vd [ofLanes 4 codes + 2 ^ 128 * (sb % 256)] (orAll ds ||| fl)
    | f, g =>
      let rs := xs.map (cvtElem f g rm sat)
      s.finGroup vd (packGroup g.width g.perReg (n / g.perReg) (rs.map (·.1))) (orAll rs))

/-- VCVT with a named source type (R365, D 0). -/
def execVcvt (vd va : VReg) (g : Fmt) (ty : ETy) (rm : Rm) (sat : Bool) (s : State) :
    Host.Outcome State Fault Refusal :=
  .next (s.vconvert (wordOf (.vcvt vd va g ty rm sat)) vd va ty.fmt g rm sat 0)

/-- A descriptor that R276 admits: its format. -/
def descFmt (d : W16) : Option Fmt :=
  if fld d 15 13 = 0 ∧ bitAt d 6 = false then Enc.fmtOf (BitVec.ofNat 4 (fld d 3 0)) else none

def rmOf (n : Nat) : Rm :=
  match n with | 0 => .rne | 1 => .rtz | 2 => .rdn | _ => .rup

/-- VCVT with a source descriptor (R365, D 1): ILL for a descriptor R276 rejects, a destination of
the same format, or groups that do not fit (R366). -/
def execVcvtDesc (vd va : VReg) (g : Fmt) (k : BitVec 2) (s : State) :
    Host.Outcome State Fault Refusal :=
  let w := wordOf (.vcvtDesc vd va g k)
  let d := s.thr.ftk k.toNat
  match descFmt d with
  | none => .next (s.illegal w)
  | some f =>
    if f = g ∨ cvtFits vd va f g = false then .next (s.illegal w)
    else .next (s.vconvert w vd va f g (rmOf (fld d 5 4)) (bitAt d 7) (fld d 12 11))

/-- VSCALE (R364): va[i] × 2^k, k a signed lane of vb, lane 0 for all with `.bc`. -/
def execVscale (vd va vb : VReg) (ty : ETy) (rm : Rm) (bc : Bool) (s : State) :
    Host.Outcome State Fault Refusal :=
  let w := ty.width
  let k0 := lane w (s.v vb).toNat 0
  .next (s.vop (wordOf (.vscale vd va vb ty rm bc)) vd va vb ty [s.v va] (fun a b _ =>
    FP.scale ty.fmt rm a (sInt w (if bc then k0 else b))))

/-! ## Permutation, selection, comparison (R367 to R371) -/

/-- VSHUF (R367). -/
def execVshuf (vd va vb : VReg) (ty : ETy) (z : Bool) (s : State) :
    Host.Outcome State Fault Refusal :=
  let w := ty.width
  let n := ty.lanes
  let x := (s.v va).toNat
  let old := (s.v vd).toNat
  .next (s.vmap vd va vb w (fun _ b _ =>
    let t := b % (2 * n)
    (if z && nbit b (w - 1) then 0 else if t < n then lane w x t else lane w old (t - n), 0)))

/-- VBCAST (R368). -/
def execVbcast (vd va : VReg) (k : BitVec 5) (ty : ETy) (s : State) :
    Host.Outcome State Fault Refusal :=
  let w := ty.width
  let x := lane w (s.v va).toNat k.toNat
  .next (s.vmap vd va va w (fun _ _ _ => (x, 0)))

/-- VSEL (R369): the old lane's top bit chooses va. -/
def execVsel (vd va vb : VReg) (ty : ETy) (s : State) : Host.Outcome State Fault Refusal :=
  .next (s.vmap vd va vb ty.width (fun a b c => (if nbit c (ty.width - 1) then a else b, 0)))

/-- The condition of VCMP on one lane and its flags (R370). -/
def vcmpLane (ty : ETy) (cc : BitVec 2) (a b : Nat) : Bool × FP.Flags :=
  let w := ty.width
  if ty.isFloat then
    match cc.toNat with
    | 0 => FP.fcmp ty.fmt 0 false a b
    | 1 => FP.fcmp ty.fmt 2 true a b
    | 2 => FP.fcmp ty.fmt 3 true a b
    | _ => FP.fcmp ty.fmt 6 false a b
  else
    match cc.toNat with
    | 0 => (a == b, 0)
    | 1 => (decide (sInt w a < sInt w b), 0)
    | _ => (decide (a < b), 0)

/-- VCMP (R370): all ones where the condition holds. -/
def execVcmp (vd va vb : VReg) (ty : ETy) (cc : BitVec 2) (s : State) :
    Host.Outcome State Fault Refusal :=
  .next (s.vmap vd va vb ty.width (fun a b _ =>
    let r := vcmpLane ty cc a b
    (if r.1 then 2 ^ ty.width - 1 else 0, r.2)))

/-- VLOG (R371): and, or, xor, and-not over 256 bits. -/
def execVlog (vd va vb : VReg) (op : BitVec 2) (s : State) : Host.Outcome State Fault Refusal :=
  let x := s.v va
  let y := s.v vb
  let r := match op.toNat with | 0 => x &&& y | 1 => x ||| y | 2 => x ^^^ y | _ => x &&& ~~~y
  .next (s.setV vd r).adv

/-- VSHIFT (R371): the count is vb[i] mod the lane width. -/
def execVshift (vd va vb : VReg) (ty : ETy) (op : BitVec 2) (s : State) :
    Host.Outcome State Fault Refusal :=
  let w := ty.width
  .next (s.vmap vd va vb w (fun a b _ =>
    let n := b % w
    (match op.toNat with
     | 0 => a * 2 ^ n % 2 ^ w
     | 1 => a / 2 ^ n
     | _ => FP.wrapInt w (sInt w a / 2 ^ n), 0)))

/-! ## Reduction (R372) -/

/-- One stage of the tree: neighbours are combined. -/
def redStage (op : Nat → Nat → Nat × FP.Flags) : List Nat → List Nat × FP.Flags
  | a :: b :: r =>
    let x := op a b
    let y := redStage op r
    (x.1 :: y.1, x.2 ||| y.2)
  | l => (l, 0)

/-- `n` stages. -/
def redTree (op : Nat → Nat → Nat × FP.Flags) : Nat → List Nat → List Nat × FP.Flags
  | 0, l => (l, 0)
  | n + 1, l =>
    let x := redStage op l
    let y := redTree op n x.1
    (y.1, x.2 ||| y.2)

/-- VRED (R372): the fixed binary tree; lane 0 gets the result, the other lanes zero. -/
def execVred (vd va : VReg) (ty : ETy) (rm : Rm) (op : BitVec 2) (s : State) :
    Host.Outcome State Fault Refusal :=
  let w := ty.width
  let f (a b : Nat) : Nat × FP.Flags :=
    match op.toNat with
    | 0 => if ty.isFloat then FP.add ty.fmt rm a b else ((a + b) % 2 ^ w, 0)
    | 1 => laneMinMax ty false false a b
    | _ => laneMinMax ty true false a b
  let r := redTree f (Nat.log2 ty.lanes) (vlanes w (s.v va))
  .next (s.checkSub (wordOf (.vred vd va ty rm op)) (op == 0 && vsub? ty [s.v va]) (fun _ =>
    s.finV vd (r.1.headD 0) r.2))

/-! ## Moves (R373) -/

/-- VMOVG (R373): lane g[b] mod L, sign-extended for integer types. -/
def execVmovg (d : GReg) (va : VReg) (b : GReg) (ty : ETy) (s : State) :
    Host.Outcome State Fault Refusal :=
  let x := lane ty.width (s.v va).toNat ((s.g b).toNat % ty.lanes)
  .next (s.fin d (if ty.isFloat then BitVec.ofNat 64 x else sext64 ty.width x))

/-- VMOVV (R373): one lane of vd is written. -/
def execVmovv (vd : VReg) (a b : GReg) (ty : ETy) (s : State) : Host.Outcome State Fault Refusal :=
  let t := (s.g b).toNat % ty.lanes
  let x := (s.g a).toNat
  .next (s.setV vd (BitVec.ofNat 256 (ofLanes ty.width ((vlanes ty.width (s.v vd)).set t x)))).adv

end Sys2Proof.Machine
end

