-- ==== Sys2Proof/Machine/Place.lean ====
section
/-!
DEFINITION. Where units start and how they are stopped: task queues (05 R132, R133), thread slots
(07 R193), context slots (09 R266), cancels (05 R130, R131), moving the names of threads that change
slots (04 R95, 09 R266).
-/

namespace Sys2Proof.Machine

open Sys2Proof

/-! ## Context slots -/

/-- A thread of the partition waits for a CFGLOAD, CFGSHADOW or ROLL: a swap lets it complete before
the context stops (R420). -/
def State.cfgPending (s : State) (q : Nat) : Bool :=
  s.loads.any (fun l => l.prt == q && l.waiter.isSome) ||
    s.regions.any (fun e => e.1 / 4096 == q && e.2.rollWait.isSome)

/-- The context's units run: its slot is active and no swap has stopped it (R266, R270). -/
def State.active (s : State) (q ctx : Nat) : Bool :=
  let p := s.prt q
  p.ctxActive == ctx && (p.ctxState != 1 || s.cfgPending q)

/-- Renames threads wherever the state names one: messages, commands, loads, shoot-downs, walks,
receive waiters and word waiters. -/
def State.rename (s : State) (f : Nat → Nat) : State :=
  { s with
    threads := ((s.threads.filter (fun e => decide (e.2.st ≠ .empty))).map
      (fun e => (f e.1, e.2))).foldl (fun (t : Tbl Thread) e => t.ins e.1 e.2) []
    msgs := s.msgs.map (fun m => { m with sender := m.sender.map f })
    acmds := s.acmds.map (fun c => { c with tid := f c.tid })
    waiters := s.waiters.map (fun w => { w with tid := f w.tid })
    loads := s.loads.map (fun l => { l with waiter := l.waiter.map (fun w => (f w.1, w.2)) })
    regions := s.regions.map (fun (e : Nat × Region) => (e.1, { e.2 with
      armWait := e.2.armWait.map (fun w => (f w.1, w.2))
      rollWait := e.2.rollWait.map (fun w => (f w.1, w.2)) }))
    clusters := s.clusters.map (fun e => (e.1, { e.2 with
      queues := e.2.queues.map (fun k => (k.1, k.2.map (fun c => { c with tid := f c.tid })))
      walks := e.2.walks.map (fun w => { w with who := w.who.map (fun x => (f x.1, x.2)) }) }))
    prts := s.prts.map (fun e => (e.1, { e.2 with
      shoots := e.2.shoots.map (fun h => { h with tid := h.tid.map (fun x => (f x.1, x.2)) }) }))
    lnk := { s.lnk with reqs := s.lnk.reqs.map (fun r =>
      if r.cmd.isSome then r else { r with tid := f r.tid }) }
    tid := f s.tid }

/-! ## Task queues -/

def queueCap : Nat := 256
def pendingCap : Nat := 256

/-- Cores of the partition, in ascending order. -/
def State.coresOf (s : State) (q : Nat) : List Nat :=
  (s.cluOwn.filter (fun e => e.2.heldBy q)).flatMap (fun e => (List.range 8).map (8 * e.1 + ·))

/-- A running resize that has passed PROPOSE keeps the cluster: units may be placed there (R89). -/
def State.keepsCluster (s : State) (q m : Nat) : Bool :=
  match s.resize with
  | some z => z.prt != q || decide (z.step < 2) || bitAt z.clu m
  | none => true

def State.room (s : State) (c : Nat) : Nat := queueCap - (s.core c).queue.length

/-- Of the cores, one with the most free entries; the lowest SITE breaks a tie (R133). -/
def State.bestCore (s : State) (cs : List Nat) : Option Nat :=
  cs.foldl (fun (b : Option Nat) c =>
    match b with
    | none => some c
    | some d =>
      if s.room d < s.room c ∨
          (s.room d = s.room c ∧ (coreSite 0 c).toNat < (coreSite 0 d).toNat)
      then some c else some d) none

/-- Die and block row of a block of a region lie on the cluster's (R133). -/
def Region.onRow (r : Region) (m : Nat) : Bool :=
  let die := clusterDie m
  let b := clusterRow m
  decide (r.y / 16 ≤ b) && decide (b ≤ (r.y + r.h - 1) / 16) &&
    decide (r.x / 368 ≤ die) && decide (die ≤ (r.x + r.w - 1) / 368)

/-- R133: where a packet goes: its target, or the candidate with the most room. Where the partition has no
cluster on the block rows of the region, or the region has ended, every cluster is a candidate (DESIGN CHOICE,
log 64). -/
def State.chooseCore (s : State) (pk : Packet) : Option Nat :=
  match pk.target with
  | some c => some c
  | none =>
    let cs := (s.coresOf pk.prt).filter (fun c => s.keepsCluster pk.prt (c / 8))
    let r := s.region pk.prt pk.lslot
    let near := if pk.lslot < 4096 ∧ r.loaded then cs.filter (fun c => r.onRow (c / 8)) else cs
    s.bestCore (if near.isEmpty then cs else near)

def State.enqueue (s : State) (c : Nat) (pk : Packet) : State :=
  let k := s.core c
  (s.setCore c { k with queue := k.queue ++ [pk] }).post (.taskDispatch c)

/-- Queues a packet at its core, or in the partition's pending buffer when that queue is full. -/
def State.place (s : State) (pk : Packet) : State :=
  match s.chooseCore pk with
  | some c =>
    if 0 < s.room c then s.enqueue c pk
    else
      let p := s.prt pk.prt
      s.setPrt pk.prt { p with pending := p.pending ++ [pk] }
  | none =>
    let p := s.prt pk.prt
    s.setPrt pk.prt { p with pending := p.pending ++ [pk] }

/-- A queue or the pending buffer has room for the packet. -/
def State.hasPlace (s : State) (pk : Packet) : Bool :=
  decide ((s.prt pk.prt).pending.length < pendingCap) ||
    (match s.chooseCore pk with | some c => decide (0 < s.room c) | none => false)

def State.setLeft (s : State) (q sl : Nat) (l : List Packet) : State :=
  let p := s.prt q
  s.setPrt q { p with launchRun := p.launchRun.put {} sl { p.launchRun.look {} sl with left := l } }

/-- Places the packets of a launch's TASKS array in order; from the first one there is no room for, they
wait (R133, log 31). -/
def State.placeTasks (s : State) (q sl : Nat) : List Packet → State
  | [] => s.setLeft q sl []
  | pk :: r => if s.hasPlace pk then (s.place pk).placeTasks q sl r else s.setLeft q sl (pk :: r)

/-- A queue that has gained room takes the oldest pending packets that go to it, and launches with
packets left place more (R133). -/
def State.refill (s : State) (c : Nat) : State :=
  match s.cluOwner (c / 8) with
  | none => s
  | some q =>
    let s := (s.prt q).pending.foldl (fun s pk =>
      if 0 < s.room c ∧ s.chooseCore pk = some c then
        let p := s.prt q
        (s.setPrt q { p with pending := p.pending.erase pk }).enqueue c pk
      else s) s
    let s := (s.prt q).launchRun.foldl (fun s e =>
      if e.2.left.isEmpty then s else s.placeTasks q e.1 e.2.left) s
    -- Messages that no queue had room for ask again (R133, R136).
    (s.msgs.filter (fun m => m.prt == q && m.ret == 0)).foldl (fun s m =>
      if s.agenda.contains (.messageDelivery m.id) then s else s.post (.messageDelivery m.id)) s

/-- Escapes that no queue had room for ask again (R134). -/
def State.pokeEscapes (s : State) (q : Nat) : State :=
  s.regions.foldl (fun s e =>
    if e.1 / 4096 = q ∧ e.2.loaded then
      e.2.sites.foldl (fun s x =>
        if x.2.tickets.any (fun k => k.2.st == 1 && !k.2.asked) then s.post (.escapeThreadStart x.1)
        else s) s
    else s) s

/-! ## Starting a thread (R123, R193) -/

/-- The free slots of a core for a source: drain handlers take any of SLOTS, the others none of the
last DRSLOTS. -/
def State.freeSlot (s : State) (c : Nat) (kind : StartKind) : Option Nat :=
  match s.cluOwner (c / 8) with
  | none => none
  | some q =>
    let w := s.pw c (s.prt q).ctxActive
    let n := if kind = .drain then w.slots else w.slots - w.drslots
    (List.range (Nat.min 16 n)).find? (fun i => decide ((s.thread (16 * c + i)).st = .empty))

/-- sc0 to sc3 from the 32 bytes of SCBASE. -/
def scTable (l : List Byte) : Tbl W64 :=
  (List.range 4).foldl (fun (t : Tbl W64) i =>
    t.put 0 i (BitVec.ofNat 64 (leNat ((l.drop (8 * i)).take 8)))) []

/-- The thread starts READY in slot `t` with the packet's registers; every other register zero. -/
def State.startThread (s : State) (t : Nat) (pk : Packet) (sc : Tbl W64) : State :=
  let regs :=
    if pk.kind = .escape then pk.regs
    else pk.regs.put 0 4 ((slotSite s.pkg t).setWidth 64)
  let (id, s) := s.newId
  s.setThread t
    { life := id, st := .ready, kind := pk.kind, g := regs, ft := pk.ft
      sc := sc, pc := pk.pc, prt := pk.prt, ctx := pk.ctx, asid := pk.asid, root := pk.root
      lslot := pk.lslot, prio := pk.prio, held := pk.held, row := pk.row, lw := pk.lw }

/-- The TLB entries of a slot go: a thread moved there starts with none (R95). -/
def State.clearTlb (s : State) (t : Nat) : State :=
  let c := t / 16
  s.setCore c { s.core c with tlb := (s.core c).tlb.filter (fun e => e.slot != t % 16) }

/-- Reads SCBASE as a user-level load and starts the thread; a fault ends its unit (R123). -/
def State.beginThread (s : State) (t : Nat) (pk : Packet) : State :=
  if pk.scbase = 0 then
    match pk.moved with
    | some th =>
      -- Its commands that run on know it by its new slot (R420).
      let s := { s with acmds := s.acmds.map (fun (a : ACmd) => if a.life = th.life then { a with tid := t } else a) }
      (s.setThread t { th with ctx := pk.ctx, held := pk.held, lw := pk.lw }).clearTlb t
    | none => s.startThread t pk pk.sc
  else
    let va := pk.scbase.toNat
    let bad (c : Nat) (v : W64) : State :=
      let site := slotSite s.pkg t
      let s := s.faultRecord pk.prt site (threadRecord site 0 c pk.lslot v pk.pc)
      let s := match pk.held with | some h => s.freeTicket h | none => s
      s.unitEnd pk.prt pk.lslot .faulted rUNIT
    if va % 8 ≠ 0 then bad cALIGN pk.scbase
    else
      match s.agentRead ⟨pk.prt, pk.root, true, some (t / 16, pk.ctx, none)⟩ va 32 with
      | .ok l => s.startThread t pk (scTable l)
      | .error (c, v) => bad c v

/-- A register table with the listed numbers set. -/
def gRegs (l : List (Nat × Nat)) : Tbl W64 :=
  l.foldl (fun (t : Tbl W64) e => t.put 0 e.1 (BitVec.ofNat 64 e.2)) []

/-! ## Task packets as records (R122) -/

/-- The packet's fields when every reserved bit is zero and PC is 4-byte aligned. -/
def taskOk (l : List Byte) : Bool :=
  decide (q8 l 24 / 2 ^ 34 = 0) && decide (q8 l 48 = 0) && decide (q8 l 56 = 0) &&
    decide (q8 l 0 % 4 = 0)

/-- TARGET: none for any core, else the core after R83, or `some none` when it names no owned core. -/
def State.taskTarget (s : State) (q : Nat) (l : List Byte) : Option (Option Nat) :=
  let w := BitVec.ofNat 32 (q8 l 24)
  if w = 0xFFFFFFFF then none
  else
    match s.coreOf q w with
    | some c => if s.ownsCluster q (c / 8) then some (some c) else some none
    | none => some none

def taskPacket (l : List Byte) (q ctx : Nat) (asid : W16) (root lslot : Nat)
    (target : Option Nat) : Packet :=
  let g3 : Nat := if lslot < 4096 then lslot else 0xFFFF
  { kind := .task, pc := BitVec.ofNat 64 (q8 l 0)
    regs := gRegs [(1, q8 l 8), (2, q8 l 16), (3, g3)]
    ft := BitVec.ofNat 64 (q8 l 32), scbase := BitVec.ofNat 64 (q8 l 40), target := target
    prio := q8 l 24 / 2 ^ 32 % 4, prt := q, ctx := ctx, asid := asid, root := root, lslot := lslot }

/-! ## The end of a region -/

/-- Sites have become free: launches that wait for them, and saved regions, may be placed. -/
def State.pokeSites (s : State) (q : Nat) : State :=
  s.regions.foldl (fun s e =>
    if e.1 / 4096 = q ∧ e.2.reload then s.post (.regionReload q (e.1 % 4096)) else s)
    (s.post .schedulerDecision)

/-! ## Configuration ports (R181, R189) -/

/-- Number of the configuration port that serves a site: a seam's own, or the seam on the site's
side of its block (R169, R181, R189). -/
def cfgPortOf (i : Nat) : Nat :=
  let col := siteCol i
  let m := col % 22
  let k := col / 22
  let s : Nat :=
    if m = 16 then 2 * k
    else if m = 21 then 2 * k + 1
    else if 16 < m then 2 * k
    else if (m < 8 ∧ k ≠ 0) ∨ k = 16 then 2 * (k - 1) + 1
    else 2 * k
  256 * siteDie i + 32 * (siteRow i / 16) + s

/-- The region key of a unit that waits for a refill by configuration port `p`. -/
def State.pausedAt (s : State) (p : Nat) : Option Nat :=
  (s.regions.find? (fun e =>
    e.2.sites.any (fun u => u.2.paused && cfgPortOf u.1 == p) ||
      e.2.gens.any (fun u => u.2.paused && cfgPortOf (u.1 / 4) == p))).map (·.1)

/-- A port that no load and no waiting unit uses is not BUSY; one that a unit still waits for refills (R189). -/
def State.refillPorts (s : State) : State :=
  { s with cfg := { s.cfg with ports := s.cfg.ports.map (fun (e : Nat × CfgPort) =>
      if e.2.busy && e.2.op ≤ 2 then e
      else
        match s.pausedAt e.1 with
        | some k => (e.1, { busy := true, op := 5, prt := k / 4096, slot := k % 4096
                            bytes := if e.2.op = 5 then e.2.bytes else 0 })
        | none => (e.1, { e.2 with busy := false })) } }

/-- The sites, circuits, matrix tiles and save space of a region are free; its window counters stay
(R174), and so do the status, counts and flags of one that ended DONE, which R453 reads after the end and
R187 zeroes at the next load. -/
def State.freeRegion (s : State) (q sl : Nat) (ok : Bool := false) : State :=
  let r := s.region q sl
  let keep : Region :=
    { ended := true, endDone := ok, everArmed := r.everArmed, wins := r.wins, ctx := r.ctx
      index := r.index, loadst := r.loadst, fcode := r.fcode, esclost := r.esclost, stalls := r.stalls
      quiescent := r.quiescent, faulted := r.faulted, flags := r.flags }
  let p := s.prt q
  let s := s.setPrt q { p with saved := p.saved.filter (fun e => e.1 != sl) }
  let mine (e : TransReq) : Bool := e.key == rgnKey q sl
  let s := { s.setRegion q sl keep with
    circFree := s.circFree + r.circs.length
    trans := s.trans.map (fun (u : Nat × Trans) => (u.1, { u.2 with
      run := u.2.run.filter (fun e => !mine e)
      wait := u.2.wait.map (fun (l : Nat × List TransReq) => (l.1, l.2.filter (fun e => !mine e))) })) }
  (r.mxs.foldl (fun s f => (if f.granted then s.unpin f.cluster else s).pokeTile f.cluster) s).pokeSites q
    |>.refillPorts

/-- QWAIT and WAITW of the partition look at their conditions at their own turns; nothing else waits
on a region. -/
def State.regionUnitEnd (s : State) (q sl : Nat) (st : CStat) (reason : Nat) : State :=
  (s.freeRegion q sl (decide (st = .done))).unitEnd q sl st reason

/-! ## Cancels (R130, R131) -/

/-- The launches beneath a counter, as ring slots. -/
def Prt.launchesOf (p : Prt) (lvl i : Nat) : List Nat :=
  (p.cnt.launches.filter (fun e => e.2.running &&
    (let g := (p.launchRun.look {} e.1).graph
     let ph := (p.graphRun.look {} g).phase
     let j := (p.phaseRun.look {} ph).job
     match lvl with
     | 1 => e.1 == i
     | 2 => g == i
     | 3 => ph == i
     | _ => j == i))).map (·.1)

def Prt.graphsOf (p : Prt) (lvl i : Nat) : List Nat :=
  (p.cnt.graphs.filter (fun e => e.2.running &&
    (let ph := (p.graphRun.look {} e.1).phase
     let j := (p.phaseRun.look {} ph).job
     match lvl with
     | 1 => false
     | 2 => e.1 == i
     | 3 => ph == i
     | _ => j == i))).map (·.1)

def Prt.phasesOf (p : Prt) (lvl i : Nat) : List Nat :=
  (p.cnt.phases.filter (fun e => e.2.running &&
    (match lvl with
     | 3 => e.1 == i
     | 4 => (p.phaseRun.look {} e.1).job == i
     | _ => false))).map (·.1)

/-- Marks a running counter with the status it will take, unless an earlier cancel did. -/
def Prt.mark (p : Prt) (lvl : Nat) (is : List Nat) (st : CStat) (reason : Nat) : Prt :=
  is.foldl (fun p i =>
    let c := p.cntr lvl i
    if c.stop.isSome then p else p.setCntr lvl i { c with stop := some (st, reason) }) p

/-- Threads (of either context slot, or spilled) of the partition that satisfy `f`. -/
def State.threadsOf (s : State) (q : Nat) (f : Thread → Bool) : List Nat :=
  (s.threads.filter (fun e => decide (e.2.st ≠ .empty) && e.2.prt == q && f e.2)).map (·.1)

/-- Stops every unit of the partition's launches `ls`: threads, packets not dispatched, commands,
regions with their escape pools, launches not placed. -/
def State.stopUnits (s : State) (q : Nat) (ls : List Nat) (st : CStat) (reason : Nat) : State :=
  let mine (lslot : Nat) : Bool := ls.contains lslot
  -- packets
  let gone (pk : Packet) : Bool := pk.prt == q && mine pk.lslot
  let left := ls.flatMap (fun l => ((s.prt q).launchRun.look {} l).left)
  let lost := (s.cores.flatMap (fun e => e.2.queue.filter gone)) ++ (s.prt q).pending.filter gone ++ left
  let freed := (s.cores.filter (fun e => e.2.queue.any gone)).map (·.1)
  let s := { s with cores := s.cores.map (fun (e : Nat × Core) =>
    (e.1, { e.2 with queue := e.2.queue.filter (fun pk => !gone pk) })) }
  let s := s.setPrt q { s.prt q with pending := (s.prt q).pending.filter (fun pk => !gone pk) }
  let s := ls.foldl (fun s l => if left.isEmpty then s else s.setLeft q l []) s
  -- queues that have gained room
  let s := (freed ++ (if lost.isEmpty then [] else s.coresOf q)).eraseDups.foldl (fun s c =>
    s.post (.taskDispatch c)) s
  -- commands
  let dead := s.lnk.collDead
  let s := s.stopCommands (fun c => c.prt == q && mine c.lslot) (fun c => c.prt == q && mine c.lslot)
  let s := { s with lnk := { s.lnk with collDead := dead } }
  -- regions
  let s := ls.foldl (fun s l =>
    if (s.region q l).loaded then (s.freeRegion q l).childDone q 1 l st reason else s) s
  let s := lost.foldl (fun s pk => s.childDone q 1 pk.lslot st reason) s
  -- tasks of launches placed whose packets have still to be read
  let s := ls.foldl (fun s l =>
    let p := s.prt q
    let r : LaunchRun := p.launchRun.look {} l
    if r.st = .placed ∧ r.ntask ≠ 0 then
      let c := p.cntr 1 l
      let p := { p with launchRun := p.launchRun.put {} l { r with ntask := 0 } }
      s.setPrt q (p.setCntr 1 l { c with out := c.out - r.ntask })
    else s) s
  -- launches not ready or not placed
  let s := ls.foldl (fun s l =>
    let p := s.prt q
    let r : LaunchRun := p.launchRun.look {} l
    if r.st ≠ .placed then
      let c := p.cntr 1 l
      let p := { p with launchRun := p.launchRun.put {} l { r with st := .placed, deps := [] } }
      s.setPrt q (p.setCntr 1 l { c with out := 0 })
    else s) s
  -- threads
  ((s.threadsOf q (fun th => mine th.lslot)).foldl (fun s t => s.endThread t st reason) s).pokeCtx q

/-- A cancel of a level counter with the status and reason its counters take (R130, R131). -/
def State.cancelLevel (s : State) (q lvl i : Nat) (st : CStat) (reason : Nat) : State :=
  if (s.cntr q lvl i).running then
    let p := s.prt q
    let ls := p.launchesOf lvl i
    let gs := p.graphsOf lvl i
    let ps := p.phasesOf lvl i
    let js := if lvl = 4 then [i] else []
    let p := (((p.mark 1 ls st reason).mark 2 gs st reason).mark 3 ps st reason).mark 4 js st reason
    -- records not yet read never start
    let p := gs.foldl (fun (p : Prt) g =>
      let r := p.graphRun.look {} g
      let c := p.cntr 2 g
      { p with graphRun := p.graphRun.put {} g { r with next := r.nlaunch } }.setCntr 2 g
        { c with out := c.out - (r.nlaunch - r.next) }) p
    let p := ps.foldl (fun (p : Prt) k =>
      { p with phaseRun := p.phaseRun.put {} k { p.phaseRun.look {} k with armed := false } }) p
    -- phases not yet started count as stopped
    let p := js.foldl (fun (p : Prt) j =>
      let r := p.jobRun.look {} j
      let c := p.cntr 4 j
      { p with jobRun := p.jobRun.put {} j { r with next := r.nphase } }.setCntr 4 j
        { c with out := c.out - (r.nphase - r.next) }) p
    ((s.setPrt q p).stopUnits q ls st reason).settle q
  else s

/-- A cancel of a unit by its SITE word: a thread of the partition, or a region by its top-left
site (R114, R130). The commands of a thread stop with it. -/
def State.cancelUnit (s : State) (q : Nat) (w : W32) (st : CStat) (reason : Nat) : State :=
  let w := s.relocate q w
  if sitePkg w ≠ s.pkg then s
  else
    match siteName w with
    | .slot t =>
      let th := s.thread t
      if th.st ≠ .empty ∧ th.prt = q then
        (s.stopOf t).endThread t st reason
      else s
    | _ =>
      let x := regionX w
      let y := fld w 13 7
      match s.regions.find? (fun e => e.1 / 4096 == q && e.2.loaded && e.2.x == x && e.2.y == y) with
      | some e =>
        let s := s.freeRegion q (e.1 % 4096)
        -- tickets are freed with the region, so its escape threads hold none
        s.unitEnd q (e.1 % 4096) st reason
      | none => s

/-- The status and reason of a cancel (R130). -/
def cancelStat (fault : Bool) : CStat × Nat := if fault then (.faulted, rUNIT) else (.cancelled, rCANCEL)

/-- R130, R409, SCH_CANCEL: level 0 names a unit by SITE, 1 to 4 a counter by index. The index is taken modulo
the size of the level's file: R409 says so of the instruction, and SCH_CANCEL does the same (DESIGN CHOICE,
log 64). -/
def State.cancel (s : State) (q lvl : Nat) (w : W32) (i : Nat) (fault : Bool) : State :=
  let (st, reason) := cancelStat fault
  if lvl = 0 then s.cancelUnit q w st reason
  else if lvl ≤ 4 then s.cancelLevel q lvl (i % fileSize lvl) st reason
  else s

end Sys2Proof.Machine
end

