-- ==== Sys2Proof/Machine/Matrix.lean ====
section
/-!
DEFINITION. The matrix tile (07 R205 to R213): commands and drains (14 R387 to R389), the arbiter
(R207), the sums of a K step (10 R290), drain rows and their handlers (R210, R211); and the writes
of engines with full bits (08 R236).
-/

namespace Sys2Proof.Machine

open Sys2Proof

/-! ## Engine writes (R236) -/

/-- The parts of an agent's access, each with whether its full bits are tracked (R227). -/
def State.agentParts (s : State) (a : Agent) (k : AccKind) (va n : Nat) :
    Except (Nat × W64) (List (Part × Bool)) :=
  let rs := (s.piecesFor a.prt va n).map (fun p => s.agentPiece a k p.1 p.2)
  match firstFault rs with
  | some (c, _, v) => .error (c, BitVec.ofNat 64 v)
  | none =>
    if s.agentReaches a va n && (partsOf rs).all (fun p => s.reaches a.die p.1.pa) then .ok (partsOf rs) else .error (cWAIT, 0)

/-- Writes parts in order for an agent of die `d`, setting the full bit of every tracked word written
(R236). -/
def State.writeFull (s : State) (d : Nat) : List (Part × Bool) → List Byte → State
  | [], _ => s
  | (p, tr) :: r, l =>
    let s := if tr then (wordsOf p.pa p.n).foldl (fun s w => s.setFull w true) s else s
    (s.agentPut d p (l.take p.n)).writeFull d r (l.drop p.n)

/-- An engine writes bytes at `va`. -/
def State.engineWrite (s : State) (a : Agent) (va : Nat) (l : List Byte) :
    Except (Nat × W64) State :=
  match s.agentParts a .store va l.length with
  | .ok ps => .ok (s.writeFull a.die ps l)
  | .error e => .error e

/-- The completion status of a fault (R386). -/
def faultStatus (cause : Nat) : Nat :=
  if cause = cREVOKED then 5 else if cause = cMEMERR then 6 else 1

/-! ## The command state (R387) -/

/-- MXA (R387). -/
def execMxa (a b : GReg) (s : State) : Host.Outcome State Fault Refusal :=
  .next (s.setThr { s.thr with mxA := s.g a, mxAS := s.g b }).adv

/-- MXB (R387). -/
def execMxb (a b : GReg) (s : State) : Host.Outcome State Fault Refusal :=
  .next (s.setThr { s.thr with mxB := s.g a, mxBS := s.g b }).adv

/-- MXC (R387). -/
def execMxc (a b c : GReg) (s : State) : Host.Outcome State Fault Refusal :=
  .next (s.setThr { s.thr with mxOff := s.g a, mxShape := s.g b, mxCnt := s.g c }).adv

/-! ## Formats and shapes (R206) -/

/-- The format of code FMT of a shape word, when it is listed. -/
def mxFmt (c : Nat) : Option Fmt :=
  match c with
  | 0 => some .f64 | 2 => some .f16 | 3 => some .bf16 | 4 => some .e4m3 | 5 => some .e5m2
  | 6 => some .b4 | 8 => some .i8 | _ => none

/-- Largest M and N, elements of a K step, cycles of a K step, bytes of an accumulator element and
of an accumulator row. -/
def mxDim (f : Fmt) : Nat := if f = .f64 then 16 else 64
def mxStep : Fmt → Nat
  | .f64 => 16 | .f16 => 64 | .bf16 => 64 | .b4 => 256 | _ => 128
def accBytes (f : Fmt) : Nat := if f = .f64 then 8 else 4
def accRow (f : Fmt) : Nat := if f = .f64 then 128 else 256
/-- Bytes of an operand element; a B4 operand is made of 17-byte blocks. -/
def opBytes (f : Fmt) : Nat := if f = .b4 then 1 else f.width / 8

/-- A cluster's tile is named by a loaded image (R213). -/
def State.tileInFabric (s : State) (m : Nat) : Bool :=
  s.regions.any (fun e => e.2.loaded && e.2.mxs.any (fun f => f.cluster == m))

/-- R388: a C tile of M by N elements at `off` in ACCKB KiB. -/
def accFits (acckb off m n rowB elB : Nat) : Bool := decide (off + (m - 1) * rowB + n * elB ≤ 1024 * acckb)

/-- KiB of the accumulators of the thread that issues. -/
def State.accKb (s : State) (th : Thread) : Nat := (th.lw.getD (s.win (slotOf s.tid / 16) th.ctx)).accn / 1024

def counterOk (c : W64) : Bool := c.toNat % 8 == 0

/-- R388: the command of the thread's state is valid. -/
def State.mxValid (s : State) (th : Thread) : Bool :=
  let sh := th.mxShape
  match mxFmt (fld sh 51 48) with
  | none => false
  | some f =>
    let m := fld sh 5 0 + 1
    let n := fld sh 13 8 + 1
    let k := fld sh 47 16
    let acckb := s.accKb th
    decide (fld sh 63 55 = 0) && !bitAt sh 52 && decide (fld sh 15 14 = 0) &&
      decide (fld sh 7 6 = 0) && decide (m ≤ mxDim f) && decide (n ≤ mxDim f) && decide (k ≠ 0) &&
      (f != .b4 || k % 32 == 0) && th.mxOff.toNat % 2048 == 0 &&
      accFits acckb th.mxOff.toNat m n (accRow f) (accBytes f) &&
      th.mxA.toNat % opBytes f == 0 && th.mxB.toNat % opBytes f == 0 && counterOk th.mxCnt

def mxQueueCap : Nat := 8

/-- The command built from the thread's state. -/
def State.mkMx (s : State) (id : Nat) (drain : Bool) (word : W32) (dst dword : W64) : MxCmd :=
  let th := s.thr
  { id := id, drain := drain, tid := s.tid, life := th.life, word := word, pc := th.pc, prt := th.prt
    ctx := th.ctx, asid := th.asid, root := th.root, lslot := th.lslot, sup := th.sup
    g3 := th.readG 3, aBase := th.mxA, aStride := th.mxAS, bBase := th.mxB, bStride := th.mxBS
    off := th.mxOff.toNat, shape := th.mxShape, counter := th.mxCnt, dst := dst, dword := dword
    ft := th.ft, sc := th.sc, mxhpc := th.mxhpc, kdone := 0, granted := false, fetched := none, flags := 0
    rowStart := 0, rowNext := 0, released := [], lw := th.lw }

/-- Enqueues a command or drain, or waits in RETRY for room (R205). -/
def State.enqueueMx (s : State) (drain : Bool) (word : W32) (dst dword : W64) (d : GReg) : State :=
  let m := s.tid / 128
  let k := s.tid / 16 % 8
  let cl := s.clu m
  let q := cl.queues.look [] k
  if mxQueueCap ≤ (q.filter (fun c => c.ctx == s.thr.ctx)).length then s.waitIn .retry true
  else
    let (id, s) := s.newId
    let c := s.mkMx id drain word dst dword
    let s := s.setClu m { cl with queues := cl.queues.put [] k (q ++ [c]) }
    (s.fin d 0).post (if drain then .drainRowStart m else .kStepGrant m)

/-- MXGO (R388): 0 enqueued, 1 FABRIC, 2 BADCMD. -/
def execMxgo (c : GReg) (s : State) : Host.Outcome State Fault Refusal :=
  let s := s.release 4
  .next (
    if s.tileInFabric (s.tid / 128) then s.fin c 1
    else if !s.mxValid s.thr then s.fin c 2
    else s.enqueueMx false (wordOf (.mxgo c)) 0 0 c)

/-- The accumulator and output formats of a drain word (R389). -/
def drainAcc (w : W64) : Fmt :=
  match fld w 25 24 with | 0 => .f32 | 1 => .f64 | _ => .i32
def drainOut (w : W64) : Option Fmt :=
  if fld w 31 28 = 6 then none else Enc.fmtOf (BitVec.ofNat 4 (fld w 31 28))

def State.drainValid (s : State) (th : Thread) (w : W64) : Bool :=
  let m := fld w 23 18 + 1
  let n := fld w 17 12 + 1
  let f := drainAcc w
  let row := if f = .f64 then 128 else 256
  let lim := if f = .f64 then 16 else 64
  let acckb := s.accKb th
  decide (fld w 25 24 ≠ 3) && (drainOut w).isSome && decide (fld w 10 7 = 0) && decide (m ≤ lim) &&
    decide (n ≤ lim) && accFits acckb (fld w 6 0 * 2048) m n row (f.width / 8) &&
    counterOk th.mxCnt

/-- MXDRAIN (R389). -/
def execMxdrain (a b c : GReg) (s : State) : Host.Outcome State Fault Refusal :=
  let dst := s.g a
  let w := s.g b
  let s := s.release 4
  .next (
    if s.tileInFabric (s.tid / 128) then s.fin c 1
    else if !s.drainValid s.thr w then s.fin c 2
    else s.enqueueMx true (wordOf (.mxdrain a b c)) dst w c)

/-- MXREL (R211): a drain handler that holds its row releases it; otherwise ILL. -/
def execMxrel (s : State) : Host.Outcome State Fault Refusal :=
  let th := s.thr
  .next (
    match th.row with
    | none => s.illegal (wordOf .mxrel)
    | some (id, row) => ((s.setThr { th with row := none }).releaseRow (s.tid / 128) id row).adv)

/-! ## The arbiter (R207) -/

/-- The first command of a queue whose context runs. -/
def State.mxHead (s : State) (m k : Nat) : Option MxCmd :=
  ((s.clu m).queues.look [] k).find? (fun c => s.active c.prt c.ctx)

/-- A queue that holds a command ready for K steps. -/
def State.mxReady (s : State) (m k : Nat) : Bool :=
  match s.mxHead m k with
  | some c => !c.drain && !c.granted
  | none => false

def weightOf (w : BitVec 32) (k : Nat) : Nat := nfld w.toNat (4 * k + 3) (4 * k)

/-- R207: the queue to serve next and its streak: the present one while its weight lasts, else the
next in ascending order; queues of weight 0 only when every other is empty. -/
def State.mxPick (s : State) (m : Nat) : Option (Nat × Nat) :=
  let cl := s.clu m
  let w := weightOf cl.mxweight
  let held (k : Nat) : Bool := (s.mxHead m k).isSome
  if s.mxReady m cl.lastQ ∧ cl.streak < w cl.lastQ ∧ 0 < cl.streak then some (cl.lastQ, cl.streak + 1)
  else
    let order := (List.range 8).map (fun i => (cl.lastQ + 1 + i) % 8)
    match order.find? (fun k => decide (0 < w k) && s.mxReady m k) with
    | some k => some (k, 1)
    | none =>
      if order.any (fun k => decide (0 < w k) && held k) then none
      else (order.find? (s.mxReady m)).map (fun k => (k, 1))

/-! ## Operands (R208) -/

/-- The engine's identity for a command: its issuer's address space and local window. -/
def MxCmd.agent (c : MxCmd) : Agent := ⟨c.prt, c.root, !c.sup, some (slotOf c.tid / 16, c.ctx, c.lw)⟩

/-- What the fetch unit of a tile reads for: the agent, its context slot and address space. -/
structure Fetcher where
  tile  : Nat
  agent : Agent
  ctx   : Nat
  asid  : W16

def MxCmd.fetcher (c : MxCmd) : Fetcher := ⟨c.tid / 128, c.agent, c.ctx, c.asid⟩

/-- The leaf of a page, through the fetch unit's TLB of 16 entries and the page walker. -/
def State.tilePage (s : State) (x : Fetcher) (va : Nat) : WalkRes × State :=
  let cl := s.clu x.tile
  match cl.ftlb.find? (fun e => e.hits x.ctx x.asid va) with
  | some e => (.leaf e.leaf, s.setClu x.tile { cl with ftlb := e :: cl.ftlb.erase e })
  | none =>
    let (ch, s) := s.choice
    match s.walk (clusterDie x.tile) x.agent.prt x.agent.root va ch with
    | .leaf l =>
      let b := pageBits l.size
      let e : TlbEntry := { vpage := va % 2 ^ 56 / 2 ^ b, size := l.size, ppage := l.addr / 2 ^ b
                            attr := l.attr, asid := x.asid, gen := (s.prt x.agent.prt).genIssued
                            slot := x.ctx }
      (.leaf l, s.setClu x.tile { cl with ftlb := (e :: cl.ftlb).take 16 })
    | .fault b => (.fault b, s)

def State.tilePiece (s : State) (x : Fetcher) (va n : Nat) : PieceRes × State :=
  if localWin ≤ va then (s.agentPiece x.agent .load va n, s)
  else if !canonical va then (.fault cACCESS 0 va, s)
  else
    match s.tilePage x va with
    | (.fault _, s) => (.fault cPAGE 0 va, s)
    | (.leaf l, s) => (s.checkPart x.agent.prt x.agent.user .load l va n 0, s)

/-- The lines of fetched parts lie in L2, pinned (R208). -/
def State.tilePin (s : State) (m : Nat) (ps : List Part) : State :=
  let ps : List Part := ps.filter (fun (p : Part) => p.cached)
  let s := ps.foldl (fun s p => (wordsOf p.pa p.n).foldl (fun s w =>
    s.takeUnit (clusterDie m) p.prt p.grain p.hc false w) s) s
  let cl := s.clu m
  s.setClu m { cl with
    pins := (cl.pins ++ ps.flatMap (fun (p : Part) => (wordsOf p.pa p.n).map (· / 512))).eraseDups }

/-- Bytes at `va` as the fetch unit reads them, at the die's home (R237). -/
def State.tileBytes (s : State) (x : Fetcher) (va n : Nat) : Except (Nat × W64) (List Byte) × State :=
  let (rs, s) := (s.piecesFor x.agent.prt va n).foldl (fun (t : List PieceRes × State) p =>
    let (r, s) := t.2.tilePiece x p.1 p.2
    (t.1 ++ [r], s)) ([], s)
  match combine { AccKind.record with agent := true } va rs with
  | .ok ps =>
    if ps.any (fun p => s.poisoned p.pa p.n) then (.error (cMEMERR, BitVec.ofNat 64 va), s)
    else
      (.ok (ps.flatMap (fun p => if p.cached then leBytes p.n (s.readWords x.tile false p.pa p.n)
        else Memory.readList s.mem p.pa p.n)), s.tilePin x.tile ps)
  | .fault c _ v | .half _ c _ v => (.error (c, v), s)
  | .miss v => (.error (cPAGE, BitVec.ofNat 64 v), s)

/-- Reads `n` elements of a row that starts at `base`, from element `k0`, padded to a K step. -/
def State.readOp (s : State) (x : Fetcher) (f : Fmt) (base k0 n : Nat) :
    Except (Nat × W64) OpRow × State :=
  if f = .b4 then
    match s.tileBytes x ((base + k0 / 32 * 17) % 2 ^ 64) (n / 32 * 17) with
    | (.error e, s) => (.error e, s)
    | (.ok l, s) =>
      let bs := (List.range (n / 32)).map (fun i =>
        let b := (l.drop (17 * i)).take 17
        ((b.getD 16 0).toNat, lanesOf 4 32 (leNat (b.take 16))))
      (.ok (.blocks (bs ++ List.replicate (8 - n / 32) (32, List.replicate 32 0))), s)
  else
    let e := opBytes f
    match s.tileBytes x ((base + k0 * e) % 2 ^ 64) (n * e) with
    | (.error e, s) => (.error e, s)
    | (.ok l, s) => (.ok (.elems (lanesOf (8 * e) n (leNat l) ++ List.replicate (mxStep f - n) 0)), s)

/-- Every row of an operand, in order; the first fault stops. -/
def State.readOps (s : State) (x : Fetcher) (f : Fmt) (base stride k0 n : Nat) :
    List Nat → Except (Nat × W64) (List OpRow) × State
  | [] => (.ok [], s)
  | i :: r =>
    match s.readOp x f ((base + i * stride) % 2 ^ 64) k0 n with
    | (.error e, s) => (.error e, s)
    | (.ok y, s) =>
      match s.readOps x f base stride k0 n r with
      | (.error e, s) => (.error e, s)
      | (.ok ys, s) => (.ok (y :: ys), s)

/-- Rows of A and columns of B of a K step, from their bases and strides, every line pinned; at a fault
none stays pinned. -/
def State.readStep (s : State) (x : Fetcher) (f : Fmt) (a b : Nat × Nat) (m n k0 k : Nat) :
    Except (Nat × W64) (List OpRow × List OpRow) × State :=
  match s.readOps x f a.1 a.2 k0 k (List.range m) with
  | (.error e, s) => (.error e, s.unpin x.tile)
  | (.ok rows, s) =>
    match s.readOps x f b.1 b.2 k0 k (List.range n) with
    | (.error e, s) => (.error e, s.unpin x.tile)
    | (.ok cols, s) => (.ok (rows, cols), s)

/-! ## The sums of a K step (R290) -/

/-- Consecutive groups of `g` entries. -/
def groupsOf {α : Type} (g : Nat) : Nat → List α → List (List α)
  | 0, _ => []
  | n + 1, l => l.take g :: groupsOf g n (l.drop g)

/-- The B4 group: one block of each operand, exact and rounded once to FP32. -/
def b4Group (x y : Nat × List Nat) : Nat × FP.Flags :=
  let ns := (x.2.zip y.2).map (fun p =>
    match FP.b4Num x.1 p.1, FP.b4Num y.1 p.2 with
    | some u, some v => u.mul v
    | _, _ => none)
  if ns.any Option.isNone then (FP.defNan .f32, 0)
  else
    match FP.sumExact .rne (ns.filterMap id) with
    | none => (FP.defNan .f32, FP.NV)
    | some v => FP.roundNum .f32 .rne false v

/-- NV of an infinity times zero, which a NaN elsewhere in the group does not hide (R290). -/
def infZero (f : Fmt) (g : List (Nat × Nat)) : FP.Flags :=
  if g.any (fun p => (FP.isInf f p.1 && FP.isZero f p.2) || (FP.isZero f p.1 && FP.isInf f p.2)) then FP.NV
  else 0

/-- One element of C after a K step. -/
def mxDot (f : Fmt) (sat : Bool) (x y : OpRow) (acc : Nat) : Nat × FP.Flags :=
  match x, y with
  | .blocks xs, .blocks ys =>
    (xs.zip ys).foldl (fun (t : Nat × FP.Flags) p =>
      let g := b4Group p.1 p.2
      let r := FP.add .f32 .rne t.1 g.1
      (r.1, t.2 ||| g.2 ||| r.2)) (acc, 0)
  | .elems xs, .elems ys =>
    let ps := xs.zip ys
    match f with
    | .f64 => ps.foldl (fun (t : Nat × FP.Flags) p =>
        let r := FP.fma .f64 .rne p.1 p.2 t.1
        (r.1, t.2 ||| infZero .f64 [p] ||| r.2)) (acc, 0)
    | .i8 => (groupsOf 16 (ps.length / 16) ps).foldl (fun (t : Nat × FP.Flags) g =>
        let v := g.foldl (fun (z : Int) p => z + sInt 8 p.1 * sInt 8 p.2) (sInt 32 t.1)
        (FP.wrapInt 32 (if sat then satS v 32 else v), 0)) (acc, 0)
    | _ =>
      let w := if f = .f16 ∨ f = .bf16 then 8 else 16
      (groupsOf w (ps.length / w) ps).foldl (fun (t : Nat × FP.Flags) g =>
        let d := FP.dotRound f .f32 .rne g none
        let r := FP.add .f32 .rne t.1 d.1
        (r.1, t.2 ||| d.2 ||| infZero f g ||| r.2)) (acc, 0)
  | _, _ => (acc, 0)

/-- Updates the C tile whose first byte is at home `c0` by a K step's rows and columns. -/
def State.mxStepAt (s : State) (f : Fmt) (sat : Bool) (c0 : Nat) (rows cols : List OpRow) :
    State × FP.Flags :=
  let t := (rows.zipIdx).foldl (fun (t : State × FP.Flags) ri =>
    (cols.zipIdx).foldl (fun (t : State × FP.Flags) cj =>
      let a := c0 + ri.2 * accRow f + cj.2 * accBytes f
      let r := mxDot f sat ri.1 cj.1 (t.1.readHome a (accBytes f))
      (t.1.writeHome a (accBytes f) r.1, t.2 ||| r.2)) t) (s, 0)
  ((List.range rows.length).foldl (fun s i =>
    s.serveRange (c0 + i * accRow f) (cols.length * accBytes f)) t.1, t.2)

/-- Zeroes the elements of a C tile. -/
def State.mxClear (s : State) (f : Fmt) (c0 m n : Nat) : State :=
  (List.range m).foldl (fun s i => s.writeHome (c0 + i * accRow f) (n * accBytes f) 0) s

/-! ## Completion -/

/-- Replaces the command of an id in queue `k` of cluster `m`. -/
def State.setMx (s : State) (m k id : Nat) (g : MxCmd → MxCmd) : State :=
  let cl := s.clu m
  s.setClu m { cl with queues := cl.queues.put [] k ((cl.queues.look [] k).map (fun c =>
    if c.id = id then g c else c)) }

/-- The command leaves its queue, its locks clear, and its completion is due (R386). -/
def State.endMx (s : State) (m k : Nat) (c : MxCmd) (status cause : Nat) (faddr : W64)
    (flags : FP.Flags) : State :=
  let cl := s.clu m
  let s := s.setClu m
    { cl with queues := cl.queues.put [] k ((cl.queues.look [] k).filter (fun x => x.id != c.id)) }
  let a : ACmd :=
    { id := c.id, tid := c.tid, life := c.life, cluster := m, op := 4, handle := 0, word := c.word
      pc := c.pc, prt := c.prt, ctx := c.ctx, asid := c.asid, root := c.root, lslot := c.lslot
      sup := c.sup, dst := 0, src := 0, len := 0, counter := c.counter, tag := 0, aux0 := 0, aux1 := 0
      ui := false, done := 0, status := status, ended := true, flags := flags, cause := cause
      faddr := faddr, wait := false, n := 0, rank := 0, gtag := 0, members := [], lw := c.lw, sent := false
      got := [] }
  ({ s with acmds := s.acmds ++ [a] }.post (.asyncCommandComplete c.id)).pokeTile m

/-! ## K steps -/

/-- The island clock, the halt state and the context let the tile of a queue's head run. -/
def State.tileRuns (s : State) (m : Nat) : Bool :=
  s.clockOn (clusterIsland m) && s.prtRuns (s.cluOwner m)

/-- Rows and columns of the next K step of a command. -/
def State.mxFetch (s : State) (c : MxCmd) (f : Fmt) :
    Except (Nat × W64) (List OpRow × List OpRow) × State :=
  let k := fld c.shape 47 16
  let k0 := c.kdone * mxStep f
  s.readStep c.fetcher f (c.aBase.toNat, c.aStride.toNat) (c.bBase.toNat, c.bStride.toNat)
    (fld c.shape 5 0 + 1) (fld c.shape 13 8 + 1) k0 (Nat.min (mxStep f) (k - k0))

/-- The K step of a tile's queues (R207, R208): the arbiter grants one K step; a fault of its fetch stops the command
with the sums of the completed steps kept. -/
def State.queueGrant (s : State) (m : Nat) : State :=
    if !s.tileRuns m ∨ (List.range 8).any (fun k =>
        ((s.clu m).queues.look [] k).any (fun c => c.granted)) then s
    else
      match s.mxPick m with
      | none => s
      | some (k, streak) =>
        match s.mxHead m k with
        | none => s
        | some c =>
          let s := s.setClu m { s.clu m with lastQ := k, streak := streak }
          match mxFmt (fld c.shape 51 48) with
          | none => s.endMx m k c 7 0 0 0
          | some f =>
            match s.mxFetch c f with
            | (.error (cause, v), s) => s.endMx m k c (faultStatus cause) cause v 0
            | (.ok x, s) =>
              (s.setMx m k c.id (fun c => { c with granted := true, fetched := some x })).post (.kStepDone m)

/-- The queue and command whose K step has been granted. -/
def State.mxGranted (s : State) (m : Nat) : Option (Nat × MxCmd) :=
  (List.range 8).findSome? (fun k =>
    (((s.clu m).queues.look [] k).find? (fun c => c.granted)).map (fun c => (k, c)))

/-- Home address of the first byte of an accumulator offset of a core and context. -/
def State.accHome (s : State) (core ctx : Nat) (lw : Option Win) (off : Nat) : Nat :=
  (lw.getD (s.win core ctx)).acc + off

/-- The end of a queue's K step (R206, R209): the step's sums become visible; after the last step the locks clear. -/
def State.queueDone (s : State) (m : Nat) : State :=
    match s.mxGranted m with
    | none => s
    | some (k, c) =>
      match mxFmt (fld c.shape 51 48), c.fetched with
      | some f, some (rows, cols) =>
          let s := s.unpin m
          let c0 := s.accHome (8 * m + k) c.ctx c.lw c.off
          let s := if c.kdone = 0 ∧ bitAt c.shape 53 then
            s.mxClear f c0 (fld c.shape 5 0 + 1) (fld c.shape 13 8 + 1) else s
          let (s, fl) := s.mxStepAt f (bitAt c.shape 54) c0 rows cols
          let c := { c with kdone := c.kdone + 1, granted := false, fetched := none, flags := c.flags ||| fl }
          if fld c.shape 47 16 ≤ c.kdone * mxStep f then s.endMx m k c 0 0 0 c.flags
          else (s.setMx m k c.id (fun _ => c)).post (.kStepGrant m)
      | _, _ => s

/-! ## Drains (R210, R211) -/

/-- The drain at the head of queue `k`. -/
def State.drainHead (s : State) (m k : Nat) : Option MxCmd :=
  match s.mxHead m k with
  | some c => if c.drain then some c else none
  | none => none

def drainRows (c : MxCmd) : Nat := fld c.dword 23 18 + 1

/-- The handler of row `i` starts in a free slot of the issuing core (R193). -/
def State.startHandler (s : State) (m k t : Nat) (c : MxCmd) (i : Nat) : State :=
  let rowB := if drainAcc c.dword = .f64 then 128 else 256
  let s := s.unitAdd c.prt c.lslot
  let pk : Packet :=
    { kind := .drain, pc := c.mxhpc
      regs := gRegs [(1, localAcc + 2048 * fld c.dword 6 0 + i * rowB), (2, i), (3, c.g3.toNat),
        (5, fld c.dword 63 56)]
      ft := c.ft, sc := c.sc, prio := 3, prt := c.prt, ctx := c.ctx, asid := c.asid, root := c.root
      lslot := c.lslot, row := some (c.id, i), lw := c.lw }
  ((s.startThread t pk c.sc).setMx m k c.id (fun c => { c with rowStart := i + 1 })).post (.taskDispatch (8 * m + k))

/-- DRAIN_ROW_START (R210): the next row of a queue's head drain leaves directly, or starts its
handler in a free slot; rows behind a row that waits for a slot wait too. -/
def execDrainRowStart (m : Nat) (s : State) : Host.Outcome State Fault Refusal :=
  .next (
    if !s.tileRuns m then s
    else
      let s' := (List.range 8).foldl (fun (t : State × Bool) k =>
        match t.1.drainHead m k with
        | none => t
        | some c =>
          if drainRows c ≤ c.rowStart then t
          else if c.mxhpc.toNat / 4 = 0 then
            ((t.1.setMx m k c.id (fun c =>
              { c with rowStart := c.rowStart + 1, released := c.released ++ [c.rowStart] })).post
              (.drainRowWrite m), true)
          else
            match (if (t.1.prt c.prt).ctxState = 1 then none else t.1.freeSlot (8 * m + k) .drain) with
            | some i => (t.1.startHandler m k (16 * (8 * m + k) + i) c c.rowStart, true)
            | none => t) (s, false)
      if s'.2 then s'.1.post (.drainRowStart m) else s)

/-- One accumulator element in the output format (R210); SAT saturates into narrower integer formats
(R389), and another integer conversion wraps or extends (R286). -/
def drainElem (f g : Fmt) (rm : Rm) (sat : Bool) (x : Nat) : Nat :=
  if f = g then x
  else if !f.isFloat && !g.isFloat then
    let v := FP.readInt f x
    FP.wrapInt g.width (if sat && decide (g.width < f.width) then FP.clampInt g v else v)
  else (cvtElem f g rm sat x).1

/-- The home of accumulator row `i`. -/
def State.drainFrom (s : State) (m k : Nat) (c : MxCmd) (i : Nat) : Nat :=
  s.accHome (8 * m + k) c.ctx c.lw (fld c.dword 6 0 * 2048 + i * (if drainAcc c.dword = .f64 then 128 else 256))

/-- Row `i` holds a word with an uncorrectable error: the drain ends MEMERR (R254, R386). -/
def State.drainPoison (s : State) (m k : Nat) (c : MxCmd) (i : Nat) : Bool :=
  s.poisoned (s.drainFrom m k c i) ((fld c.dword 17 12 + 1) * ((drainAcc c.dword).width / 8))

/-- The bytes of row `i` in the output format. -/
def State.drainRow (s : State) (m k : Nat) (c : MxCmd) (g : Fmt) (i : Nat) : List Byte :=
  let f := drainAcc c.dword
  let e := f.width / 8
  let n := fld c.dword 17 12 + 1
  let a := s.drainFrom m k c i
  (List.range n).flatMap (fun j => leBytes (g.width / 8)
    (drainElem f g (rmOf (fld c.dword 27 26)) (bitAt c.dword 11) (s.readHome (a + j * e) e)))

/-- DRAIN_ROW_WRITE (R210): a released row is converted and written once every lower row has been;
a destination fault stops the drain. -/
def execDrainRowWrite (m : Nat) (s : State) : Host.Outcome State Fault Refusal :=
  .next (
    if !s.tileRuns m then s
    else
      match (List.range 8).findSome? (fun k =>
          match s.drainHead m k with
          | some c => if c.released.contains c.rowNext then some (k, c) else none
          | none => none) with
      | none => s
      | some (k, c) =>
        match drainOut c.dword with
        | none => s.endMx m k c 7 0 0 0
        | some g =>
          let va := (c.dst.toNat + c.rowNext * fld c.dword 55 32) % 2 ^ 64
          if s.drainPoison m k c c.rowNext then s.endMx m k c (faultStatus cMEMERR) cMEMERR 0 0
          else
          match s.engineWrite c.agent va (s.drainRow m k c g c.rowNext) with
          | .error (cause, v) => if cause = cWAIT then s else s.endMx m k c (faultStatus cause) cause v 0
          | .ok s =>
            let n := c.rowNext + 1
            if drainRows c ≤ n then s.endMx m k c 0 0 0 0
            else (s.setMx m k c.id (fun c => { c with rowNext := n })).post (.drainRowWrite m))

end Sys2Proof.Machine
end

