-- ==== Sys2Proof/Machine/Async.lean ====
section
/-!
DEFINITION. The async engines of a cluster (14 R390 to R396): issuing a command, its 64-byte parts,
collectives, completion (R386), waiting and cancelling.
-/

namespace Sys2Proof.Machine

open Sys2Proof

/-! ## Issue (R390, R391) -/

/-- The engine a command runs on: 0 copy, 1 gather, 2 collective; matrix commands apart. -/
def ACmd.engine (c : ACmd) : Nat :=
  match c.op with | 0 => 0 | 1 => 1 | 2 => 1 | 3 => 2 | _ => 3 + c.id

/-- Ranges of `n` bytes at a and b have a byte in common. -/
def rangesMeet (a b n : Nat) : Bool := decide (a < b + n) && decide (b < a + n)

/-- R391 to R394: the descriptor is well formed for its command. -/
def descOk (op pkg : Nat) (l : List Byte) : Bool :=
  let aux0 := q8 l 40
  let aux1 := q8 l 48
  decide (q8 l 56 = 0) && !nbit (q8 l 32) 63 && decide (q8 l 24 % 8 = 0) &&
    (match op with
     | 0 =>
       let sp := if nbit aux1 24 then nfld aux1 23 16 else pkg
       let dp := if nbit aux1 8 then nfld aux1 7 0 else pkg
       decide (aux0 = 0) && decide (aux1 / 2 ^ 25 = 0) && decide (nfld aux1 15 9 = 0) &&
         !(nbit aux1 24 && nbit aux1 8) &&
         !(sp == dp && rangesMeet (q8 l 0) (q8 l 8) (q8 l 16))
     | 3 =>
       decide (aux1 / 2 ^ 10 = 0) && decide (nfld aux1 3 0 ≤ 3) && decide (nfld aux1 9 8 ≤ 2) &&
         (decide (nfld aux1 7 4 ≠ 6) && decide (nfld aux1 7 4 ≠ 7))
     | _ => decide (aux1 / 2 ^ 4 = 0) && decide (nfld aux1 2 0 ≤ 6))

def maxCmds : Nat := 16

/-- The thread's 16 most recent commands (R395). -/
def Thread.recent (t : Thread) : List (Nat × Option Nat) := t.cmds.drop (t.cmds.length - 16)

/-- Records a new command; one completed and no longer among the 16 most recent goes, unless an AWAIT of
every command waits for it. -/
def Thread.addCmd (t : Thread) (h : Nat) : Thread :=
  let old := t.cmds.take (t.cmds.length + 1 - 16)
  let kept := old.filter (fun x => x.2.isNone || t.awaits.contains x.1)
  { t with handle := h, cmds := kept ++ t.cmds.drop (t.cmds.length + 1 - 16) ++ [(h, none)] }

def maxUi : Nat := 8

/-- `.ui` commands of the thread that are outstanding or pending together (R199). -/
def State.uiCount (s : State) (t : Nat) : Nat :=
  (s.thread t).uiPend.length +
    (s.acmds.filter (fun c => c.tid == t && c.life == (s.thread t).life && c.ui)).length

/-- Handles count from 1, wrapping at 2^32 and skipping 0 (R390). -/
def nextHandle (h : Nat) : Nat := if h + 1 = 2 ^ 32 then 1 else h + 1

/-- The command a descriptor asks for. -/
def State.mkCmd (s : State) (id op h : Nat) (word : W32) (ui : Bool) (l : List Byte) : ACmd :=
  let th := s.thr
  let w (i : Nat) : W64 := BitVec.ofNat 64 (q8 l i)
  let ok := descOk op s.pkg l
  { id := id, tid := s.tid, life := th.life, cluster := s.tid / 128, op := op, handle := h
    word := word, pc := th.pc, prt := th.prt, ctx := th.ctx, asid := th.asid, root := th.root
    lslot := th.lslot, sup := th.sup, dst := w 0, src := w 8, len := w 16
    counter := if q8 l 24 % 8 = 0 then w 24 else 0, tag := w 32, aux0 := w 40, aux1 := w 48
    ui := ui, done := 0, status := if ok then 0 else 7, ended := !ok || decide (q8 l 16 = 0)
    flags := 0, cause := 0, faddr := 0, wait := false, n := 0, rank := 0, gtag := 0, members := []
    lw := th.lw, sent := false, got := [] }

/-! ## Running commands -/

def State.acmd (s : State) (id : Nat) : Option ACmd := s.acmds.find? (fun c => c.id == id)

/-- An engine starts and completes a thread's commands in issue order (R390). -/
def State.oldest (s : State) (c : ACmd) : Bool :=
  match s.acmds.find? (fun x => x.tid == c.tid && x.life == c.life && x.engine == c.engine) with
  | some x => x.id == c.id
  | none => false

/-- An access of a command has failed, or waits for a clock. -/
def State.faultCmd (s : State) (c : ACmd) (e : Nat × W64) : State :=
  if e.1 = cWAIT then s.setCmd c else s.endCmd c (faultStatus e.1) e.1 e.2

/-- A part is done: the command goes on or ends. -/
def State.partDone (s : State) (c : ACmd) (done total : Nat) : State :=
  let c := { c with done := done, wait := false }
  if total ≤ done then s.endCmd c 0 0 0 else (s.setCmd c).pokeCmd c

/-- Asks another package for a part (R392): NOROUTE when the partition has no domain (R38). -/
def State.askRemote (s : State) (c : ACmd) (pkg : Nat) (p : Nat → Payload) : State :=
  let q := s.prt c.prt
  if !q.domValid then s.endCmd c 4 0 0
  else
    let (id, s) := s.newId
    let s := { s.setCmd { c with wait := true } with
      lnk := { s.lnk with reqs := s.lnk.reqs ++ [RReq.mk id (some c.id) c.tid] } }
    let cls : FClass := match p id with | .write _ _ _ _ => .bulk | _ => .lowLatency
    s.sendFlit none (mkFlit s.pkg pkg q.domain.toNat cls (p id))

/-- Bytes of the next part of a copy: up to the next 64-byte boundary of the destination. -/
def ACmd.partLen (c : ACmd) : Nat :=
  Nat.min (64 - (c.dst.toNat + c.done) % 64) (c.len.toNat - c.done)

/-- One part of ACOPY (R392). -/
def State.copyPart (s : State) (c : ACmd) : State :=
  let n := c.partLen
  let src := (c.src.toNat + c.done) % 2 ^ 64
  let dst := (c.dst.toNat + c.done) % 2 ^ 64
  let spkg := fld c.aux1 23 16
  let dpkg := fld c.aux1 7 0
  if bitAt c.aux1 24 ∧ spkg ≠ s.pkg then s.askRemote c spkg (fun r => .read c.asid src n r)
  else
    match s.agentRead c.agent src n with
    | .error e => s.faultCmd c e
    | .ok l =>
      let s := s.agentTook c.agent src n
      if bitAt c.aux1 8 ∧ dpkg ≠ s.pkg then s.askRemote c dpkg (fun r => .write c.asid dst l r)
      else
        match s.engineWrite c.agent dst l with
        | .error e => s.faultCmd c e
        | .ok s => s.partDone c (c.done + n) c.len.toNat

/-- The index of element `i` (R393). -/
def State.gatherIdx (s : State) (c : ACmd) (i : Nat) : Except (Nat × W64) Nat :=
  let w := if bitAt c.aux1 3 then 8 else 4
  match s.agentRead c.agent ((c.aux0.toNat + i * w) % 2 ^ 64) w with
  | .ok l => .ok (leNat l)
  | .error e => .error e

/-- Element `i` of AGATHER or ASCATTER. -/
def State.gatherOne (s : State) (c : ACmd) (i : Nat) : Except (Nat × W64) State :=
  let e := 2 ^ fld c.aux1 2 0
  match s.gatherIdx c i with
  | .error x => .error x
  | .ok k =>
    let (si, di) := if c.op = 1 then (k, i) else (i, k)
    match s.agentRead c.agent ((c.src.toNat + si * e) % 2 ^ 64) e with
    | .error x => .error x
    | .ok l => (s.agentTook c.agent ((c.src.toNat + si * e) % 2 ^ 64) e).engineWrite c.agent ((c.dst.toNat + di * e) % 2 ^ 64) l

/-- Elements from `i` on, ascending, `n` of them. -/
def State.gatherRun (s : State) (c : ACmd) (i : Nat) : Nat → State
  | 0 => s.partDone c i c.len.toNat
  | n + 1 =>
    match s.gatherOne c i with
    | .error x => s.faultCmd { c with done := i } x
    | .ok s => s.gatherRun c (i + 1) n

def State.gatherPart (s : State) (c : ACmd) : State :=
  s.gatherRun c c.done (Nat.min (Nat.max 1 (64 / 2 ^ fld c.aux1 2 0)) (c.len.toNat - c.done))

/-! ## Collectives (R394) -/

def collOp (c : ACmd) : Nat := fld c.aux1 3 0
def collFmt (c : ACmd) : Fmt := (Enc.fmtOf (BitVec.ofNat 4 (fld c.aux1 7 4))).getD .f32
def collRed (c : ACmd) : Nat := fld c.aux1 9 8

/-- Elements per chunk, and the bounds of chunk `j`. -/
def ACmd.chunk (c : ACmd) : Nat := (c.len.toNat + c.n - 1) / c.n
def ACmd.lo (c : ACmd) (j : Nat) : Nat := Nat.min (j * c.chunk) c.len.toNat
def ACmd.hi (c : ACmd) (j : Nat) : Nat := Nat.min ((j + 1) * c.chunk) c.len.toNat

/-- Elements of SRC the member contributes. -/
def ACmd.share (c : ACmd) : Nat :=
  match collOp c with
  | 2 => c.hi c.rank - c.lo c.rank
  | 3 => if c.rank = 0 then c.len.toNat else 0
  | _ => c.len.toNat

/-- One step of a reduction (R394): ADD rounds by RNE or wraps, MIN and MAX follow R352. -/
def collStep (f : Fmt) (red x y : Nat) : Nat × FP.Flags :=
  if f.isFloat then
    match red with
    | 0 => FP.add f .rne x y
    | 1 => FP.minmax f false x y
    | _ => FP.minmax f true x y
  else
    match red with
    | 0 => ((x + y) % 2 ^ f.width, 0)
    | 1 => (if FP.readInt f y < FP.readInt f x then y else x, 0)
    | _ => (if FP.readInt f x < FP.readInt f y then y else x, 0)

/-- Element `i` of member `r`'s data. -/
def ACmd.elem (c : ACmd) (r i : Nat) : Nat :=
  let e := (collFmt c).width / 8
  let l := ((c.got.find? (fun x => x.1 == r)).map (·.2)).getD []
  leNat ((l.drop (i * e)).take e)

/-- Element `i` of chunk `j`, folded from member j on, modulo N (R291). -/
def ACmd.folded (c : ACmd) (j i : Nat) : Nat × FP.Flags :=
  (List.range (c.n - 1)).foldl (fun (t : Nat × FP.Flags) k =>
    let r := collStep (collFmt c) (collRed c) t.1 (c.elem ((j + 1 + k) % c.n) i)
    (r.1, t.2 ||| r.2)) (c.elem j i, 0)

/-- What DST of this member receives, element by element. -/
def ACmd.result (c : ACmd) : List (Nat × FP.Flags) :=
  match collOp c with
  | 0 => (List.range c.len.toNat).map (fun i => c.folded (i / c.chunk) i)
  | 1 => (List.range (c.hi c.rank - c.lo c.rank)).map (fun i => c.folded c.rank (c.lo c.rank + i))
  | 2 => (List.range c.len.toNat).map (fun i => (c.elem (i / c.chunk) (i % c.chunk), 0))
  | _ => (List.range c.len.toNat).map (fun i => (c.elem 0 i, 0))

/-- Data that wait for a command: of its group, for its member. -/
def ACmd.awaits (c : ACmd) (e : Nat × Payload) : Bool :=
  e.1 == c.prt && (match e.2 with
    | .coll g _ _ _ _ _ rank _ _ sender rcpt _ => rcpt == c.me && c.inGroup g rank sender
    | _ => false)

/-- A member that issues after its group aborted leaves the record of it, and the data that wait for it go
(R394). -/
def State.collLate (s : State) (c : ACmd) : Option State :=
  let hit (d : Nat × W64 × Nat × W32 × W32) : Bool :=
    d.1 == c.prt && d.2.2.2.2 == c.me && c.inGroup d.2.1 d.2.2.1 d.2.2.2.1
  if s.lnk.collDead.any hit then
    some { s with lnk := { s.lnk with collDead := s.lnk.collDead.filter (fun d => !hit d)
                                      coll := s.lnk.coll.filter (fun e => !c.awaits e) } }
  else none

/-- Data of member `rank` reach the engine of the member `to`: its command folds them, or aborts when
they disagree with it in GTAG, N, LEN, OP, FMT or RED; data whose command has not been issued are held. -/
def State.collArrive (s : State) (q rank : Nat) (gtag : W64) (n len op fmt red : Nat)
    (data : List Byte) (sender rcpt : W32) : State :=
  let mine := s.acmds.filter (fun c => c.op == 3 && !c.ended && c.prt == q && c.sent &&
    c.me == rcpt && !c.got.any (fun x => x.1 == rank))
  let pick := match mine.find? (fun c => c.gtag == gtag) with
    | some c => some c
    | none => mine.find? (fun c => c.members.getD rank 0 == sender)
  match pick with
  | none => { s with lnk := { s.lnk with
      coll := s.lnk.coll ++ [(q, .coll gtag n len op fmt red rank data.length data sender rcpt 0)] } }
  | some c =>
    if c.gtag == gtag && c.n == n && c.len.toNat == len && collOp c == op &&
        fld c.aux1 7 4 == fmt && collRed c == red then
      let c := { c with got := c.got ++ [(rank, data)] }
      (s.setCmd c).pokeCmd c
    else s.abortAll c

/-- A COLLECTIVE flit (R37): its part joins those that came before; the last one completes the data. -/
def State.collFlit (s : State) (q : Nat) (gtag : W64) (n len op fmt red rank total : Nat)
    (data : List Byte) (sender rcpt : W32) : State :=
  let mine (e : Nat × Payload) : Option (List Byte) :=
    match e.2 with
    | .coll g n' l o f r k t d a b _ =>
      if e.1 = q ∧ g = gtag ∧ n' = n ∧ l = len ∧ o = op ∧ f = fmt ∧ r = red ∧ k = rank ∧ t = total ∧ a = sender ∧ b = rcpt
      then some d else none
    | _ => none
  let sofar := (s.lnk.collIn.findSome? mine).getD [] ++ data
  let others := s.lnk.collIn.filter (fun e => (mine e).isNone)
  if total ≤ sofar.length then
    { s with lnk := { s.lnk with collIn := others } }.collArrive q rank gtag n len op fmt red sofar sender rcpt
  else { s with lnk := { s.lnk with
    collIn := others ++ [(q, .coll gtag n len op fmt red rank total sofar sender rcpt 0)] } }

/-- The scope an asynchronous command is released at (R390): SYSTEM with a remote part, else PACKAGE. -/
def State.issueScope (s : State) (c : ACmd) : Nat :=
  let remote : Bool :=
    if c.op = 0 then bitAt c.aux1 24 || bitAt c.aux1 8
    else c.op == 3 &&
      match s.readGroup c with
      | .ok (some c) => !(c.remotes s.pkg).isEmpty
      | _ => false
  if remote then 5 else 4

/-- ACOPY, AGATHER, ASCATTER and ACOLL (R390): the descriptor is read, the command is released and
handed to its engine, and its handle is written. -/
def State.issueCmd (s : State) (w : W32) (op : Nat) (a c : GReg) (ui : Bool) : State :=
  if maxCmds ≤ (s.thr.cmds.filter (fun x => x.2.isNone)).length then s.waitIn .memory true
  else if ui ∧ maxUi ≤ s.uiCount s.tid then s.waitIn .retry true
  else s.readRecord w (s.g a).toNat 64 (fun l s =>
    let (id, s) := s.newId
    let h := nextHandle s.thr.handle
    let cmd := s.mkCmd id op h w ui l
    let s := s.release (s.issueScope cmd)
    let s := s.setThr (s.thr.addCmd h)
    ({ s with acmds := s.acmds ++ [cmd] }.fin c (BitVec.ofNat 64 h)).pokeCmd cmd)

/-- ACOPY (R392). -/
def execAcopy (a c : GReg) (ui : Bool) (s : State) : Host.Outcome State Fault Refusal :=
  .next (s.issueCmd (wordOf (.acopy a c ui)) 0 a c ui)

/-- AGATHER (R393). -/
def execAgather (a c : GReg) (ui : Bool) (s : State) : Host.Outcome State Fault Refusal :=
  .next (s.issueCmd (wordOf (.agather a c ui)) 1 a c ui)

/-- ASCATTER (R393). -/
def execAscatter (a c : GReg) (ui : Bool) (s : State) : Host.Outcome State Fault Refusal :=
  .next (s.issueCmd (wordOf (.ascatter a c ui)) 2 a c ui)

/-- ACOLL (R394). -/
def execAcoll (a c : GReg) (ui : Bool) (s : State) : Host.Outcome State Fault Refusal :=
  .next (s.issueCmd (wordOf (.acoll a c ui)) 3 a c ui)

/-- Held data for a command just issued. -/
def State.takeHeld (s : State) (c : ACmd) : State :=
  let hs := s.lnk.coll.filter c.awaits
  let s := { s with lnk := { s.lnk with coll := s.lnk.coll.filter (fun e => !c.awaits e) } }
  hs.foldl (fun s e =>
    match e.2 with
    | .coll g n len op fmt red rank _ data sender rcpt _ =>
      s.collArrive c.prt rank g n len op fmt red data sender rcpt
    | _ => s) s

/-- Bytes of ACOLL data in one flit, of the 228 a payload holds (R37, log 11). -/
def collPartBytes : Nat := 128

/-- Data cut into the parts that flits carry: at least one. -/
def collParts : Nat → List Byte → List (List Byte)
  | 0, l => [l]
  | f + 1, l => if l.length ≤ collPartBytes then [l] else l.take collPartBytes :: collParts f (l.drop collPartBytes)

/-- Sends a member's data to each member in another package, under the command's name, so that a flit
without a route ends it NOROUTE (R42, R386). -/
def State.collSend (s : State) (c : ACmd) (own : List Byte) : State :=
  (c.remotes s.pkg).foldl (fun s rcpt =>
    let (id, s) := s.newId
    let s := { s with lnk := { s.lnk with reqs := s.lnk.reqs ++ [RReq.mk id (some c.id) c.tid] } }
    (collParts (own.length / collPartBytes) own).foldl (fun s part =>
      s.sendFrom c.prt (sitePkg rcpt) .collective
        (.coll c.gtag c.n c.len.toNat (collOp c) (fld c.aux1 7 4) (collRed c) c.rank own.length part
          c.me rcpt id)) s) s

/-- The member's data go to every other member; data the others have sent come to it. A member of
the same list under another tag disagrees (R394). -/
def State.collStart (s : State) (c : ACmd) (own : List Byte) : State :=
  let c := { c with sent := true, got := [(c.rank, own)] }
  let others := s.acmds.filter (fun x =>
    x.op == 3 && !x.ended && x.prt == c.prt && x.sent && x.id != c.id)
  let s := s.setCmd c
  let me := c.members.getD c.rank 0
  match others.find? (fun x => x.members == c.members && x.gtag != c.gtag &&
      !x.got.any (fun g => g.1 == c.rank)) with
  | some x => (s.abortAll x).abortAll c
  | none =>
    let s := (others.filter (fun x => x.gtag == c.gtag)).foldl (fun s x =>
      s.collArrive c.prt x.rank x.gtag x.n x.len.toNat (collOp x) (fld x.aux1 7 4) (collRed x)
        (((x.got.find? (fun g => g.1 == x.rank)).map (·.2)).getD []) (x.members.getD x.rank 0) me) s
    let s := ((others.filter (fun x => x.gtag == c.gtag)).map (fun x => x.members.getD x.rank 0)).foldl (fun s rcpt =>
      s.collArrive c.prt c.rank c.gtag c.n c.len.toNat (collOp c) (fld c.aux1 7 4) (collRed c) own me rcpt) s
    let s := s.takeHeld c
    if s.acmds.any (fun x => x.id == c.id && x.ended) then s else s.collSend c own

/-- One part of ACOLL: joining the group, then writing the result once every member's data are here. -/
def State.collPart (s : State) (c : ACmd) : State :=
  if !c.sent then
    match s.readGroup c with
    | .error e => s.faultCmd c e
    | .ok none => s.endCmd c 7 0 0
    | .ok (some c) =>
      match s.collLate c with
      | some s => s.endCmd c 3 0 0
      | none =>
      if !(c.remotes s.pkg).isEmpty && !(s.prt c.prt).domValid then s.endCmd c 4 0 0
      else
        match s.agentRead c.agent c.src.toNat (c.share * ((collFmt c).width / 8)) with
        | .error e => s.faultCmd c e
        | .ok own => ((s.agentTook c.agent c.src.toNat (c.share * ((collFmt c).width / 8))).collStart c own).post
            (.asyncEngineTransfer c.id)
  else if c.got.length < c.n then s
  else
    let rs := c.result
    let bytes := rs.flatMap (fun x => leBytes ((collFmt c).width / 8) x.1)
    let c := { c with flags := orAll rs }
    let dst := (c.dst.toNat + c.done) % 2 ^ 64
    let n := Nat.min (64 - dst % 64) (bytes.length - c.done)
    if n = 0 then s.endCmd c 0 0 0
    else
      match s.engineWrite c.agent dst ((bytes.drop c.done).take n) with
      | .error e => s.faultCmd c e
      | .ok s => s.partDone c (c.done + n) bytes.length

/-- COLLECTIVE_DATA_RECEIVE (R394). -/
def execCollectiveDataReceive (id rank : Nat) (gtag : W64) (n len op fmt red : Nat)
    (data : List Byte) (s : State) : Host.Outcome State Fault Refusal :=
  .next (
    match s.acmd id with
    | none => s
    | some c =>
      if c.op ≠ 3 ∨ c.ended ∨ !c.sent then s
      else if c.gtag ≠ gtag then s.abortAll c
      else s.collArrive c.prt rank gtag n len op fmt red data (c.members.getD rank 0) (c.members.getD c.rank 0))

/-! ## Parts and completion -/

/-- The engine runs: its clock is on, it is not halted, the command's context runs. -/
def State.cmdRuns (s : State) (c : ACmd) : Bool :=
  s.clockOn (clusterIsland c.cluster) && s.prtRuns (some c.prt) && s.active c.prt c.ctx

/-- ASYNC_ENGINE_TRANSFER (R392 to R394): the next part of a running command. -/
def execAsyncEngineTransfer (id : Nat) (s : State) : Host.Outcome State Fault Refusal :=
  .next (
    match s.acmd id with
    | none => s
    | some c =>
      if c.ended ∨ c.wait ∨ !s.cmdRuns c ∨ !s.oldest c then s
      else
        match c.op with
        | 0 => s.copyPart c
        | 1 => s.gatherPart c
        | 2 => s.gatherPart c
        | 3 => s.collPart c
        | _ => s)

/-- The counter word of a completed command (R386): +1 for OK, +(2^32 + 1) for another status. -/
def State.countCmd (s : State) (c : ACmd) : State :=
  if c.counter = 0 then s
  else
    let k : AccKind := { rd := true, wr := true, counter := true }
    match s.agentParts c.agent k c.counter.toNat 8 with
    | .ok [(p, _)] =>
      let x := BitVec.ofNat 64 (s.readHome p.pa 8) + (if c.status = 0 then 1 else 0x100000001)
      s.agentPut c.agent.die p (leBytes 8 x.toNat)
    | _ => s

/-- The issuing thread, when it is still live: status, flags, `.ui` record (R199, R285, R395). -/
def State.tellIssuer (s : State) (c : ACmd) : State :=
  let th := s.thread c.tid
  let note := c.ui && decide (c.status ≠ 2)
  let told (th : Thread) : Thread := { th with
    cmds := th.cmds.map (fun x => if x.1 = c.handle ∧ x.2 = none then (x.1, some c.status) else x)
    fflags := th.fflags ||| c.flags
    uiPend := if note then th.uiPend ++ [c.tag] else th.uiPend }
  if th.life ≠ c.life ∨ th.st = .empty then
    -- A thread that a core move left waiting for a slot is told there (R96, R420).
    { s with cores := s.cores.map (fun (e : Nat × Core) => (e.1, { e.2 with
        queue := e.2.queue.map (fun pk => { pk with moved := pk.moved.map (fun t =>
          if t.life = c.life then told t else t) }) })) }
  else
    let s := s.setThread c.tid (told th)
    if note then s.waitiEvent 3 (fun t _ => t == c.tid) else s

/-- ASYNC_COMMAND_COMPLETE (R386): a thread record for FAULT, the counter, the issuer; completions
of one thread on one engine keep issue order. -/
def execAsyncCommandComplete (id : Nat) (s : State) : Host.Outcome State Fault Refusal :=
  .next (
    match s.acmd id with
    | none => s
    | some c =>
      if !c.ended ∨ !s.cmdRuns c ∨ !s.oldest c then s
      else
        let s := { s with acmds := s.acmds.filter (fun x => x.id != id) }
        let s := if c.status = 1 then
          s.faultRecord c.prt (slotSite s.pkg (slotOf c.tid))
            (threadRecord (slotSite s.pkg (slotOf c.tid)) c.word c.cause c.lslot c.faddr c.pc)
          else s
        let s := ((s.countCmd c).tellIssuer c).pokeCtx c.prt
        match s.acmds.find? (fun x => x.tid == c.tid && x.life == c.life && x.engine == c.engine) with
        | some x => s.pokeCmd x
        | none => s)

/-! ## AWAIT and ACANCEL (R395, R396) -/

/-- AWAIT (R395). -/
def execAwait (a c : GReg) (s : State) : Host.Outcome State Fault Refusal :=
  let th := s.thr
  let h := s.g a
  let st (n : Nat) : Option (Option Nat) := (th.cmds.find? (fun x => x.1 == n)).map (·.2)
  let late (n : Nat) : Bool := !th.recent.any (fun x => x.1 == n)
  .next (
    if h = 0 then
      let hs := if th.awaits.isEmpty then (th.cmds.filter (fun x => x.2.isNone)).map (·.1) else th.awaits
      if hs.any (fun n => st n == some none) then
        (s.setThr { th with awaits := hs }).waitIn .blocked true
      else
        let bad := hs.filterMap (fun n => match st n with
          | some (some x) => if x = 0 then none else some x
          | _ => none)
        ((s.setThr { th with awaits := [] }).acquire 4).fin c (BitVec.ofNat 64 (bad.headD 0))
    else
      match (if late h.toNat then none else st h.toNat) with
      | none => s.fin c 15
      | some none => s.waitIn .blocked true
      | some (some x) => (s.acquire 4).fin c (BitVec.ofNat 64 x))

/-- ACANCEL (R396): 0 when a running command was stopped, else 1. -/
def execAcancel (a c : GReg) (s : State) : Host.Outcome State Fault Refusal :=
  let h := (s.g a).toNat
  .next (
    match s.acmds.find? (fun x => x.tid == s.tid && x.life == s.thr.life && x.handle == h &&
        x.op ≤ 3 && !x.ended) with
    | none => s.fin c 1
    | some x =>
      let x := s.collGroup x
      let s := s.endCmd x 2 0 0
      let s := if x.op = 3 ∧ x.sent then s.abortAll x else s
      s.fin c 0)

end Sys2Proof.Machine
end

