-- ==== Sys2Proof/Machine/Memory.lean ====
section
/-!
DEFINITION. Loads, stores, full-empty words, prefetch, relaxation and fences (12 R330 to R340).
-/

namespace Sys2Proof.Machine

open Sys2Proof

/-- LD (R332). -/
def execLd (d base : GReg) (off : BitVec 10) (sz : MSize) (sx ord : Bool) (s : State) :
    Host.Outcome State Fault Refusal :=
  let n := sizeBytes sz
  .next (s.doLoad (wordOf (.ld d base off sz sx ord)) (s.ea base off n) n sx ord (s.thr.gDest d))

/-- ST (R332). -/
def execSt (src base : GReg) (off : BitVec 10) (sz : MSize) (ord : Bool) (s : State) :
    Host.Outcome State Fault Refusal :=
  let n := sizeBytes sz
  .next (s.doStore (wordOf (.st src base off sz ord)) (s.ea base off n) n
    (BitVec.ofNat 256 ((s.g src).toNat % 256 ^ n)) ord)

/-- LDV (R333): 32 bytes into a packed register. -/
def execLdv (vd : VReg) (base : GReg) (off : BitVec 10) (ord : Bool) (s : State) :
    Host.Outcome State Fault Refusal :=
  .next (s.doLoad (wordOf (.ldv vd base off ord)) (s.ea base off 32) 32 false ord (.v vd.toNat))

/-- STV (R333). -/
def execStv (vs : VReg) (base : GReg) (off : BitVec 10) (ord : Bool) (s : State) :
    Host.Outcome State Fault Refusal :=
  .next (s.doStore (wordOf (.stv vs base off ord)) (s.ea base off 32) 32 (s.v vs) ord)

/-! ## Full-empty words (R334 to R337) -/

/-- The kind of a full-empty access: READ and WRITE are needed (R244), and effective tracking; none
returns data before its wait is over. -/
def feKind : AccKind := { rd := true, wr := true, fe := true, atomic := true, noData := true }

/-- The thread waits at the word's home, in `st`, until the home serves it (R337). -/
def State.waitHome (s : State) (st : SlotSt) (w : Waiter) : State :=
  { s with waiters := s.waiters ++ [w] }.setThr
    { s.thr with st := st, atHome := true, poll := false }

/-- A full-empty instruction that waits for its condition: it joins the word's waiters and the home
serves the word at once (R337). One that would read a word with an uncorrectable error raises MEMERR
(R254). -/
def State.feWait (s : State) (w : W32) (p : Part) (va : Nat) (rel acq : Bool) (k : WaitKind) : State :=
  if k.reads && s.fullAt p.pa && s.poisoned p.pa 8 then
    s.takeTrap w cMEMERR (BitVec.ofNat 64 va) feKind.detail
  else
    let n := s.thr.rlx
    ((s.beforeAtomic p rel).waitHome .memory ⟨s.tid, va, p.pa, p, acq, k, n⟩).serveWord p.pa

/-- LDF (R335): waits until full, reads, and empties the word in the clearing form. -/
def execLdf (d base : GReg) (off : BitVec 10) (clr ord : Bool) (s : State) :
    Host.Outcome State Fault Refusal :=
  .next (s.atomically (wordOf (.ldf d base off clr ord)) feKind (s.ea base off 8) 8
    (fun p s => s.feWait (wordOf (.ldf d base off clr ord)) p (s.ea base off 8) false ord
      (.ldf (s.thr.gDest d) clr)))

/-- STF (R336): waits until empty, writes and sets the word full. -/
def execStf (src base : GReg) (off : BitVec 10) (ord : Bool) (s : State) :
    Host.Outcome State Fault Refusal :=
  .next (s.atomically (wordOf (.stf src base off ord)) feKind (s.ea base off 8) 8
    (fun p s => s.feWait (wordOf (.stf src base off ord)) p (s.ea base off 8) ord false (.stf (s.g src))))

/-- STE (R336): writes the word and sets it empty in one step. -/
def execSte (a b : GReg) (s : State) : Host.Outcome State Fault Refusal :=
  .next (s.atomically (wordOf (.ste a b)) feKind (s.g a).toNat 8 (fun p s =>
    let x := s.g b
    if s.thr.relaxed false then s.issueRlx ⟨.ste x, [p], 8⟩
    else
      let s := (s.beforeAtomic p false).homeAccess (s.tid / 128) p
      ((s.writeHome p.pa 8 x.toNat).setFull p.pa false).afterAtomic p false))

/-- FESET (R336): sets the bit only. -/
def execFeset (a : GReg) (s : State) : Host.Outcome State Fault Refusal :=
  .next (s.atomically (wordOf (.feset a)) feKind (s.g a).toNat 8 (fun p s =>
    if s.thr.relaxed false then s.issueRlx ⟨.febit true, [p], 8⟩
    else (((s.beforeAtomic p false).homeAccess (s.tid / 128) p).setFull p.pa true).afterAtomic p false))

/-- FECLR (R336): clears the bit only. -/
def execFeclr (a : GReg) (s : State) : Host.Outcome State Fault Refusal :=
  .next (s.atomically (wordOf (.feclr a)) feKind (s.g a).toNat 8 (fun p s =>
    if s.thr.relaxed false then s.issueRlx ⟨.febit false, [p], 8⟩
    else (((s.beforeAtomic p false).homeAccess (s.tid / 128) p).setFull p.pa false).afterAtomic p false))

/-! ## Prefetch, relaxation, fences (R338 to R340) -/

/-- PREF (R338): its only effect is timing, and it never faults. -/
def execPref (_a : GReg) (_lvl : BitVec 6) (s : State) : Host.Outcome State Fault Refusal := .next s.adv

/-- RLX (R339): sets the relaxed count; `n1` is n − 1. -/
def execRlx (n1 : BitVec 3) (s : State) : Host.Outcome State Fault Refusal :=
  .next (s.setThr { s.thr with rlx := n1.toNat + 1 }).adv

def scopeCode : Scope → Nat
  | .thread => 0 | .core => 1 | .cluster => 2 | .die => 3 | .package => 4 | .system => 5

/-- FENCE (R234, R340): every earlier access is performed at the scope, then an acquire of it. -/
def execFence (sc : Scope) (s : State) : Host.Outcome State Fault Refusal :=
  .next ((s.release (scopeCode sc)).acquire (scopeCode sc)).adv

end Sys2Proof.Machine
end

