-- ==== Sys2Proof/Machine/Atomics.lean ====
section
/-!
DEFINITION. Atomics (12 R341 to R345).
-/

namespace Sys2Proof.Machine

open Sys2Proof

/-- AMO (R342): one read-modify-write at the home; g[c] receives the old value, sign-extended. -/
def execAmo (fn : AmoFn) (a b c : GReg) (rel acq dbl : Bool) (s : State) :
    Host.Outcome State Fault Refusal :=
  let n := if dbl then 8 else 4
  .next (s.atomically (wordOf (.amo fn a b c rel acq dbl)) .both (s.g a).toNat n (fun p s =>
    let x := s.g b
    let d := s.thr.gDest c
    if s.thr.relaxed (rel || acq) then s.issueRlx ⟨.amo fn x d, [p], n⟩
    else
      let s := (s.beforeAtomic p rel).homeAccess (s.tid / 128) p
      let old := s.readHome p.pa n
      let s := s.writeHome p.pa n (amoNew fn n old (x.toNat % 256 ^ n))
      let s := if rel then s.releaseAt (clusterDie (s.tid / 128)) s.thr.scope else s
      (s.setThr (s.thr.setDest d (loadExt true n old))).afterAtomic p acq))

/-- CAS (R343): the write happens when the old value equals g[c]. -/
def execCas (a b c : GReg) (rel acq dbl : Bool) (s : State) : Host.Outcome State Fault Refusal :=
  let n := if dbl then 8 else 4
  .next (s.atomically (wordOf (.cas a b c rel acq dbl)) .both (s.g a).toNat n (fun p s =>
    let x := s.g b
    let cmp := s.g c
    let d := s.thr.gDest c
    if s.thr.relaxed (rel || acq) then s.issueRlx ⟨.cas cmp x d, [p], n⟩
    else
      let s := (s.beforeAtomic p rel).homeAccess (s.tid / 128) p
      let old := s.readHome p.pa n
      let s := if old = cmp.toNat % 256 ^ n then s.writeHome p.pa n x.toNat else s
      let s := if rel then s.releaseAt (clusterDie (s.tid / 128)) s.thr.scope else s
      (s.setThr (s.thr.setDest d (loadExt true n old))).afterAtomic p acq))

/-- AMOF (R342): waits until the word is full; it stays full. -/
def execAmof (fn : AmoFn) (a b c : GReg) (rel acq : Bool) (s : State) :
    Host.Outcome State Fault Refusal :=
  .next (s.atomically (wordOf (.amof fn a b c rel acq)) feKind (s.g a).toNat 8 (fun p s =>
    s.feWait (wordOf (.amof fn a b c rel acq)) p (s.g a).toNat rel acq (.amof fn (s.g b) (s.thr.gDest c))))

end Sys2Proof.Machine
end

