-- ==== Sys2Proof/Machine/Fetch.lean ====
section
/-!
DEFINITION. Fetching an instruction (07 R190, R202; 12 R314, R331): the core's rotation, the
fetch's translation, the cluster's instruction cache.
-/

namespace Sys2Proof.Machine

open Sys2Proof

/-- The clock of a core of cluster `m` runs and the core is not halted (R419). -/
def State.coreClock (s : State) (m : Nat) : Bool := s.clockOn (clusterIsland m) && s.prtRuns (s.cluOwner m)

/-- The rotation of a core of cluster `m` runs: its clock is on, the package is not halted, its
partition's context is not being swapped (R270). -/
def State.coreRuns (s : State) (m : Nat) : Bool :=
  s.coreClock m &&
    (match s.cluOwner m with
     | some q => (s.prt q).ctxState != 1
     | none => true)

/-- A thread whose slot does something at its turn: READY, or a wait its turn looks at (R190, R192). -/
def Thread.takesTurn (t : Thread) : Bool :=
  match t.st with
  | .ready | .blocked | .retry | .pendreg => true
  | .memory => t.poll
  | .empty | .walk => false

/-- The first slot at or after the rotation position whose thread takes a turn, with the positions
passed to reach it. -/
def State.nextSlot (s : State) (c rot : Nat) : Nat → Nat → Option (Nat × Nat)
  | 0, _ => none
  | f + 1, k =>
    let slot := (rot + k) % 16
    if (s.thread (16 * c + slot)).takesTurn then some (slot, k) else s.nextSlot c rot f (k + 1)

/-- A fetch address: instructions are words, and bits [1:0] of pc name none (log 17). -/
def fetchAddr (pc : W64) : Nat := pc.toNat / 4 * 4

inductive Fetched where
  | word (w : W32) (s : State)
  | miss (va : Nat)
  /-- The line's home has no clock to answer with (R20). -/
  | wait
  /-- A fetch fault: cause, TVAL, DETAIL. -/
  | fault (cause : Nat) (tval : W64) (detail : Nat)

/-- Lines of the cluster's cache in the set of a line number (R202). -/
def setOf (line : Nat) : Nat := line % 128

/-- R202: fills a line. A full set gives up its oldest unlocked line. -/
def Cluster.icFill (c : Cluster) (l : IcLine) : Cluster :=
  let same := c.icache.filter (fun x => setOf x.line == setOf l.line)
  let cache :=
    if same.length < 8 then c.icache
    else
      match same.find? (fun x => !x.locked) with
      | some v => c.icache.filter (fun x => x.line != v.line)
      | none => c.icache
  { c with icache := cache ++ [l] }

/-- The homes of the two 64-byte halves of the line of a part: of a page that is migrating, each on its own
side of the watermark (R252). -/
def State.lineHomes (s : State) (p : Part) : List Nat :=
  [0, 64].map (fun k =>
    (if p.dpa < prtDdrEnd then s.memHome p.prt (p.dpa / 128 * 128 + k) else none).getD (p.pa / 128 * 128 + k))

/-- The 1,024 bits of the line of a part as cluster `m` reads them. -/
def State.lineData (s : State) (m : Nat) (p : Part) : BitVec 1024 :=
  BitVec.ofNat 1024 (ofLanes 512 ((s.lineHomes p).map (fun h => s.readWords m false h 64)))

/-- The 1,024 bits at a line's home. -/
def State.homeLine (s : State) (m line : Nat) : BitVec 1024 :=
  BitVec.ofNat 1024 (s.readWords m false (128 * line) 128)

/-- A line of a cached page has been read at the home of cluster `m`'s die (R224). -/
def State.lineTook (s : State) (m : Nat) (p : Part) : State :=
  if p.cached then
    (s.lineHomes p).foldl (fun s h => [0, 32].foldl (fun s k =>
      s.takeUnit (clusterDie m) p.prt p.grain p.hc false (h + k)) s) s
  else s

/-- The part's line is in the instruction cache of cluster `m`, or its homes can answer (R20). -/
def State.lineThere (s : State) (m : Nat) (p : Part) : Bool :=
  (s.clu m).icache.any (fun x => x.line == p.pa / 128) || (s.lineHomes p).all (s.reaches (clusterDie m))

/-- The word of part `p` through the instruction cache of cluster `m`. -/
def State.fetchWord (s : State) (m q ctx : Nat) (p : Part) : W32 × State :=
  let h := p.pa
  let line := h / 128
  let cl := s.clu m
  let pick (d : BitVec 1024) : W32 := BitVec.ofNat 32 (d.toNat / 2 ^ (8 * (h % 128)))
  match cl.icache.find? (fun x => x.line == line) with
  | some l => (pick l.data, s)
  | none =>
    let d := s.lineData m p
    let s := s.lineTook m p
    (pick d, s.setClu m (cl.icFill ⟨line, d, false, q, ctx⟩))

/-- Fetches the current thread's instruction; faults in the order of R255. -/
def State.fetch (s : State) : Fetched :=
  let th := s.thr
  let va := fetchAddr th.pc
  match s.xlate s.tid .fetch va 4 with
  | .miss v => .miss v
  | .fault c d tv | .half _ c d tv => .fault c tv d
  | .ok [] => .fault cACCESS (BitVec.ofNat 64 va) AccKind.fetch.detail
  | .ok (p :: _) =>
    if !s.lineThere (s.tid / 128) p then .wait
    else if s.poisoned p.pa 4 then .fault cMEMERR (BitVec.ofNat 64 va) AccKind.fetch.detail
    else
      let s := s.touch s.tid va 4
      let (w, s) := s.fetchWord (s.tid / 128) th.prt th.ctx p
      .word w s

/-- INSTRUCTION_FETCH_FAULT (R254, R255): the fault the fetch at pc meets is taken as a trap at that
instruction; the record of a kill holds 0 for the word (R262). -/
def execInstructionFetchFault (s : State) : Host.Outcome State Fault Refusal :=
  match s.fetch with
  | .fault c tv d => .next (s.takeTrap 0 c tv d)
  | _ => .next s

/-- UNASSIGNED_ENCODING (R299): a word that is no instruction traps ILL with TVAL holding it. -/
def execUnassignedEncoding (w : W32) (s : State) : Host.Outcome State Fault Refusal :=
  .next (s.illegal w)

/-- UI_TAKE (R200): at a turn of a READY or BLOCKED thread with UIEN 1, UIIN 0 and a record pending,
the record is taken; otherwise nothing happens. -/
def execUiTake (s : State) : Host.Outcome State Fault Refusal :=
  let th := s.thr
  if th.uiReady && (decide (th.st = .ready) || decide (th.st = .blocked)) then .next s.takeUi
  else .next s

end Sys2Proof.Machine
end

