-- ==== Sys2Proof/Machine/FabWord.lean ====
section
/-!
DEFINITION. The words of a configuration: formats and tokens (06 R142 to R146), port descriptors
(15 R422, R423), operation words (11 R300, R301), switch words and links (11 R302, 15 R446), fibre,
tile and seam words (15 R433, R440, R443, R444).
-/

namespace Sys2Proof.Machine

open Sys2Proof

/-! ## Formats by code (R275, R303) -/

def fITEM : Nat := 7

/-- Bits of an element; ITEM fills a token. -/
def fmtBits (c : Nat) : Nat :=
  match c with
  | 0 => 64 | 1 => 32 | 2 => 16 | 3 => 16 | 4 => 8 | 5 => 8 | 6 => 4 | 7 => 64
  | 8 => 8 | 9 => 8 | 10 => 16 | 11 => 16 | 12 => 32 | 13 => 32 | _ => 64

def fmtLanes (c : Nat) : Nat := 64 / fmtBits c

/-- The number format of a code; ITEM has none. -/
def fmtOf (c : Nat) : Fmt :=
  match c with
  | 0 => .f64 | 1 => .f32 | 2 => .f16 | 3 => .bf16 | 4 => .e4m3 | 5 => .e5m2 | 6 => .b4
  | 8 => .i8 | 9 => .u8 | 10 => .i16 | 11 => .u16 | 12 => .i32 | 13 => .u32 | 14 => .i64
  | _ => .u64

/-- fmt(TYPE) of R421, by the 3-bit type of R295. -/
def tyFmt (t : Nat) : Nat :=
  match t with
  | 0 => 0 | 1 => 1 | 2 => 2 | 3 => 3 | 4 => 8 | 5 => 10 | 6 => 12 | _ => 14
def tyFloat (t : Nat) : Bool := decide (t < 4)
def tyBits (t : Nat) : Nat := fmtBits (tyFmt t)
def fmtUnsigned (c : Nat) : Bool := c == 9 || c == 11 || c == 13 || c == 15
/-- Bytes of an element in a tile, or read by a unit; ITEM has 4 (R441). -/
def elBytes (c : Nat) : Nat := if c = fITEM then 4 else if c = 6 then 1 else fmtBits c / 8

/-! ## Tokens (R142 to R144) -/

namespace Token
def kind (t : Token) : Nat := fld t.tag 11 10
def level (t : Token) : Nat := fld t.tag 9 8
def lanes (t : Token) : Nat := fld t.tag 7 4
def ticketed (t : Token) : Bool := bitAt t.tag 3
def isValue (t : Token) : Bool := t.kind == 0
def isStop (t : Token) : Bool := t.kind == 1
def isDone (t : Token) : Bool := t.kind == 2
def isCtl (t : Token) : Bool := t.kind == 3
def code (t : Token) : Nat := fld t.payload 7 0
def isRoll (t : Token) : Bool := t.isCtl && t.code == 1
/-- The same token with TICKETED clear (R168). -/
def plain (t : Token) : Token := { t with tag := t.tag &&& 0xFF7 }
def ticket (t : Token) : Token := { t with tag := t.tag ||| 8 }
/-- Kind, with the stop level or control code: equal for tokens that may fire together (R148). -/
def cls (t : Token) : Nat × Nat :=
  (t.kind, if t.isStop then t.level else if t.isCtl then t.code else 0)
end Token

def tokVal (lanes x : Nat) : Token := ⟨BitVec.ofNat 64 x, BitVec.ofNat 12 (lanes % 16 * 16)⟩
def tokStop (j : Nat) : Token := ⟨0, BitVec.ofNat 12 (0x400 + j % 4 * 256)⟩
def tokDone : Token := ⟨0, 0x800⟩
def tokRoll : Token := ⟨1, 0xC00⟩

/-- The rule of R145 and R146 a token breaks at a port, 0 for none. -/
def portFault (rank lanes : Nat) (single pair roll : Bool) (last : Nat) (t : Token) : Nat :=
  let low := decide (fld t.tag 2 0 ≠ 0)
  if t.isValue then
    if last = 6 then 3
    else if lanes < t.lanes ∨ (single ∧ t.lanes ≠ 1) ∨ (pair ∧ t.lanes ≠ 0) then 6
    else 0
  else if t.lanes ≠ 0 ∨ low ∨ (!t.isStop ∧ t.level ≠ 0) then 6
  else if t.isCtl then
    if t.code = 1 then (if roll then 0 else 5)
    else if 0x40 ≤ t.code ∧ t.code ≤ 0x7F then 0
    else 5
  else if last = 6 then 3
  else if t.isStop then (if rank ≤ t.level then 1 else 0)
  else if last = 0 ∨ last = 1 + rank then 0
  else 2

/-- What a port remembers of its stream after a token. -/
def portLast (last : Nat) (t : Token) : Nat :=
  if t.isValue then 1 else if t.isStop then 2 + t.level else if t.isDone then 6 else last

/-! ## Port descriptors (R422) -/

def dFmt (d : W32) : Nat := fld d 3 0
def dRank (d : W32) : Nat := fld d 5 4 + 1
def dSingle (d : W32) : Bool := bitAt d 6
def dPad (d : W32) : Bool := bitAt d 7
def dSat (d : W32) : Bool := bitAt d 8
def dRm (d : W32) : Rm := rmOf (fld d 10 9)
def dTicketed (d : W32) : Bool := bitAt d 11
def dUnordered (d : W32) : Bool := bitAt d 12
def dPool (d : W32) : Nat := fld d 18 13 + 1
def dKval (d : W32) : Int := sInt 13 (fld d 31 19)

/-! ## Operation words (R300) -/

def oOp (w : W32) : Nat := fld w 31 25
def oSA (w : W32) : Nat := fld w 24 22
def oSB (w : W32) : Nat := fld w 21 19
def oSC (w : W32) : Nat := fld w 18 16
def oDest (w : W32) : Nat := fld w 15 12
def oOut0 (w : W32) : Bool := bitAt w 15
def oOut1 (w : W32) : Bool := bitAt w 14
def oReg (w : W32) : Bool := bitAt w 13
def oEsc (w : W32) : Bool := bitAt w 12
def oType (w : W32) : Nat := fld w 11 9
def oRep (w : W32) : Nat := fld w 8 3 + 1
def oSv (w : W32) : Nat := fld w 2 1
def oChain (w : W32) : Bool := bitAt w 0

/-- The register DEST[13] writes: SC's when it names one, e0 otherwise. -/
def oDestReg (w : W32) : Nat := if 3 ≤ oSC w ∧ oSC w ≤ 5 then oSC w - 3 else 0

namespace SiteCfg
def op (c : SiteCfg) : W32 := c.ops.getD 0 0
/-- MOD of a chain's word `j` (R423). -/
def modOf (c : SiteCfg) (j : Nat) : Nat := if j = 0 then (dKval c.o0 % 8192).toNat else 0
/-- Bits of an element's ports a word names as sources: 0 A, 1 B, 2 C. -/
def wordPorts (w : W32) : List Nat := [oSA w, oSB w, oSC w].filter (fun x => decide (x < 3))
/-- The ports an element's words name (R148), in the order A, B, C. -/
def usedPorts (c : SiteCfg) : List Nat :=
  let l := c.ops.flatMap wordPorts
  [0, 1, 2].filter l.contains
def out0 (c : SiteCfg) : Bool := c.ops.any oOut0
def out1 (c : SiteCfg) : Bool := c.ops.any oOut1
def esc (c : SiteCfg) : Bool := c.ops.any oEsc
def portDesc (c : SiteCfg) (p : Nat) : W32 := if p = 0 then c.pa else if p = 1 then c.pb else c.pc
def outDesc (c : SiteCfg) (o : Nat) : W32 := if o = 0 then c.o0 else c.o1
/-- Fibre words (R433). -/
def func (c : SiteCfg) : Nat := fld c.w0 31 28
def fRank (c : SiteCfg) : Nat := fld c.w0 27 26 + 1
def fRoot (c : SiteCfg) : Bool := bitAt c.w0 25
def fPair (c : SiteCfg) : Bool := bitAt c.w0 24
def fVfmt (c : SiteCfg) : Nat := fld c.w0 23 20
def fLevel (c : SiteCfg) : Nat := fld c.w0 19 18
def fRm (c : SiteCfg) : Rm := rmOf (fld c.w0 17 16)
def fCache (c : SiteCfg) : Bool := bitAt c.w0 15
def fTile (c : SiteCfg) : Nat := fld c.w0 14 11
def fSat (c : SiteCfg) : Bool := bitAt c.w0 10
def fRop (c : SiteCfg) : Nat := fld c.w0 9 8
/-- Tile words (R440). -/
def role (c : SiteCfg) : Nat := if c.kind = 2 then fld c.w0 31 30 else 0
def tFmt (c : SiteCfg) : Nat := fld c.w0 29 26
def tRmw (c : SiteCfg) : Nat := fld c.w0 25 23
def tRet (c : SiteCfg) : Bool := bitAt c.w0 22
def tRankA (c : SiteCfg) : Nat := fld c.w1 27 26 + 1
def tRankB (c : SiteCfg) : Nat := fld c.w1 25 24 + 1
def tCap (c : SiteCfg) : Nat := fld c.w1 11 0
end SiteCfg

/-- Values are SINGLE unless the format has one lane (R434, R441). -/
def oneLane (c : Nat) : Bool := fmtLanes c == 1

/-! ## Switches and links (R302, R446) -/

def swValid (c : SiteCfg) : Bool := bitAt c.sw0 15
def swClass (c : SiteCfg) : Nat := fld c.sw0 13 12
def swCirc (c : SiteCfg) : Bool := bitAt c.sw1 10
def swByp (c : SiteCfg) : Bool := bitAt c.sw1 9

/-- Source code of output 0 N, 1 E, 2 S, 3 W. -/
def swOut (c : SiteCfg) (d : Nat) : Nat := fld c.sw0 (11 - 3 * d) (9 - 3 * d)
/-- Source code of input port 0 A, 1 B, 2 C. -/
def swIn (c : SiteCfg) (p : Nat) : Nat := fld c.sw1 (8 - 3 * p) (6 - 3 * p)

/-- Where a switch sends a source's tokens: its outputs 0 to 3 and ports 4 to 6. -/
def swDests (c : SiteCfg) (src : Nat) : List Nat :=
  (if swValid c then [0, 1, 2, 3].filter (fun d => swOut c d == src) else []) ++
  (if swValid c then ([0, 1, 2].filter (fun p => swIn c p == src)).map (· + 4) else [])

/-- The direction a token that leaves by output `d` arrives from. -/
def opp (d : Nat) : Nat := (d + 2) % 4

/-- The source code of a token that arrives from direction `d`. -/
def srcOf (d : Nat) : Nat := d + 1

/-- What a site's output leads to (R446, R442). -/
inductive LinkTo where
  | none
  | site (s : Nat)
  | bridge
  deriving DecidableEq, Repr

/-- R446: the site an output reaches, the seam generators apart. -/
def linkTo (s d : Nat) : LinkTo :=
  let x := siteX s
  let col := siteCol s
  let m := col % 22
  match d with
  | 0 => if siteRow s = 0 then .none else .site (s - 1)
  | 2 => if siteRow s = 127 then .none else .site (s + 1)
  | 1 => if m < 15 then .site (siteAt (x + 1) (siteRow s))
    else if col = 367 then (if siteDie s = 0 then .bridge else .none)
    else .site (siteAt (x + 7) (siteRow s))
  | _ => if 0 < m then .site (siteAt (x - 1) (siteRow s))
    else if col = 0 then (if siteDie s = 1 then .bridge else .none)
    else .site (siteAt (x - 7) (siteRow s))

/-- R442: the generator a site's seam-facing output would meet: its key and the direction. -/
def seamGen (s : Nat) : Option (Nat × Nat) :=
  let m := siteCol s % 22
  let row := siteRow s
  if row % 4 ≠ 0 then none
  else
    let key (x : Nat) : Nat := 4 * siteAt x (row / 16 * 16) + row % 16 / 4
    if m = 15 ∧ siteCol s ≠ 367 then some (key (siteX s + 1), 1)
    else if m = 0 ∧ siteCol s ≠ 0 then some (key (siteX s - 1), 3)
    else none

/-- R442: the edge site generator `n` of a seam attaches to, and the direction it lies in. -/
def genEdge (key : Nat) : Nat × Nat :=
  let seam := key / 4
  let row := siteRow seam + 4 * (key % 4)
  if siteCol seam % 22 = 16 then (siteAt (siteX seam - 1) row, 1) else (siteAt (siteX seam + 1) row, 3)

/-- The generator key of the seam left of a cluster's swarm stripe that carries the cluster's
fabric-mode tile (R212). -/
def tileGen (m : Nat) : Nat :=
  4 * siteIdx (clusterDie m) (22 * clusterStripe m + 16) (16 * clusterRow m) + 3

/-- The site number of a cluster's matrix tile (R28). -/
def tileUnit (m : Nat) : Nat := siteIdx (clusterDie m) (22 * clusterStripe m + 17) (16 * clusterRow m + 2)

/-! ## Seam words (R443, R444) -/

namespace Gen
def w (g : Gen) (i : Nat) : W32 := g.ws.getD i 0
def kind (g : Gen) : Nat := fld (g.w 0) 31 29
def isLoad (g : Gen) : Bool := g.kind == 1
def isStore (g : Gen) : Bool := g.kind == 2
def fmt (g : Gen) : Nat := fld (g.w 0) 28 25
def isz (g : Gen) : Nat := 2 ^ fld (g.w 0) 24 23
def emitBits (g : Gen) : Nat := fld (g.w 0) 22 19
/-- The rank of its stream: emission bits set, or SRANK + 1. -/
def rank (g : Gen) : Nat :=
  if g.isLoad then ([0, 1, 2, 3].filter (nbit g.emitBits)).length else fld (g.w 0) 18 17 + 1
def single (g : Gen) : Bool := bitAt (g.w 0) 16
def cache (g : Gen) : Bool := bitAt (g.w 0) 15
def tile (g : Gen) : Nat := fld (g.w 0) 14 11
def esize (g : Gen) : Nat := if g.fmt = fITEM then g.isz else elBytes g.fmt
/-- Lanes of a token it makes or takes. -/
def lanes (g : Gen) : Nat := if g.single then 1 else fmtLanes g.fmt
/-- Visits a full token holds: a B4 visit reads a byte of two codes. -/
def perTok (g : Gen) : Nat := if g.single then 1 else if g.fmt = 6 then 8 else g.lanes
def cnt (g : Gen) (j : Nat) : Nat := fld (g.w (1 + j)) 31 16 + 1
def stride (g : Gen) (j : Nat) : Int :=
  sInt 16 (fld (g.w (1 + j)) 15 0) * 2 ^ (fld (g.w 5) 15 0 / 16 ^ j % 16)
/-- The address of a visit (R161), modulo 2^64. -/
def addr (g : Gen) (i : Nat × Nat × Nat × Nat) : Nat :=
  let off : Int := (i.1 : Int) * g.stride 0 + (i.2.1 : Int) * g.stride 1 +
    (i.2.2.1 : Int) * g.stride 2 + (i.2.2.2 : Int) * g.stride 3
  (((g.base.toNat : Int) + (g.esize : Int) * off) % (2 : Int) ^ 64).toNat
/-- The highest level j such that i0 to ij are all at their last values, plus one; 0 for none. -/
def closes (g : Gen) (i : Nat × Nat × Nat × Nat) : Nat :=
  if i.1 + 1 < g.cnt 0 then 0
  else if i.2.1 + 1 < g.cnt 1 then 1
  else if i.2.2.1 + 1 < g.cnt 2 then 2
  else if i.2.2.2 + 1 < g.cnt 3 then 3
  else 4
/-- The next visit of the nest, none after the last. -/
def next (g : Gen) (i : Nat × Nat × Nat × Nat) : Option (Nat × Nat × Nat × Nat) :=
  match g.closes i with
  | 0 => some (i.1 + 1, i.2)
  | 1 => some (0, i.2.1 + 1, i.2.2)
  | 2 => some (0, 0, i.2.2.1 + 1, i.2.2.2)
  | 3 => some (0, 0, 0, i.2.2.2 + 1)
  | _ => none
end Gen

namespace MxFab
def w (f : MxFab) (i : Nat) : W32 := f.ws.getD i 0
def fmt (f : MxFab) : Nat := fld (f.w 0) 28 25
def outFmt (f : MxFab) : Nat := fld (f.w 0) 24 21
def rm (f : MxFab) : Rm := rmOf (fld (f.w 0) 20 19)
def clear (f : MxFab) : Bool := bitAt (f.w 0) 18
def sat (f : MxFab) : Bool := bitAt (f.w 0) 17
def core (f : MxFab) : Nat := fld (f.w 0) 16 14
def m (f : MxFab) : Nat := fld (f.w 1) 31 26 + 1
def n (f : MxFab) : Nat := fld (f.w 1) 25 20 + 1
def off (f : MxFab) : Nat := fld (f.w 1) 19 13 * 2048
def tiles (f : MxFab) : Nat := fld (f.w 1) 12 0 + 1
def k (f : MxFab) : Nat := (f.w 2).toNat
def aStride (f : MxFab) : Nat := (f.w 3).toNat
def bStride (f : MxFab) : Nat := (f.w 4).toNat
def aStep (f : MxFab) : Nat := (f.w 5).toNat
def bStep (f : MxFab) : Nat := (f.w 6).toNat
end MxFab

end Sys2Proof.Machine
end

