-- ==== Sys2Proof/Machine/Trans.lean ====
section
/-!
DEFINITION. The error bounds of the transcendental unit (06_fabric.md R166): each function's value
as a fixed-point number with 400 fraction bits, and a free result held to the bound around it.
The series are cut where their terms vanish; their error stays far below 2^−360, which the bound
allows for.
-/

namespace Sys2Proof.Machine.FP

open Sys2Proof

/-- One in fixed point. -/
def fxOne : Nat := 2 ^ 400

/-- `m * 2 ^ e` in fixed point; every finite FP32, BF16 and FP16 value is exact. -/
def fxOf (m : Nat) (e : Int) : Nat := m * 2 ^ (400 + e).toNat

/-- The terms t^j / j! from `term` of index `k` on, summed by j modulo 4. -/
def fxExp : Nat → Nat → Nat → Nat → Nat × Nat × Nat × Nat
  | 0, _, _, _ => (0, 0, 0, 0)
  | n + 1, k, term, t =>
    match fxExp n (k + 1) (term * t / fxOne / (k + 1)) t with
    | (a, b, c, d) => (term + d, a, b, c)

/-- The series y + y³/3 + y⁵/5 + … from the power `p` on. -/
def fxAtanh : Nat → Nat → Nat → Nat → Nat
  | 0, _, _, _ => 0
  | n + 1, k, p, y2 => p / (2 * k + 1) + fxAtanh n (k + 1) (p * y2 / fxOne) y2

/-- The series y − y³/3 + y⁵/5 − … from the power `p` on, 1 / y² being `d`. -/
def fxAtan : Nat → Nat → Nat → Nat → Nat
  | 0, _, _, _ => 0
  | n + 1, k, p, d => p / (2 * k + 1) - fxAtan n (k + 1) (p / d) d

def fxLn2 : Nat := 2 * fxAtanh 130 0 (fxOne / 3) (fxOne / 9)
def fxPi : Nat := 16 * fxAtan 90 0 (fxOne / 5) 25 - 4 * fxAtan 30 0 (fxOne / 239) 57121

/-- 2^(±x) of a fixed-point magnitude. -/
def fxExp2 (neg : Bool) (x : Nat) : Nat :=
  let n := if neg then (x + fxOne - 1) / fxOne else x / fxOne
  if 390 < n then 0
  else
    let fr := if neg then n * fxOne - x else x - n * fxOne
    match fxExp 100 0 fxOne (fr * fxLn2 / fxOne) with
    | (a, b, c, d) => if neg then (a + b + c + d) / 2 ^ n else (a + b + c + d) * 2 ^ n

/-- log2 of `m * 2 ^ e`. -/
def fxLog2 (m : Nat) (e : Int) : Int :=
  let b := blen m - 1
  let y := (m * fxOne / 2 ^ b - fxOne) * fxOne / (m * fxOne / 2 ^ b + fxOne)
  (e + b) * fxOne + (2 * fxAtanh 130 0 y (y * y / fxOne) * fxOne / fxLn2 : Nat)

/-- sin πx of a fixed-point magnitude. -/
def fxSinPi (x : Nat) : Int :=
  let r := x % (2 * fxOne)
  let flip := decide (fxOne ≤ r)
  let r := if flip then r - fxOne else r
  let r := if fxOne < 2 * r then fxOne - r else r
  let v : Int :=
    if 2 * r = fxOne then fxOne
    else
      match fxExp 110 0 fxOne (r * fxPi / fxOne) with
      | (_, b, _, d) => (b : Int) - d
  if flip then -v else v

/-- tanh x of a fixed-point magnitude. -/
def fxTanh (x : Nat) : Nat :=
  if x < fxOne then
    match fxExp 100 0 fxOne x with
    | (a, b, c, d) => (b + d) * fxOne / (a + c)
  else
    let q := Nat.max 1 (fxExp2 true (2 * x * fxOne / fxLn2))
    (fxOne - q) * fxOne / (fxOne + q)

/-- The value of function `fn` of R166 (0 EXP2, 1 LOG2, 4 SIN, 5 COS, 6 TANH) at a finite value, and
whether fixed point holds it exactly. -/
def transValue (fn : Nat) (neg : Bool) (m : Nat) (e : Int) : Int × Bool :=
  let x := fxOf m e
  match fn with
  | 0 => (fxExp2 neg x, x % fxOne == 0 && decide (x / fxOne < 390))
  | 1 => (fxLog2 m e, m == 2 ^ (blen m - 1))
  | 4 => ((if neg then -1 else 1) * fxSinPi x, 2 * x % fxOne == 0)
  | 5 => (fxSinPi (x + fxOne / 2), 2 * x % fxOne == 0)
  | _ => ((if neg then -1 else 1) * (fxTanh x : Int), x == 0)

/-- The bound of R166 in units in the last place. -/
def transUlps (f : Fmt) (fn : Nat) : Nat :=
  if f = .f32 then (if fn = 6 then 3 else 2) else 1

/-- Whether pattern `c` is finite and within the bound of the value `v`. -/
def transWithin (f : Fmt) (fn : Nat) (v : Int) (c : Nat) : Bool :=
  let emin : Int := 1 - bias f
  let big : Int := if v = 0 then emin else (blen v.natAbs : Int) - 401
  let u : Nat := fxOf 1 ((if big < emin then emin else big) - mb f)
  let near : Int → Bool := fun y => decide ((y - v).natAbs ≤ transUlps f fn * u + 2 ^ 40)
  if isNan f c then false
  else
    match num f c with
    | .inf _ => false
    | .zero _ => near 0
    | .fin n m e => near (if n then -(fxOf m e : Int) else fxOf m e)

/-- A result of R166 at a finite value: the free candidate where it lies within the bound, else the
rounded value; its flags follow R284 (log 6). -/
def transApprox (f : Fmt) (fn : Nat) (x : Nat) : Nat × Flags :=
  let (neg, m, e) : Bool × Nat × Int :=
    match num f x with | .fin n m e => (n, m, e) | _ => (sgn f x, 0, 0)
  let (v, exact) := transValue fn neg m e
  let c := (Config.approx (4 + fn) (BitVec.ofNat 64 (x + f.code * 2 ^ 60))).toNat % 2 ^ f.width
  let r := if transWithin f fn v c then c
    else if v = 0 then 0 else (roundFin f .rne false (decide (v < 0)) v.natAbs (-400)).1
  let got : Int :=
    match num f r with
    | .fin n m e => if n then -(fxOf m e : Int) else fxOf m e
    | _ => 0
  (r, if exact && got = v then 0 else if mag f r < 2 ^ mb f then UF ||| NX else NX)

end Sys2Proof.Machine.FP
end

