-- ==== Sys2Proof/Machine/FabElem.lean ====
section
/-!
DEFINITION. What one operation word of a compute element computes from values (15 R427, R429, R432;
06 R149, R156, R168): lanes, flags, special values.
-/

namespace Sys2Proof.Machine

open Sys2Proof

/-- An operand: its payload, the LANES count of its token (none for a register or K), whether its
lanes are unsigned, and whether it is the raw constant KVAL. -/
structure Opnd where
  x     : Nat
  cnt   : Option Nat
  uns   : Bool
  deriving DecidableEq, Repr

/-- The lanes a firing computes: how many, and the LANES of its result (R143). -/
structure Span where
  n   : Nat
  tag : Nat
  deriving DecidableEq, Repr

/-- R143: the smaller of the operands' counts; 0 means all of `full`. -/
def spanOf (full : Nat) (single : Bool) (os : List Opnd) : Span :=
  let cs := (os.filterMap (·.cnt)).filter (fun c => c != 0)
  match cs with
  | [] => if single then ⟨1, 1⟩ else ⟨full, 0⟩
  | c :: r => let m := r.foldl Nat.min c; ⟨Nat.min m full, m⟩

/-- Applies a lane function to the first `n` lanes; the others carry zero and raise no flag. -/
def mapLanes (w n : Nat) (f : Nat → Nat × FP.Flags) : Nat × FP.Flags :=
  let rs := (List.range n).map f
  (ofLanes w (rs.map (·.1)), orAll rs)

/-- A lane read as an integer. -/
def laneInt (w : Nat) (uns : Bool) (x : Nat) : Int := if uns then x else sInt w x

/-- The integer result wrapped, or saturated to the range its operands' lanes have. -/
def intRes (w : Nat) (sat uns : Bool) (v : Int) : Nat :=
  if sat then (if uns then satU v w else FP.wrapInt w (satS v w)) else FP.wrapInt w v

/-- One lane of a value operation (R427): codes of R301. -/
def elemLane (op ty md : Nat) (rm : Rm) (ua ub uc : Bool) (a b c : Nat) : Nat × FP.Flags :=
  let w := tyBits ty
  let f := fmtOf (tyFmt ty)
  let fl := tyFloat ty
  let i (u : Bool) (x : Nat) : Int := laneInt w u x
  let sat := md == 1
  match op with
  | 0x01 => if fl then FP.add f rm a b else (intRes w sat (ua || ub) (i ua a + i ub b), 0)
  | 0x02 => if fl then FP.sub f rm a b else (intRes w sat (ua || ub) (i ua a - i ub b), 0)
  | 0x03 =>
    if fl then FP.mul f rm a b
    else if md = 1 then (FP.wrapInt w (i ua a * i ub b / 2 ^ w), 0)
    else (a * b % 2 ^ w, 0)
  | 0x04 =>
    if fl then FP.fma f rm a b c
    else (intRes w sat (ua || ub || uc) (i ua a * i ub b + i uc c), 0)
  | 0x06 => if fl then FP.minmax f false a b else (if i ub b < i ua a then b else a, 0)
  | 0x07 => if fl then FP.minmax f true a b else (if i ua a < i ub b then b else a, 0)
  | 0x08 =>
    if fl then (a % 2 ^ (w - 1), 0) else (if sInt w a < 0 then FP.wrapInt w (-(a : Int)) else a, 0)
  | 0x09 =>
    if fl then (if a / 2 ^ (w - 1) % 2 = 0 then a + 2 ^ (w - 1) else a - 2 ^ (w - 1), 0)
    else (FP.wrapInt w (-(a : Int)), 0)
  | 0x0A =>
    let r : Bool × FP.Flags :=
      if fl then
        match md % 8 with
        | 0 => FP.fcmp f 0 false a b
        | 1 => FP.fcmp f 1 false a b
        | 2 => FP.fcmp f 2 true a b
        | 3 => FP.fcmp f 3 true a b
        | _ => FP.fcmp f 6 false a b
      else
        match md % 8 with
        | 0 => (decide (i ua a = i ub b), 0)
        | 1 => (decide (i ua a ≠ i ub b), 0)
        | 2 => (decide (i ua a < i ub b), 0)
        | _ => (decide (i ua a ≤ i ub b), 0)
    (if r.1 then 2 ^ w - 1 else 0, r.2)
  | 0x0B => (if nbit c (w - 1) then a else b, 0)
  | 0x0C => (a &&& b, 0)
  | 0x0D => (a ||| b, 0)
  | 0x0E => (a ^^^ b, 0)
  | 0x0F =>
    let k := b % w
    (match md with
     | 0 => a * 2 ^ k % 2 ^ w
     | 1 => a / 2 ^ k
     | _ => FP.wrapInt w (sInt w a / 2 ^ k), 0)
  | 0x13 => FP.scale f rm a (sInt w b)
  | 0x24 => FP.approxRecip f false a
  | 0x25 => FP.approxRecip f true a
  | _ => (a, 0)

/-- The result format of a value word, by code of R303. -/
def resFmt (op ty : Nat) : Nat :=
  match op with
  | 0x11 => if ty = 1 then 0 else 1
  | 0x12 => if ty = 4 then 12 else 14
  | _ => tyFmt ty

/-- Lanes one result lane of a DOT sums. -/
def dotGroup (op : Nat) : Nat := if op = 0x11 then 2 else if op = 0x12 then 4 else 1

/-- One result lane of DOT2 or DOT4 (R363, R427); missing elements are zero, and DOT4's lanes are signed
whatever their ports carry. -/
def dotLane (op ty : Nat) (rm : Rm) (a b : Opnd) (c : Option Opnd) (n j : Nat) : Nat × FP.Flags :=
  let w := tyBits ty
  let g := resFmt op ty
  let wg := fmtBits g
  let at' (x : Nat) (i : Nat) : Nat := if i < n then lane w x i else 0
  let cl := c.map (fun o => lane wg o.x j)
  if op = 0x11 then
    FP.dotRound (fmtOf (tyFmt ty)) (fmtOf g) rm
      [(at' a.x (2 * j), at' b.x (2 * j)), (at' a.x (2 * j + 1), at' b.x (2 * j + 1))] cl
  else
    let s := (List.range 4).foldl (fun (t : Int) i =>
      t + sInt w (at' a.x (4 * j + i)) * sInt w (at' b.x (4 * j + i))) 0
    (FP.wrapInt wg (s + sInt wg (cl.getD 0)), 0)

/-- The value of one word other than DOT2 and DOT4 over the firing's lanes. -/
def elemWord (op ty md : Nat) (rm : Rm) (sp : Span) (a b c : Opnd) : Nat × Nat × FP.Flags :=
  let w := tyBits ty
  let r := mapLanes w sp.n (fun i =>
    elemLane op ty md rm a.uns b.uns c.uns (lane w a.x i) (lane w b.x i) (lane w c.x i))
  (r.1, sp.tag, r.2)

/-- The value of a DOT word: one lane for each group of valid lanes (R427). -/
def dotWord (op ty : Nat) (rm : Rm) (single : Bool) (a b : Opnd) (c : Option Opnd) :
    Nat × Nat × FP.Flags :=
  let g := dotGroup op
  let wg := fmtBits (resFmt op ty)
  let sp := spanOf (64 / tyBits ty) single [a, b]
  let t := if sp.tag = 0 then 0 else (sp.n + g - 1) / g
  let n := if t = 0 then 64 / wg else t
  let (n, t) :=
    match c with
    | some ⟨_, some k, _⟩ => if k = 0 then (n, t) else (Nat.min n k, if t = 0 then k else Nat.min t k)
    | _ => (n, t)
  let r := mapLanes wg n (dotLane op ty rm a b c sp.n)
  (r.1, t, r.2)

/-- R426, R427: operations that check their operands for special values. -/
def checksSv (op : Nat) : Bool :=
  [0x01, 0x02, 0x03, 0x04, 0x06, 0x07, 0x0A, 0x13, 0x11, 0x24, 0x25, 0x1D].contains op

/-- R168: a special value of the action SV in any of the first `n` lanes. -/
def special (f : Fmt) (sv n x : Nat) : Bool :=
  (List.range n).any (fun i =>
    let y := lane f.width x i
    FP.isNan f y || (sv != 1 && (FP.isInf f y || FP.isSub f y)))

/-- K of R423 for a type: by RNE for a float, the integer itself otherwise. -/
def kConst (ty : Nat) (k : Int) : Nat :=
  if tyFloat ty then (FP.ofInt (fmtOf (tyFmt ty)) .rne false k).1 else FP.wrapInt (tyBits ty) k

/-- K in a stream's format (R430, log 24). -/
def kFmt (f : Nat) (k : Int) : Nat :=
  if f = fITEM then FP.wrapInt 32 k
  else if f = 6 then FP.wrapInt 4 k
  else if (fmtOf f).isFloat then (FP.ofInt (fmtOf f) .rne false k).1
  else FP.wrapInt (fmtBits f) k

/-- A value in every lane. -/
def allLanes (w x : Nat) : Nat := ofLanes w (List.replicate (64 / w) x)

/-- The identity pad mode puts in place of a missing operand (R149). -/
def padIdentity (op ty : Nat) (uns : Bool) : Nat :=
  let w := tyBits ty
  let f := fmtOf (tyFmt ty)
  match op with
  | 0x03 => kConst ty 1
  | 0x06 => if tyFloat ty then FP.infMag f else if uns then 2 ^ w - 1 else 2 ^ (w - 1) - 1
  | 0x07 => if tyFloat ty then FP.withSign f true (FP.infMag f) else if uns then 0 else 2 ^ (w - 1)
  | 0x0C => 2 ^ w - 1
  | _ => 0

/-- Operations pad mode is legal for (R149). -/
def padOps : List Nat := [0x01, 0x02, 0x0D, 0x0E, 0x03, 0x06, 0x07, 0x0C]

/-- One lane of an accumulation: ACC by type and modifier bit 2 (R429). -/
def accLane (ty : Nat) (rm : Rm) (sat uns : Bool) (e a : Nat) : Nat × FP.Flags :=
  let w := tyBits ty
  if tyFloat ty then FP.add (fmtOf (tyFmt ty)) rm e a
  else (intRes w sat uns (laneInt w uns e + laneInt w uns a), 0)

/-- ACC over the lanes of a token of `n` valid lanes; the other lanes keep their sums. -/
def accToken (ty : Nat) (rm : Rm) (sat uns : Bool) (n e a : Nat) : Nat × FP.Flags :=
  let w := tyBits ty
  let rs := (List.range (64 / w)).map (fun i =>
    if i < n then accLane ty rm sat uns (lane w e i) (lane w a i) else (lane w e i, 0))
  (ofLanes w (rs.map (·.1)), orAll rs)

/-- CVT of one token (R432): the elements in the destination's tokens. -/
def cvtToken (f g : Nat) (rm : Rm) (sat single : Bool) (n x : Nat) (scale : Option Nat) :
    List (Nat × Nat) × FP.Flags :=
  let rs := (List.range n).map (fun i =>
    let y := lane (fmtBits f) x i
    match scale with
    | some sb => cvtB4 (fmtOf g) rm sat sb y
    | none => cvtElem (fmtOf f) (fmtOf g) rm sat y)
  let ld := if single then 1 else fmtLanes g
  let xs := rs.map (·.1)
  let toks := (List.range ((n + ld - 1) / ld)).map (fun i =>
    let part := (xs.drop (i * ld)).take ld
    (if single then 1 else if part.length = ld then 0 else part.length, ofLanes (fmtBits g) part))
  (toks, orAll rs)

/-- RMW functions on one element (R156): the new value and the flags. -/
def rmwElem (fn f : Nat) (old x : Nat) : Nat × FP.Flags :=
  let w := fmtBits f
  match fn with
  | 0 => if f = 1 then FP.add .f32 .rne old x else ((old + x) % 2 ^ w, 0)
  | 1 => (FP.wrapInt w (satS (sInt w old + sInt w x) w), 0)
  | 2 => (if sInt w x < sInt w old then x else old, 0)
  | 3 => (if sInt w old < sInt w x then x else old, 0)
  | _ => (x, 0)

/-- The transcendental unit's functions (R166) on one lane: its special values, an overflowing EXP2,
and at other values a free result held to the error bound (log 6). -/
def transLane (fn ty x : Nat) : Nat × FP.Flags :=
  let f := fmtOf (tyFmt ty)
  let one : Nat := kConst ty 1
  if fn = 2 then FP.transRecip f false x
  else if fn = 3 then FP.transRecip f true x
  else if FP.isNan f x then (FP.carryNan f f x, if FP.isSnan f x then FP.NV else 0)
  else
    let neg := FP.sgn f x
    let inf := FP.isInf f x
    let zero := FP.isZero f x
    match fn with
    | 0 =>
      if inf then (if neg then 0 else FP.infMag f, 0)
      else if 0 ≤ FP.cmpNum (FP.num f x) (FP.numOfInt (FP.bias f + 1)) then
        (FP.infMag f, FP.OF ||| FP.NX)
      else FP.transApprox f fn x
    | 1 =>
      if zero then (FP.withSign f true (FP.infMag f), FP.DZ)
      else if neg then (FP.defNan f, FP.NV)
      else if inf then (FP.infMag f, 0)
      else if x = one then (0, 0)
      else FP.transApprox f fn x
    | 4 => if inf then (FP.defNan f, FP.NV) else if zero then (x, 0) else FP.transApprox f fn x
    | 5 => if inf then (FP.defNan f, FP.NV) else FP.transApprox f fn x
    | _ =>
      if inf then (FP.withSign f neg one, 0) else if zero then (x, 0) else FP.transApprox f 6 x

end Sys2Proof.Machine
end

