-- ==== Sys2Proof/Machine/Fabric.lean ====
section
/-!
DEFINITION. Regions at work: which sites run, buffers and credits (06 R141, R150, R151), switches,
guards and circuits (04 R104 to R106, 02 R33, 15 R446, R447), Hush counts (06 R175), faults and
their records (06 R147, 09 R261 to R264).
-/

namespace Sys2Proof.Machine

open Sys2Proof

/-! ## Which region, and whether it runs -/

/-- Loaded, and not scanned out into the save area (R265). -/
def Region.onFab (r : Region) : Bool := r.loaded && r.savedAt.isNone

/-- The rectangle holds the site (R469). -/
def Region.has (r : Region) (site : Nat) : Bool :=
  decide (r.x ≤ siteX site) && decide (siteX site < r.x + r.w) && decide (r.y ≤ siteRow site) &&
    decide (siteRow site < r.y + r.h)

/-- The region of the active context that holds a site: partition, ring slot, region. -/
def State.regionAt (s : State) (site : Nat) : Option (Nat × Nat × Region) :=
  (s.regions.find? (fun e => e.2.onFab && s.active (e.1 / 4096) e.2.ctx && e.2.has site)).map
    (fun e => (e.1 / 4096, e.1 % 4096, e.2))

/-- The region's clock runs (R72, R261, R268). -/
def State.regionRuns (s : State) (q : Nat) (r : Region) : Bool :=
  r.onFab && r.armed && r.clock == 0 && s.active q r.ctx && s.prtRuns (some q)

/-- The clock of a site's island runs (R20, R23): that of its fabric stripe, or of its die's seams. -/
def State.siteClock (s : State) (site : Nat) : Bool :=
  match colKind (siteCol site) with
  | .fabric k => s.clockOn (blockIsland (blockNo (siteDie site) (siteRow site / 16) k))
  | .seam _ | .swarm _ _ => s.clockOn (20 * siteDie site + 18)

def Region.site (r : Region) (i : Nat) : Site := r.sites.look {} i
def Region.setSite (r : Region) (i : Nat) (x : Site) : Region :=
  { r with sites := r.sites.put {} i x }
def Region.gen (r : Region) (k : Nat) : Gen := r.gens.look {} k
def Region.setGen (r : Region) (k : Nat) (g : Gen) : Region := { r with gens := r.gens.put {} k g }

/-- The site runs in a running region and has not faulted: partition, ring slot, region, site. -/
def State.unitAt (s : State) (i : Nat) : Option (Nat × Nat × Region × Site) :=
  match s.regionAt i with
  | none => none
  | some (q, sl, r) =>
    let x := r.site i
    if s.regionRuns q r ∧ s.siteClock i then some (q, sl, r, x) else none

/-! ## Scheduling of unit events -/

/-- Posts an event that is not already on the agenda. -/
def State.poke (s : State) (e : Instr) : State := if s.agenda.contains e then s else s.post e

def State.pokes (s : State) (es : List Instr) : State := es.foldl State.poke s

/-- The events of the unit at a site. -/
def unitEvents (c : SiteCfg) (i : Nat) : List Instr :=
  match c.kind with
  | 1 => [.elementFire i, .escapeTokenLeave i]
  | 2 =>
    match c.role with
    | 1 => [.tilePortBOp i, .tileRead i]
    | 2 => [.fifoAppend i, .fifoEmit i]
    | _ => [.cacheLineFill i]
  | 3 => [.fibreUnitFire i]
  | _ => []

/-- What may act after a change at a site: the unit, its switch, the switches and generators that
feed it. -/
def State.wakeSite (s : State) (q sl : Nat) (r : Region) (i : Nat) : State :=
  let x := r.site i
  let ups := [0, 1, 2, 3].filterMap (fun d =>
    match linkTo i d with
    | .site j => if r.has j then some (Instr.tokenHop j (opp d)) else none
    | _ => none)
  let gs := match seamGen i with
    | some (k, _) => [Instr.generatorLoadEmit (k / 4) (k % 4), Instr.generatorStoreWrite (k / 4) (k % 4)]
    | none => []
  let ts := match r.mxs.filter (fun f => (seamGen i).map (·.1) == some (tileGen f.cluster)) with
    | f :: _ => [Instr.matrixTileEmit f.cluster]
    | [] => []
  let cs := (r.circs.filter (fun c => c.src == i || c.dst == i)).map
    (fun c => Instr.circuitTransfer q sl c.index)
  let sw := if x.rolled then [Instr.siteSwap i] else []
  s.pokes (unitEvents x.cfg i ++ [.elementResult i] ++ [0, 1, 2, 3].map (fun d => .tokenHop i d) ++
    ups ++ gs ++ ts ++ cs ++ sw)


/-! ## Extents (R163, R247) -/

def Extent.has (e : Extent) (page : Nat) : Bool := decide (e.vpage ≤ page) && decide (page < e.vpage + e.pages)

def Extent.leaf (e : Extent) (page : Nat) : Leaf := ⟨(e.ppage + page - e.vpage) * 4096, 0, e.attr⟩

def vpageOf (va : Nat) : Nat := va % 2 ^ 56 / 4096

/-- The extent a leaf gives. -/
def leafExtent (l : Leaf) (va : Nat) (gen : W16) : Extent :=
  let b := pageBits l.size
  { vpage := va % 2 ^ 56 / 2 ^ b * 2 ^ (b - 12), ppage := l.addr / 4096, pages := 2 ^ (b - 12)
    attr := l.attr, gen := gen }

/-- R163: the page walked on die `d` for a unit that needs `k`: its extent, or PAGE or ACCESS. -/
def State.walkExtent (s : State) (d q root : Nat) (k : AccKind) (va : Nat) : Except Nat Extent :=
  if localWin ≤ va ∨ !canonical va then .error 11
  else
    match s.walk d q root va (Config.choice s.fresh) with
    | .fault _ => .error 10
    | .leaf l =>
      match s.checkPart q true k l va 1 0 with
      | .ok _ _ => .ok (leafExtent l va (s.prt q).genIssued)
      | _ => .error 11

/-- An extent takes the place of the least recently used of 8; the list is most recent first. -/
def addExtent (l : List Extent) (e : Extent) : List Extent := (e :: l).take 8

/-- The loader fills an extent from a stream base, or leaves it empty. -/
def State.baseExtent (s : State) (d q root : Nat) (k : AccKind) (va : Nat) : List Extent :=
  match s.walkExtent d q root k va with
  | .ok e => [e]
  | .error _ => []

/-- What a unit needs of a page. -/
def Gen.need (g : Gen) : AccKind := if g.isStore then .store else .load
def SiteCfg.need (c : SiteCfg) : AccKind := if c.func = 8 then .store else .load

/-- A generator with the words and base of a shadow, unconfigured with none. -/
def Gen.shadowed (g : Gen) : Gen := match g.shadow with | some w => { ws := w.1, base := w.2 } | none => {}

/-- The stream bases a unit's configuration gives (R163, R433). -/
def SiteCfg.bases (c : SiteCfg) : List Nat :=
  if c.kind = 3 then
    match c.func with
    | 1 | 8 => [c.base0.toNat, c.base1.toNat]
    | 7 => [c.base0.toNat]
    | _ => []
  else []

/-- The extents the loader fills for a configuration of the unit at a site. -/
def State.siteExtents (s : State) (q root i : Nat) (c : SiteCfg) : List Extent :=
  c.bases.flatMap (s.baseExtent (siteDie i) q root c.need)

/-- The address of the first page of a run. -/
def Extent.va (e : Extent) : Nat :=
  let a := e.vpage * 4096
  if nbit a 55 then a + (2 ^ 64 - 2 ^ 56) else a

/-- Extents that a predicate picks map nothing, until their unit is restored (R249). -/
def dropExtents (p : Extent → Bool) (l : List Extent) : List Extent :=
  l.map (fun e => if p e then { e with pages := 0 } else e)

/-- Extents dropped while their unit did not run are refilled from the present tables; one whose page is not
present or is refused stays empty. -/
def State.refillLost (s : State) (d q root : Nat) (k : AccKind) (l : List Extent) : List Extent :=
  l.filterMap (fun e => if e.pages ≠ 0 then some e else (s.walkExtent d q root k e.va).toOption)

/-- A function on every extent of a region's units: the unit's die, what it needs of a page, its next address
where that is known, its extents. -/
def Region.mapExtents (r : Region) (f : Nat → AccKind → Option Nat → List Extent → List Extent)
    (site : Site → Option Nat) (gen : Gen → Option Nat) : Region :=
  { r with
    sites := r.sites.map (fun (e : Nat × Site) =>
      let d := siteDie e.1
      (e.1, { e.2 with
        extents := f d e.2.cfg.need (site e.2) e.2.extents
        shadowExt := f d (e.2.shadow.getD {}).need none e.2.shadowExt }))
    gens := r.gens.map (fun (e : Nat × Gen) =>
      let d := siteDie (e.1 / 4)
      (e.1, { e.2 with
        extents := f d e.2.need (gen e.2) e.2.extents
        shadowExt := f d e.2.shadowed.need (some e.2.shadowed.base.toNat) e.2.shadowExt })) }

/-- The extents a shoot-down or a move took from the region's units while they stood are filled again
(R249, R265). -/
def State.restore (s : State) (q : Nat) (r : Region) : Region :=
  r.mapExtents (fun d k _ l => s.refillLost d q r.root k l) (fun _ => none) (fun _ => none)

/-- Every extent of the region's units is repatched from the present tables (R163, R265). -/
def State.repatch (s : State) (q : Nat) (r : Region) : Region :=
  s.restore q (r.mapExtents (fun _ _ _ l => dropExtents (fun _ => true) l) (fun _ => none) (fun _ => none))

/-- The address a load or store generator visits next. -/
def Gen.nextVa (g : Gen) : Option Nat := if g.ws.isEmpty || g.done then none else some (g.addr g.i)

/-- The address a fibre unit reads or writes next, where its head token tells it (R435, R438, R439). -/
def Site.nextVa (x : Site) : Option Nat :=
  let c := x.cfg
  let pos (p : Nat) : Nat := (c.base0.toNat + 4 * p) % 2 ^ 64
  let crd (n : Nat) : Nat := (c.base1.toNat + 4 * n) % 2 ^ 64
  let val (l : List Token) : Option Nat := match l with
    | t :: _ => if t.isValue then some (t.payload.toNat % 2 ^ 32) else none
    | [] => none
  if c.kind ≠ 3 then none
  else if x.want ≠ 0 then some (x.want - 1)
  else
    match c.func with
    | 1 =>
      if x.haveX ∧ x.cur < x.cur2 then some (crd x.cur)
      else if c.fRoot then (if x.count = 0 then some (pos 0) else none)
      else (val (if x.haveX then x.a.drop 1 else x.a)).map pos
    | 7 => (val x.a).map (fun k => (c.base0.toNat + k * elBytes c.fVfmt) % 2 ^ 64)
    | 8 =>
      if !x.flagX then some (pos 0)
      else
        match x.a with
        | t :: _ => if t.isValue then some (crd x.cur) else if t.isStop then some (pos (x.cur2 + 1)) else none
        | [] => none
    | _ => none

/-- Everything in a region may act: at arm, and when its clock starts again, where its dropped extents are
refilled. -/
def State.wakeRegion (s : State) (q sl : Nat) : State :=
  let r := s.region q sl
  let (r, s) := if s.regionRuns q r then (s.restore q r, s.setRegion q sl (s.restore q r)) else (r, s)
  let s := (r.sites.map (·.1)).foldl (fun s i => s.wakeSite q sl r i) s
  let s := r.gens.foldl (fun s e =>
    s.pokes ([.generatorLoadEmit (e.1 / 4) (e.1 % 4), .generatorStoreWrite (e.1 / 4) (e.1 % 4)] ++
      (if e.2.paused then [.extentRefill (e.1 / 4) (e.1 % 4)] else []) ++
      (if e.2.rolled then [.siteSwap (e.1 / 4)] else []))) s
  let s := r.sites.foldl (fun s e =>
    let s := if e.2.paused then s.poke (.extentRefill e.1 4) else s
    if e.2.tickets.any (fun k => k.2.st == 1 && !k.2.asked) then s.poke (.escapeThreadStart e.1) else s) s
  let s := r.mxs.foldl (fun s f => s.pokes [.kStepGrant f.cluster, .kStepDone f.cluster,
    .matrixTileEmit f.cluster]) s
  let s := r.wins.foldl (fun s e => if 0 < e.2.due then s.poke (.windowPublish q sl e.1) else s) s
  let s := ((List.range 736).filter (fun x => decide (r.x ≤ x) && decide (x < r.x + r.w))).foldl
    (fun s x => if (s.trans.look {} x).wait.isEmpty ∧ (s.trans.look {} x).run.isEmpty then s
      else s.pokes [.transGrant x, .transReply x]) s
  s.pokes [.hushSweep q sl, .regionClockStop q sl]

/-! ## Buffers (R141, R151) -/

/-- Places: 0 to 3 hop buffers N, E, S, W, of 2 tokens; 4 to 6 input ports A, B, C, of 4. -/
def Site.buf (x : Site) (p : Nat) : List Token :=
  match p with
  | 0 => x.hn | 1 => x.he | 2 => x.hs | 3 => x.hw | 4 => x.a | 5 => x.b | _ => x.c

def Site.setBuf (x : Site) (p : Nat) (l : List Token) : Site :=
  match p with
  | 0 => { x with hn := l } | 1 => { x with he := l } | 2 => { x with hs := l }
  | 3 => { x with hw := l } | 4 => { x with a := l } | 5 => { x with b := l }
  | _ => { x with c := l }

def bufCap (p : Nat) : Nat := if p < 4 then 2 else 4

def Site.portLastOf (x : Site) (p : Nat) : Nat :=
  if p = 0 then x.lastA else if p = 1 then x.lastB else x.lastC
def Site.setLast (x : Site) (p l : Nat) : Site :=
  if p = 0 then { x with lastA := l } else if p = 1 then { x with lastB := l } else { x with lastC := l }

/-- What a port expects: rank, lanes of its format, SINGLE, pairs (R422, R434, R441). -/
def SiteCfg.portSpec (c : SiteCfg) (p : Nat) : Nat × Nat × Bool × Bool :=
  match c.kind with
  | 1 => let d := c.portDesc p; (dRank d, fmtLanes (dFmt d), dSingle d, false)
  | 2 =>
    if c.role = 2 then (c.tRankA, fmtLanes c.tFmt, false, false)
    else if p = 0 then (c.tRankA, 1, false, false)
    else if p = 1 then (c.tRankB, 1, false, false)
    else (c.tRankB, fmtLanes c.tFmt, !oneLane c.tFmt, false)
  | _ =>
    match c.func with
    | 3 | 4 => (c.fRank, 2, false, true)
    | 5 => if p = 0 then (1, 1, false, false) else (c.fRank, 16, false, false)
    | 6 => (c.fRank, fmtLanes c.fVfmt, !oneLane c.fVfmt, false)
    | _ => (c.fRank, 1, false, false)

/-- A fault of a unit with the place of its offending token. -/
def Site.fail (x : Site) (code port idx : Nat) : Site :=
  if x.flt.code = 0 then { x with flt := { code := code, port := port, idx := idx } } else x

/-- The last token of the stream behind the latest ROLL of a list (R145). -/
def streamLast (l : List Token) : Nat :=
  ((l.reverse.takeWhile (fun t => !t.isRoll)).reverse).foldl portLast 0

/-- A token enters a place; a port checks it and keeps one that breaks a rule (R146, R147). Behind a
ROLL the stream is the shadow configuration's (R185). -/
def Site.push (x : Site) (p : Nat) (t : Token) : Site :=
  let x' := x.setBuf p (x.buf p ++ [t])
  if p < 4 then x'
  else
    let k := p - 4
    if x.rolled || (x.buf p).any Token.isRoll then
      let (rank, lanes, single, pair) := (x.shadow.getD {}).portSpec k
      let f := portFault rank lanes single pair false (streamLast (x.buf p)) t
      if f = 0 then x' else x'.fail f k (x.buf p).length
    else
      let (rank, lanes, single, pair) := x.cfg.portSpec k
      let f := portFault rank lanes single pair x.shadow.isSome (x.portLastOf k) t
      if f = 0 then x'.setLast k (portLast (x.portLastOf k) t)
      else x'.fail f k (x.buf p).length

/-- Every place that selects the source has room (R151). -/
def Site.roomFor (x : Site) (src : Nat) : Bool :=
  (swDests x.cfg src).all (fun p => decide ((x.buf p).length < bufCap p))

/-- The token enters every place that selects its source, in the same cycle (R151). -/
def Site.deliver (x : Site) (src : Nat) (t : Token) : Site :=
  (swDests x.cfg src).foldl (fun x p => x.push p t) x

/-- Tokens of a local output that firings have made and that have not entered the buffers. -/
def Site.pending (x : Site) (o : Nat) : Nat :=
  x.res.foldl (fun n l => n + (if l.isEmpty then 1 else (l.filter (fun e => e.1 == o)).length)) 0

/-- R148: a free slot on every route that takes the output, results under way counted. -/
def Site.outRoom (x : Site) (o : Nat) : Bool :=
  (swDests x.cfg (5 + o)).all (fun p => decide ((x.buf p).length + x.pending o < bufCap p))

/-! ## Hush counts (R175) -/

/-- Tokens of a FIFO tile's ring. -/
def Site.fifoLen (x : Site) : Nat :=
  let n := x.cfg.tCap + 1
  if x.cfg.role = 2 then (x.tail + n - x.head) % n else 0

def Site.tokens (x : Site) : Nat :=
  ([0, 1, 2, 3, 4, 5, 6].foldl (fun n p => n + (x.buf p).length) 0) +
    x.res.foldl (fun n l => n + Nat.max 1 l.length) 0 + x.held.length + x.fifoLen +
    (if x.cfg.kind = 3 ∧ x.cfg.fRoot ∧ (x.cfg.func = 1 ∨ x.cfg.func = 2) ∧ !x.finA then 1 else 0)

def Gen.tokens (g : Gen) : Nat :=
  g.inbox.length + (if g.isLoad && !g.dSent then 1 else 0)

/-- The token count: a load generator, a rooted scan and a fabric-mode tile that have not emitted D
count one each. -/
def Region.tokens (r : Region) : Nat :=
  r.sites.foldl (fun n e => n + e.2.tokens) 0 + r.gens.foldl (fun n e => n + e.2.tokens) 0 +
    r.circs.foldl (fun n c => n + c.buf.length) 0 +
    r.mxs.foldl (fun n f => n + (if f.ws ≠ [] ∧ !f.dSent then 1 else 0)) 0

/-- Memory requests outstanding: refills and cache lines asked for. -/
def Region.memReqs (r : Region) : Nat :=
  r.sites.foldl (fun n e => n + e.2.miss.length + b2n e.2.paused) 0 +
    r.gens.foldl (fun n e => n + b2n e.2.paused) 0

/-- Blocks of a region's rectangle. -/
def Region.blocks (r : Region) : List Nat :=
  ((List.range 272).filter (fun n =>
    let t := blockSite n
    decide (siteX t < r.x + r.w) && decide (r.x < siteX t + 16) &&
      decide (siteRow t < r.y + r.h) && decide (r.y < siteRow t + 16)))

/-- Link credits not yet returned: tokens in the buffers that links fill (R175, log 33). -/
def Region.credits (r : Region) : Nat :=
  r.sites.foldl (fun n e => n + e.2.hn.length + e.2.he.length + e.2.hs.length + e.2.hw.length) 0 +
    r.gens.foldl (fun n e => n + e.2.inbox.length) 0

/-- FAB_RGN_HUSH: the three counts. -/
def Region.hush (r : Region) : Nat := r.tokens * 2 ^ 43 + r.credits * 2 ^ 22 + r.memReqs * 2 ^ 6

/-- The part of a region in one block: a generator and a matrix tile count at the block they attach to, a
circuit at its destination's (log 33). -/
def Region.inBlock (r : Region) (b : Nat) : Region :=
  let at' (i : Nat) : Bool := siteBlock i == some b
  { r with
    sites := r.sites.filter (fun e => at' e.1)
    gens := r.gens.filter (fun e => at' (genEdge e.1).1)
    circs := r.circs.filter (fun c => at' c.dst)
    mxs := r.mxs.filter (fun f => at' (genEdge (tileGen f.cluster)).1) }

/-- Blocks whose counts differ between two states of a region. -/
def Region.changed (r old : Region) : List Nat :=
  r.blocks.filter (fun b => decide ((r.inBlock b).hush ≠ (old.inBlock b).hush))

/-- Writes a region after an action: the blocks whose counts it changed are TOUCHED, an injection clears
QUIESCENT, and a Hush sweep looks at the region (R175, R176). -/
def State.putRegion (s : State) (q sl : Nat) (r : Region) : State :=
  (s.setRegion q sl { r with
    touched := (r.touched ++ r.changed (s.region q sl)).eraseDups, acted := true
    quiescent := r.quiescent && r.tokens == 0 }).poke (.hushSweep q sl)

/-! ## After a step -/

/-- After a unit's step: its region is written, its site and its faults take effect. -/
def State.putSite (s : State) (q sl i : Nat) (r : Region) (x : Site) : State :=
  let r := r.setSite i x
  let s := (s.putRegion q sl r).wakeSite q sl r i
  if x.flt.code ≠ 0 ∧ !x.flt.told then s.poke (.fabricFault i x.flt.code) else s

/-! ## Results and hops -/

/-- ELEMENT_RESULT (R150): the outputs of the oldest firing enter the buffers together. An output
that nothing selects is discarded. -/
def execElementResult (i : Nat) (s : State) : Host.Outcome State Fault Refusal :=
  .next (
    match s.unitAt i with
    | none => s
    | some (q, sl, r, x) =>
      match x.res with
      | [] => s
      | [] :: _ => s
      | l :: rest =>
        if l.all (fun e => x.roomFor (5 + e.1)) then
          s.putSite q sl i r (l.foldl (fun x e => x.deliver (5 + e.1) e.2) { x with res := rest })
        else s)

/-- Takes the head of a hop buffer. -/
def Region.takeHop (r : Region) (i d : Nat) : Region :=
  let x := r.site i
  r.setSite i (x.setBuf d ((x.buf d).drop 1))

/-- GUARD_DROP (R105, R106): the drop is counted, recorded when VALID is 0, and reported. Comparators of
class 3 see it with CODE 0: R71 names no code for a guard drop (log 52). -/
def State.guardDrop (s : State) (q i d : Nat) (x : Site) (t : Token) : State :=
  let p := s.prt q
  let p := { p with grdCnt := Nat.min 0xFFFFFFFF (p.grdCnt + 1) }
  let w := fabSite s.pkg i 0
  let s := s.setPrt q p
  let s :=
    if bitAt p.grdRec0 63 then s
    else
      let w0 := BitVec.ofNat 64 (2 ^ 63 + d * 2 ^ 46 + swClass x.cfg * 2 ^ 44 + t.tag.toNat * 2 ^ 32 +
        w.toNat)
      let s := s.setPrt q { p with grdRec0 := w0, grdRec1 := t.payload }
      let s := s.report q 1
      if bitAt p.grdEp 63 then s.managerMsg q (BitVec.ofNat 32 p.grdEp.toNat) w0 t.payload else s
  s.debugEvent 3 0 (some w)

/-- A store generator's inbox, in tokens: the credit of its link (log 22). -/
def inboxCap : Nat := 2

/-- A token reaches a store generator, which checks it as a port does. -/
def Gen.take (g : Gen) (t : Token) : Gen :=
  let f := portFault g.rank (if g.single then 1 else fmtLanes g.fmt) g.single false g.shadow.isSome
    g.last t
  let g' := { g with inbox := g.inbox ++ [t] }
  if f = 0 then { g' with last := portLast g.last t }
  else if g.flt.code = 0 then { g' with flt := { code := f, port := 7, idx := 0 } } else g'

/-- After a generator's step. -/
def State.putGen (s : State) (q sl key : Nat) (r : Region) (g : Gen) : State :=
  let r := r.setGen key g
  let s := (s.putRegion q sl r).wakeSite q sl r (genEdge key).1
  let s := if g.rolled then s.poke (.siteSwap (key / 4)) else s
  if g.flt.code ≠ 0 ∧ !g.flt.told then s.poke (.fabricFault (key / 4) g.flt.code) else s

/-- The block is the partition's, or the running resize that claims it has begun to move units there
(R93, R104, log 26). -/
def State.holdsBlock (s : State) (q b : Nat) : Bool :=
  s.ownsBlock q b ||
    (match s.resize with
     | some z => z.prt == q && decide (4 ≤ z.step) && bitAt z.blk b
     | none => false)

/-- The generator configured at the seam-facing link of a site in direction `d` (R442); generator 3 of a
fabric-mode tile is one (R212). -/
def Region.attached (r : Region) (i d : Nat) : Option Nat :=
  match seamGen i with
  | some (k, d') =>
    if d' = d ∧ ((r.gen k).ws ≠ [] ∨ r.mxs.any (fun f => f.ws ≠ [] && tileGen f.cluster == k)) then some k
    else none
  | none => none

/-- The token at the head of hop buffer `d` of site `i` moves to site `j`, or is dropped there by
the guard or the region check (R104, R447). -/
def State.hopTo (s : State) (q sl : Nat) (r : Region) (i d j : Nat) (t : Token) : State :=
  let drop := !r.has j ||
    (match siteBlock j with | some b => !s.holdsBlock q b | none => false)
  if drop then
    let r' := r.takeHop i d
    ((s.guardDrop q i d (r.site i) t).putRegion q sl r').wakeSite q sl r' i
  else
    let y := r.site j
    let src := srcOf (opp d)
    -- A generator attached at the far edge site has taken its seam-facing link (R442).
    if r.attached j (opp d) ≠ none ∨ (swDests y.cfg src).isEmpty ∨ !y.roomFor src then s
    else
      let r := r.takeHop i d
      (s.putSite q sl j r ((r.site j).deliver src t)).wakeSite q sl r i

/-- TOKEN_HOP (R151, R446): the head of a hop buffer moves on when every selected destination has
room. -/
def execTokenHop (i d : Nat) (s : State) : Host.Outcome State Fault Refusal :=
  .next (
    match s.unitAt i with
    | none => s
    | some (q, sl, r, x) =>
      match x.buf d with
      | [] => s
      | t :: _ =>
        match r.attached i d with
        | some k =>
          let g := r.gen k
          if g.isStore ∧ g.inbox.length < inboxCap ∧ g.flt.code = 0 ∧ !g.rolled ∧ !g.inbox.any Token.isRoll then
            (s.putGen q sl k (r.takeHop i d) (g.take t)).wakeSite q sl (r.takeHop i d) i
          else s
        | none =>
          match linkTo i d with
          | .site j => s.hopTo q sl r i d j t
          | .bridge | .none => s)

/-! ## Circuits across the bridge (R32 to R34) -/

def circCap : Nat := 8

/-- The bridge direction of an edge site: E of die 0, W of die 1. -/
def bridgeDir (i : Nat) : Nat := if siteDie i = 0 then 1 else 3

/-- CIRCUIT_TRANSFER (R33): the oldest token of the circuit's receive buffer enters the destination
edge switch, and the head of the source edge's bridge output enters the buffer. Where two circuits name one
source edge site, the one whose transfer runs first takes the token (DESIGN CHOICE, log 64). -/
def execCircuitTransfer (q sl idx : Nat) (s : State) : Host.Outcome State Fault Refusal :=
  let r := s.region q sl
  .next (
    match r.circs.find? (fun c => c.index == idx) with
    | none => s
    | some c =>
      if !s.regionRuns q r || !s.bridgeClock then s
      else
        let setC (r : Region) (buf : List Token) : Region :=
          { r with circs := r.circs.map (fun (e : Circuit) => if e.index = idx then { e with buf := buf } else e) }
        let src := srcOf (bridgeDir c.dst)
        let y := r.site c.dst
        let s :=
          match c.buf with
          | [] => s
          | t :: rest =>
            if (swDests y.cfg src).isEmpty || !y.roomFor src || !s.siteClock c.dst then s
            else s.putSite q sl c.dst (setC r rest) (y.deliver src t)
        let r := s.region q sl
        match r.circs.find? (fun c => c.index == idx) with
        | none => s
        | some c =>
          let d := bridgeDir c.src
          match (r.site c.src).buf d with
          | [] => s
          | t :: _ =>
            if c.buf.length < circCap ∧ s.siteClock c.src then
              let r := (setC r (c.buf ++ [t])).takeHop c.src d
              (s.putRegion q sl r).wakeSite q sl r c.src
            else s)

/-! ## Faults (R147, R261 to R264) -/

/-- Marks a unit's record as written. -/
def Flt.tell (f : Flt) : Flt := if f.code = 0 then f else { f with told := true }
def Flt.due (f : Flt) : Bool := f.code != 0 && !f.told

/-- A fabric fault entry of R262. -/
def faultEntry (loc : Nat) (t : Token) : Nat :=
  t.payload.toNat % 2 ^ 16 * 2 ^ 16 + loc * 2 ^ 12 + t.tag.toNat

/-- Port buffers head first, then hop buffers. -/
def Site.entries (x : Site) : List Nat :=
  x.a.map (faultEntry 0) ++ x.b.map (faultEntry 1) ++ x.c.map (faultEntry 2) ++
    x.hn.map (faultEntry 3) ++ x.he.map (faultEntry 4) ++ x.hs.map (faultEntry 5) ++
    x.hw.map (faultEntry 6)

/-- The entry that holds the offending token; 15 beyond entry 11 or with none. -/
def Site.badEntry (x : Site) : Nat :=
  let base := match x.flt.port with
    | 0 => 0 | 1 => x.a.length | 2 => x.a.length + x.b.length | _ => 12
  if base + x.flt.idx < 12 then base + x.flt.idx else 15

/-- The fabric record of R262; FLAGS 2 SAVED, 4 NOSAVE, 8 POISON. -/
def fabricRecord (site word : W32) (code nbad slot flags cycle : Nat) (es : List Nat) : List Byte :=
  let es := es.take 12
  leBytes 4 site.toNat ++ leBytes 4 word.toNat ++ leBytes 1 code ++
    leBytes 1 (es.length + 16 * nbad) ++ leBytes 2 (slot % 4096 + 4096 * flags) ++ leBytes 4 cycle ++
    es.flatMap (leBytes 4) ++ List.replicate (48 - 4 * es.length) 0

/-- The faulted units of a region whose records are due: SITE word, function word, fault, offending
entry, entries. -/
def State.dueFaults (s : State) (r : Region) : List (W32 × W32 × Flt × Nat × List Nat) :=
  (r.sites.filter (fun e => e.2.flt.due)).map (fun e =>
    let c := e.2.cfg
    (fabSite s.pkg e.1 0, if c.kind = 1 then c.ops.getD e.2.flt.act 0 else c.w0, e.2.flt,
      e.2.badEntry, e.2.entries)) ++
  (r.gens.filter (fun e => e.2.flt.due)).map (fun e =>
    (fabSite s.pkg (e.1 / 4) (e.1 % 4), e.2.w 0, e.2.flt, 15, [])) ++
  (r.mxs.filter (fun f => f.flt.due)).map (fun f =>
    (fabSite s.pkg (tileUnit f.cluster) 0, f.w 0, f.flt, 15, []))

def Region.tellAll (r : Region) : Region :=
  { r with sites := r.sites.map (fun (e : Nat × Site) => (e.1, { e.2 with flt := e.2.flt.tell }))
           gens := r.gens.map (fun (e : Nat × Gen) => (e.1, { e.2 with flt := e.2.flt.tell }))
           mxs := r.mxs.map (fun (f : MxFab) => { f with flt := f.flt.tell }) }

/-- Save-area bytes of one block (R265). -/
def saveBlock : Nat := 1088 * 1024

/-- The lowest offset of the save area with room for `n` bytes (R265). -/
def saveOffset (size n : Nat) (saved : List (Nat × Nat × Nat)) : Option Nat :=
  let cands := 0 :: saved.map (fun e => e.2.1 + e.2.2)
  let ok (o : Nat) : Bool := decide (o + n ≤ size) &&
    saved.all (fun e => decide (o + n ≤ e.2.1) || decide (e.2.1 + e.2.2 ≤ o))
  (cands.filter ok).foldl (fun b o => match b with | none => some o | some m => some (Nat.min m o)) none

/-- The save-area offset a region would take, when it fits (R264). -/
def State.saveRoom (s : State) (q : Nat) (r : Region) : Option Nat :=
  let p := s.prt q
  saveOffset (fld p.fsave 11 0 * 2 ^ 20) (r.blocks.length * saveBlock) p.saved

/-- Writes the due records of a region with the FLAGS given beside POISON (R261, R262). -/
def State.writeFaults (s : State) (q sl : Nat) (r : Region) (flags : Nat → Nat) : State :=
  (s.dueFaults r).foldl (fun s e =>
    let (cyc, s) := s.draw
    let f := e.2.2.1
    let fl := flags f.code + (if f.poison then 8 else 0)
    (s.faultRecord q e.1 (fabricRecord e.1 e.2.1 f.code e.2.2.2.1 sl fl (cyc.toNat % 2 ^ 32)
      e.2.2.2.2)).debugEvent 1 f.code (some e.1)) s

/-- FABRIC_FAULT (R147): a unit of a running region that has stopped with this code: FAULTED is set,
the first code is kept, and the region's clock will stop. -/
def execFabricFault (i code : Nat) (s : State) : Host.Outcome State Fault Refusal :=
  .next (
    match s.regionAt i with
    | none => s
    | some (q, sl, r) =>
      let isIt (f : Flt) : Bool := f.code == code && !f.told
      if isIt (r.site i).flt || r.gens.any (fun e => e.1 / 4 == i && isIt e.2.flt) ||
          r.mxs.any (fun f => tileUnit f.cluster == i && isIt f.flt) then
        (s.setRegion q sl
          { r with faulted := true, fcode := if r.fcode = 0 then code else r.fcode }).poke
          (.regionClockStop q sl)
      else s)

/-- REGION_CLOCK_STOP (R261, R264): the clock stops, and each faulted unit writes its record; FAULTED and the
first code are there whichever event comes first. A PAGE fault with room in the save area is recorded by the
scan-out instead. -/
def execRegionClockStop (q sl : Nat) (s : State) : Host.Outcome State Fault Refusal :=
  let r := s.region q sl
  .next (
    match s.dueFaults r with
    | [] => s
    | ds =>
      if !r.onFab then s
      else
        let first := (ds.head?.map (fun e => e.2.2.1.code)).getD 0
        let s := s.setRegion q sl { r with
          clock := if r.clock = 0 then 1 else r.clock
          faulted := true, fcode := if r.fcode = 0 then first else r.fcode }
        let page := ds.any (fun e => e.2.2.1.code == 10) && ds.all (fun e => e.2.2.1.code == 10)
        let room := (s.saveRoom q r).isSome
        if page && room && r.clock == 0 then
          (s.setRegion q sl { s.region q sl with clock := 2 }).post (.fabricPageFaultScanout q sl)
        else
          let s := s.writeFaults q sl r (fun c => if c = 10 ∧ !room then 4 else 0)
          s.setRegion q sl (s.region q sl).tellAll)

/-- The bytes and full bits of the region's shares of its memory tiles, keyed by place in the region:
`2^17 * (128 dx + dy)` plus the offset in the tile (R91, R265). -/
def State.tileCells (s : State) (q : Nat) (r : Region) : List Host.Cell × Tbl FullBit :=
  let w := if r.ctx = 0 then (s.prt q).mtpw0 else (s.prt q).mtpw1
  let lo := 1024 * fld w 14 8
  let hi := lo + 1024 * fld w 6 0
  let key (a : Nat) : Option Nat :=
    if isTile a then
      let t := tileOfAddr a
      let off := (a - tileWin) % 0x10000
      if r.has t ∧ lo ≤ off ∧ off < hi then
        some (2 ^ 17 * (128 * (siteX t - r.x) + (siteRow t - r.y)) + off)
      else none
    else none
  (s.mem.filterMap (fun c => (key c.1).map (fun k => (k, c.2))),
   s.full.filterMap (fun e => (key (8 * e.1)).map (fun k => (k, e.2))))

end Sys2Proof.Machine
end

