-- ==== Sys2Proof/Machine/FabMem.lean ====
section
/-!
DEFINITION. The units of a region that hold or reach memory: extents and patch misses (06 R163,
09 R247), memory tiles (06 R154 to R159, 15 R440, R441), generators (06 R161, R162, 15 R443), fibre
units (06 R160, 15 R434 to R439) and stream windows (06 R173).
-/

namespace Sys2Proof.Machine

open Sys2Proof

/-! ## Accesses through extents (R163, R247) -/

/-- An access of a unit: parts, a miss of its extents, or a fault code of R146 with POISON. -/
inductive UnitLook where
  | ok (ps : List Part)
  | miss (va : Nat)
  | fault (code : Nat) (poison : Bool)

def State.unitPiece (s : State) (q : Nat) (l : List Extent) (k : AccKind) (va n : Nat) : PieceRes :=
  if localWin ≤ va ∨ !canonical va then .fault cACCESS 0 va
  else
    match l.find? (fun e => e.has (vpageOf va)) with
    | none => .miss va
    | some e => s.checkPart q true k (e.leaf (vpageOf va)) va n 0

def State.unitLook (s : State) (q : Nat) (l : List Extent) (k : AccKind) (va n : Nat) : UnitLook :=
  let rs := (s.piecesFor q va n).map (fun p => s.unitPiece q l k p.1 p.2)
  match firstMiss rs with
  | some v => .miss v
  | none =>
    match firstFault rs with
    | some _ => .fault 11 false
    | none =>
      let ps := (partsOf rs).map (·.1)
      if k.rd && ps.any (fun p => s.poisoned p.pa p.n) then .fault 11 true else .ok ps

/-- R237: reads and writes at the die's home, never through an L1. -/
def State.fabRead (s : State) (die : Nat) (ps : List Part) : Nat :=
  leNat (ps.flatMap (fun p => leBytes p.n
    (if p.cached then s.readWords (128 * die) false p.pa p.n else s.readHome p.pa p.n)))

def State.fabWrite (s : State) (die : Nat) : List Part → Nat → State
  | [], _ => s
  | p :: r, x =>
    let s := (s.behind p).writeHome p.pa p.n (x % 256 ^ p.n)
    let s := if p.cached then (wordsOf p.pa p.n).foldl (fun s w => s.homeWrote die p w) s else s
    (s.serveParts [p]).fabWrite die r (x / 256 ^ p.n)

/-- A read has brought its grain units to the die's home (R224, R225). -/
def State.fabTook (s : State) (die : Nat) (ps : List Part) : State :=
  (ps.filter (·.cached)).foldl (fun s p =>
    (wordsOf p.pa p.n).foldl (fun s w => s.takeUnit die p.prt p.grain p.hc false w) s) s

/-- Extents whose page was used come first. -/
def touchExtent (l : List Extent) (va : Nat) : List Extent :=
  match l.find? (fun e => e.has (vpageOf va)) with
  | some e => e :: l.erase e
  | none => l

def touchExtents (l : List Extent) (vas : List Nat) : List Extent := vas.foldl touchExtent l

/-- A load of a unit: the value, a wait for a CACHE tile's line (with the tile's new misses), a miss
of the extents, or a fault. -/
inductive UnitRes where
  | ok (x : Nat)
  | wait (tile : Option (Nat × Site))
  | miss (va : Nat)
  | fault (code : Nat) (poison : Bool)

/-- The reads a unit's step made of memory. -/
def State.unitTook (s : State) (q die : Nat) (l : List Extent) (reads : List (Nat × Nat)) : State :=
  reads.foldl (fun s e => match s.unitLook q l .load e.1 e.2 with
    | .ok ps => s.fabTook die ps
    | _ => s) s

def State.unitLoad (s : State) (q die : Nat) (l : List Extent) (va n : Nat) : UnitRes :=
  match s.unitLook q l .load va n with
  | .ok ps => .ok (s.fabRead die ps)
  | .miss v => .miss v
  | .fault c p => .fault c p

/-- The address of the line asked for last. -/
def Site.asked (x : Site) : List Nat := (x.miss.getLast?.map (fun m => 128 * m.1)).toList

/-- R159: a read through the CACHE tile at site `t`: by virtual line, up to 8 lines asked for. -/
def State.cacheLoad (s : State) (q : Nat) (r : Region) (t : Nat) (l : List Extent) (va n : Nat) :
    UnitRes :=
  let x := r.site t
  let line := va / 128
  let need := (List.range ((va % 128 + n + 127) / 128)).map (line + ·)
  match need.find? (fun k => !(x.lines.any (fun e => e.1 == k))) with
  | none =>
    .ok (((need.zipIdx).foldl (fun v e => v + (x.lines.look 0 e.1).toNat * 2 ^ (1024 * e.2)) 0) /
      256 ^ (va % 128) % 256 ^ n)
  | some k =>
    if x.miss.any (fun m => m.1 == k) ∨ 8 ≤ x.miss.length then .wait none
    else
      let a := if k = line then va else k * 128
      match s.unitPiece q l .load a 1 with
      | .miss v => .miss v
      | .fault _ _ _ => .fault 11 false
      | .ok _ _ =>
        match l.find? (fun e => e.has (vpageOf a)) with
        | none => .miss a
        | some e => .wait (some (t, { x with miss := x.miss ++ [(k, (e.leaf (vpageOf a)).pa a / 128)] }))

/-! ## Memory tiles -/

/-- The share of a memory tile a context's regions use: first byte and bytes (R267). -/
def State.tileShare (s : State) (q ctx : Nat) : Nat × Nat :=
  let w := if ctx = 0 then (s.prt q).mtpw0 else (s.prt q).mtpw1
  (1024 * fld w 14 8, 1024 * fld w 6 0)

/-- The home of fabric address `a` of the tile at a site. -/
def State.tileByte (s : State) (q ctx i a : Nat) : Nat := tileAddr i + (s.tileShare q ctx).1 + a

/-- R155: the address is in the share and a multiple of the element size. -/
def State.tileOk (s : State) (q ctx el a : Nat) : Bool :=
  decide (a < (s.tileShare q ctx).2) && a % el == 0

/-- Ports of a site its switch feeds. -/
def SiteCfg.routed (c : SiteCfg) : List Nat := [0, 1, 2].filter (fun p => swIn c p != 0)

/-- R148, R186 for ROLL at the ports in use: none while some head is missing or none is ROLL; a port at
fault (ARITY: the first whose head differs from the first head present, R262); or every head is ROLL. -/
def rollState (x : Site) (ports : List Nat) : Option (Except Nat Unit) :=
  let heads := ports.map (fun p => (p, (x.buf (p + 4)).head?))
  if heads.any (fun h => match h.2 with | some t => t.isRoll | none => false) then
    match heads.filterMap (fun h => h.2.map (fun t => (h.1, t.isRoll))) with
    | [] => none
    | h :: rest =>
      match rest.find? (fun e => e.2 != h.2) with
      | some e => some (.error e.1)
      | none => if heads.all (fun h => h.2.isSome) then some (.ok ()) else none
  else none

def Site.pop (x : Site) (p : Nat) : Site := x.setBuf (p + 4) ((x.buf (p + 4)).drop 1)
def Site.popAll (x : Site) (ps : List Nat) : Site := ps.foldl Site.pop x

/-- ROLL at a tile: none where it heads no port in use, or a port awaits it; a fault where another token
heads one (R186); else the tile takes it, once there is room, and forwards it (R185). -/
def Site.tileRoll (x : Site) : Option Site :=
  let ps := x.cfg.routed
  match rollState x ps with
  | none => none
  | some (.error p) => some (x.fail 4 p 0)
  | some (.ok _) =>
    let o0 := ps.contains 0
    let o1 := ps.contains 1 && x.cfg.tRet
    if (o0 && !x.roomFor 5) || (o1 && !x.roomFor 6) then some x
    else
      let y := x.popAll ps
      let y := if o0 then y.deliver 5 tokRoll else y
      let y := if o1 then y.deliver 6 tokRoll else y
      some { y with rolled := true }

/-- An operation is ready at ports B and C: it is older than a read at port A (R157). -/
def Site.portBReady (x : Site) : Bool :=
  match x.b, x.c with
  | t :: _, u :: _ => !t.isRoll && !u.isRoll && (!x.cfg.tRet || x.roomFor 6)
  | _, _ => false

/-- The value token of an element of a tile or unit format: SINGLE unless it has one lane. -/
def elemTok (f x : Nat) : Token := tokVal (if oneLane f then 0 else 1) x

/-- TILE_READ (R155, R157): a port-A read of a BUFFER tile returns its data on out0. -/
def execTileRead (i : Nat) (s : State) : Host.Outcome State Fault Refusal :=
  .next (
    match s.unitAt i with
    | none => s
    | some (q, sl, r, x) =>
      if x.cfg.role ≠ 1 ∨ x.flt.code ≠ 0 ∨ x.rolled then s
      else
        -- A firing ends a stall, a fault does not (R177).
        let fired := { r with stall := false }
        match x.tileRoll with
        | some y => if y = x then s else s.putSite q sl i (if y.rolled then fired else r) y
        | none =>
          match x.a with
          | [] => s
          | t :: _ =>
            if t.isRoll || !x.roomFor 5 then s
            else if x.portBReady then s.pokes [.tilePortBOp i, .tileRead i]
            else if t.isValue then
              let el := elBytes x.cfg.tFmt
              let a := t.payload.toNat % 2 ^ 32
              if s.tileOk q r.ctx el a then
                let v := s.readHome (s.tileByte q r.ctx i a) el
                s.putSite q sl i fired ((x.pop 0).deliver 5 (elemTok x.cfg.tFmt v))
              else s.putSite q sl i r (x.fail 8 0 0)
            else
              let y := (x.pop 0).deliver 5 t
              s.putSite q sl i fired (if t.isDone then { y with finA := true } else y))

/-- One RMW or write of the tile at site `i` (R156): the old element, the state and the flags. -/
def State.tileRmw (s : State) (q ctx i : Nat) (c : SiteCfg) (a x : Nat) : Nat × State × FP.Flags :=
  let el := elBytes c.tFmt
  let h := s.tileByte q ctx i a
  let old := s.readHome h el
  let r := rmwElem c.tRmw c.tFmt old (x % 256 ^ el)
  (old, (s.writeHome h el (r.1 % 256 ^ el)).serveWord (h / 8 * 8), r.2)

/-- TILE_PORT_B_OP (R155, R156): address at B and operand at C; the old value on out1 under RET. -/
def execTilePortBOp (i : Nat) (s : State) : Host.Outcome State Fault Refusal :=
  .next (
    match s.unitAt i with
    | none => s
    | some (q, sl, r, x) =>
      if x.cfg.role ≠ 1 ∨ x.flt.code ≠ 0 ∨ x.rolled then s
      else
        let fired := { r with stall := false }
        match x.tileRoll with
        | some y => if y = x then s else s.putSite q sl i (if y.rolled then fired else r) y
        | none =>
          match x.b, x.c with
          | t :: _, u :: _ =>
            if t.isRoll || u.isRoll then s
            else if t.cls != u.cls then s.putSite q sl i r (x.fail 4 2 0)
            else
              let ret := x.cfg.tRet && x.cfg.tRmw != 5
              if x.cfg.tRet && !x.roomFor 6 then s
              else if t.isValue then
                let el := elBytes x.cfg.tFmt
                let a := t.payload.toNat % 2 ^ 32
                if s.tileOk q r.ctx el a then
                  let (old, s, fl) := s.tileRmw q r.ctx i x.cfg a u.payload.toNat
                  let y := x.popAll [1, 2]
                  let y := if ret then y.deliver 6 (elemTok x.cfg.tFmt old) else y
                  s.putSite q sl i { fired with flags := r.flags ||| fl } y
                else s.putSite q sl i r (x.fail 8 1 0)
              else
                let y := x.popAll [1, 2]
                let y := if x.cfg.tRet then y.deliver 6 t else y
                s.putSite q sl i fired (if t.isDone then { y with finB := true } else y)
          | _, _ => s)

/-! ## FIFO tiles (R158) -/

def Site.fifoNext (x : Site) (p : Nat) : Nat := (p + 1) % (x.cfg.tCap + 1)
def Site.fifoFull (x : Site) : Bool := x.fifoNext x.tail == x.head
def Site.fifoEmpty (x : Site) : Bool := x.head == x.tail

/-- Appends a token: payload in bytes 0 to 7 of its entry, tag in bytes 8 and 9. -/
def State.fifoPut (s : State) (q ctx i : Nat) (x : Site) (t : Token) : State × Site :=
  let h := s.tileByte q ctx i (16 * x.tail)
  (s.deviceStore h (leBytes 16 (t.payload.toNat + 2 ^ 64 * t.tag.toNat)), { x with tail := x.fifoNext x.tail })

/-- The token at the head of the ring. -/
def State.fifoHead (s : State) (q ctx i : Nat) (x : Site) : Token :=
  let h := s.tileByte q ctx i (16 * x.head)
  ⟨BitVec.ofNat 64 (s.readHome h 8), BitVec.ofNat 12 (s.readHome (h + 8) 2)⟩

/-- FIFO_APPEND (R158): port A's token enters the ring; behind a ROLL none follows. -/
def execFifoAppend (i : Nat) (s : State) : Host.Outcome State Fault Refusal :=
  .next (
    match s.unitAt i with
    | none => s
    | some (q, sl, r, x) =>
      if x.cfg.role ≠ 2 ∨ x.flt.code ≠ 0 ∨ x.rolled ∨ x.flagX ∨ x.fifoFull then s
      else
        match x.a with
        | [] => s
        | t :: _ =>
          let (s, y) := s.fifoPut q r.ctx i (x.pop 0) t
          s.putSite q sl i { r with stall := false } { y with flagX := t.isRoll, finB := x.finB || t.isDone })

/-- FIFO_EMIT (R158, R185): the head entry leaves on out0; the tile takes ROLL when ROLL leaves, and one
with no shadow configuration faults CTRL there (R186). -/
def execFifoEmit (i : Nat) (s : State) : Host.Outcome State Fault Refusal :=
  .next (
    match s.unitAt i with
    | none => s
    | some (q, sl, r, x) =>
      if x.cfg.role ≠ 2 ∨ x.flt.code ≠ 0 ∨ x.rolled ∨ x.fifoEmpty ∨ (swDests x.cfg 5).isEmpty ∨
          !x.roomFor 5 then s
      else
        let t := s.fifoHead q r.ctx i x
        if t.isRoll && x.shadow.isNone then s.putSite q sl i r (x.fail 5 7 0)
        else
          let y := { x with head := x.fifoNext x.head, finA := x.finA || t.isDone
                            rolled := t.isRoll, flagX := x.flagX && !t.isRoll }
          s.putSite q sl i { r with stall := false } (y.deliver 5 t))

/-! ## CACHE tiles (R159) -/

/-- The line asked for at place `k` arrives from the home slice. -/
def State.fillLine (s : State) (q sl i k : Nat) : State :=
  let r := s.region q sl
  let x := r.site i
  match x.miss[k]? with
  | none => s
  | some (vl, pl) =>
    let y := { x with miss := x.miss.eraseIdx k }
    match s.homeOf q (128 * pl) 128 with
    | .at h =>
      if s.poisoned h 128 then
        s.putSite q sl i r { y.fail 11 7 0 with flt := { code := 11, poison := true } }
      else
        let d := BitVec.ofNat 1024 (if isSram h then s.readHome h 128
          else s.readWords (128 * siteDie i) false h 128)
        let keep := y.lines.filter (fun e => e.1 % 512 != vl % 512)
        let s := s.putSite q sl i r { y with lines := Tbl.ins keep vl d }
        s.wakeRegion q sl
    | _ => s.putSite q sl i r (y.fail 11 7 0)

/-- CACHE_LINE_FILL (R159): the oldest missing line arrives. -/
def execCacheLineFill (i : Nat) (s : State) : Host.Outcome State Fault Refusal :=
  .next (
    match s.unitAt i with
    | none => s
    | some (q, sl, _, _) => s.fillLine q sl i 0)

/-- Lines asked for by a tile that a predicate picks arrive, oldest first. -/
def State.fillLines (s : State) (q sl i : Nat) (p : Nat → Bool) : Nat → State
  | 0 => s
  | n + 1 =>
    match ((s.region q sl).site i).miss.findIdx? (fun m => p m.1) with
    | none => s
    | some k => (s.fillLine q sl i k).fillLines q sl i p n

/-! ## Patch misses (R163) -/

/-- The refill a configuration port works at (R189). -/
def State.portOp (s : State) (p op q sl bytes : Nat) (busy : Bool) : State :=
  { s with cfg := { s.cfg with ports := s.cfg.ports.put {} p ⟨busy, op, q, sl, bytes⟩ } }

/-- PATCH_MISS (R163): a unit whose address no extent covers pauses while the loader refills one.
`n` is the generator, or 4 for a fibre unit. -/
def execPatchMiss (i n : Nat) (s : State) : Host.Outcome State Fault Refusal :=
  .next (
    match s.unitAt i with
    | none => s
    | some (q, sl, r, x) =>
      let go (r : Region) : State :=
        let s := s.putRegion q sl r
        -- A port that a load uses shows the load (R189).
        let c := s.cfg.ports.look {} (cfgPortOf i)
        (if c.busy ∧ c.op ≤ 2 then s else s.portOp (cfgPortOf i) 5 q sl 0 true).poke (.extentRefill i n)
      if n = 4 then
        if x.cfg.kind = 3 ∧ x.want ≠ 0 ∧ !x.paused ∧ !(x.extents.any (fun e => e.has (vpageOf (x.want - 1))))
        then go (r.setSite i { x with paused := true }) else s
      else
        let g := r.gen (4 * i + n)
        if g.ws ≠ [] ∧ g.want ≠ 0 ∧ !g.paused ∧ !(g.extents.any (fun e => e.has (vpageOf (g.want - 1))))
        then go (r.setGen (4 * i + n) { g with paused := true }) else s)

/-- The loader's walk for a paused unit ends: the extent is filled, or PAGE or ACCESS is raised, and the
unit resumes. The tables are read as they stand now (R250). R189 does not say what BYTES counts for a
refill: a free value (log 33). -/
def State.refillAt (s : State) (q sl i n : Nat) : State :=
  let r := s.region q sl
  let x := r.site i
  let (by', s) := s.draw
  let s := { s with cfg := { s.cfg with ports := s.cfg.ports.map (fun (e : Nat × CfgPort) =>
    if e.1 = cfgPortOf i ∧ e.2.op = 5 then (e.1, { e.2 with bytes := by'.toNat % 2 ^ 32 }) else e) } }
  let s' := { s with cfg := { s.cfg with misses := s.cfg.misses + 1 } }
  State.refillPorts <|
  if n = 4 then
    if x.paused then
      match s.walkExtent (siteDie i) q r.root x.cfg.need (x.want - 1) with
      | .ok e => s'.putSite q sl i r
          { x with paused := false, want := 0, extents := addExtent x.extents e }
      | .error c => s'.putSite q sl i r ({ x with paused := false, want := 0 }.fail c 0 0)
    else s
  else
    let g := r.gen (4 * i + n)
    if g.paused then
      match s.walkExtent (siteDie i) q r.root g.need (g.want - 1) with
      | .ok e => s'.putGen q sl (4 * i + n) r
          { g with paused := false, want := 0, extents := addExtent g.extents e }
      | .error c => s'.putGen q sl (4 * i + n) r
          { g with paused := false, want := 0
                   flt := if g.flt.code = 0 then { code := c } else g.flt }
    else s

/-- EXTENT_REFILL (R163). -/
def execExtentRefill (i n : Nat) (s : State) : Host.Outcome State Fault Refusal :=
  .next (
    match s.unitAt i with
    | none => s
    | some (q, sl, _, _) => s.refillAt q sl i n)

/-- Every memory request of the region has replied (R265, R268, R270): lines asked for have arrived and
refills have ended. -/
def State.landRequests (s : State) (q sl : Nat) : State :=
  let r := s.region q sl
  let s := r.sites.foldl (fun s e =>
    let s := s.fillLines q sl e.1 (fun _ => true) e.2.miss.length
    if e.2.paused then s.refillAt q sl e.1 4 else s) s
  r.gens.foldl (fun s e => if e.2.paused then s.refillAt q sl (e.1 / 4) (e.1 % 4) else s) s

/-- The configuration ports that serve a region's blocks, with the half-blocks each serves (R189). -/
def Region.ports (r : Region) : List (Nat × Nat) :=
  let ps := r.blocks.flatMap (fun b =>
    let t := blockSite b
    [cfgPortOf t, cfgPortOf (siteAt (siteX t + 15) (siteRow t))])
  ps.eraseDups.map (fun p => (p, ps.count p))

/-- Every port of the region works at its state: a port's share is half a block on each side it serves
(R189, log 33). -/
def State.regionPorts (s : State) (q sl op : Nat) (r : Region) : State :=
  r.ports.foldl (fun s p => s.portOp p.1 op q sl (p.2 * (saveBlock / 2)) false) s

/-- The scan-out's bytes reach the save area at the region's offset: R265 gives them no layout, so they
are free values (log 13). -/
def State.writeSaved (s : State) (q off n : Nat) : State :=
  let base := fld (s.prt q).fsave 51 20 * 2 ^ 20 + off
  let (l, s) := s.freeBytes n
  s.prtStore q base (n / 64 + 1) l

/-- FABRIC_PAGE_FAULT_SCANOUT (R265): once every memory request of the region has replied, its state lies
in the save area at the lowest free offset, its record is written with SAVED, and its sites are free. -/
def execFabricPageFaultScanout (q sl : Nat) (s : State) : Host.Outcome State Fault Refusal :=
  let r := s.region q sl
  .next (
    if r.clock ≠ 2 ∨ r.savedAt.isSome then s
    else
      let s := s.landRequests q sl
      let r := s.region q sl
      match s.saveRoom q r with
      | none =>
        let s := s.writeFaults q sl r (fun c => if c = 10 then 4 else 0)
        (s.setRegion q sl { (s.region q sl).tellAll with clock := 1 }).pokeCtx q
      | some off =>
        let s := s.writeFaults q sl r (fun _ => 2)
        let s := s.setPrt q { s.prt q with saved := (s.prt q).saved ++ [(sl, off, r.blocks.length * saveBlock)] }
        let (cells, full) := s.tileCells q r
        (s.setRegion q sl { (s.region q sl).tellAll with
          savedAt := some off, tileMem := cells, tileFull := full }).pokeSites q |>.pokeCtx q
          |>.regionPorts q sl 3 r |>.writeSaved q off (r.blocks.length * saveBlock))

/-! ## Stream windows (R173) -/

/-- A stop of level `j`, or D (level 4), passes store generator `key`. -/
def State.windowPass (s : State) (q sl key j : Nat) : State :=
  let r := s.region q sl
  let hit (w : Window) : Bool := w.decl && 4 * w.site + w.gen == key && decide (w.level ≤ j)
  let s := s.setRegion q sl
    { r with wins := r.wins.map (fun (e : Nat × Window) => if hit e.2 then (e.1, { e.2 with due := e.2.due + 1 }) else e) }
  (r.wins.filter (fun e => hit e.2)).foldl (fun s e => s.post (.windowPublish q sl e.1)) s

/-- One publication: the stores are performed and visible with release semantics at PACKAGE scope,
and the counter increments. -/
def State.publish (s : State) (q sl w : Nat) : State :=
  let r := s.region q sl
  let x := r.wins.look {} w
  (s.setRegion q sl { r with wins := r.wins.put {} w { x with count := x.count + 1 } }).releaseAt
    (siteDie x.site) 4

/-- WINDOW_PUBLISH (R173). -/
def execWindowPublish (q sl w : Nat) (s : State) : Host.Outcome State Fault Refusal :=
  let r := s.region q sl
  let x := r.wins.look {} w
  .next (
    if x.due = 0 then s
    else ((s.setRegion q sl { r with wins := r.wins.put {} w { x with due := x.due - 1 } }).publish q sl w).poke
      (.hushSweep q sl))

/-! ## Generators (R161, R162, R443) -/

/-- The visits of a token of a load generator: m of them from i0 on. -/
def Gen.run (g : Gen) : Nat := Nat.min g.perTok (g.cnt 0 - g.i.1)

/-- Loads the elements of the next token. -/
def State.genLoad (s : State) (q : Nat) (r : Region) (key : Nat) (g : Gen) : UnitRes :=
  let seam := key / 4
  let die := siteDie seam
  let b := blockNo die (siteRow seam / 16) (siteCol (genEdge key).1 / 22)
  (List.range g.run).foldl (fun acc j =>
    match acc with
    | .ok x =>
      let va := g.addr (g.i.1 + j, g.i.2)
      let res := if g.cache then s.cacheLoad q r (tileSite b g.tile) g.extents va g.esize
        else s.unitLoad q die g.extents va g.esize
      (match res with
       | .ok y =>
         let w := if g.fmt = fITEM ∨ g.single then 64 else 8 * g.esize
         .ok (x + y * 2 ^ (w * j))
       | e => e)
    | e => e) (.ok 0)

/-- Of accesses at addresses `as`, those an extent translates before the first that misses, and that one:
they have used their extents (R163). -/
def State.reached (s : State) (q : Nat) (l : List Extent) (k : AccKind) (n : Nat) : List Nat → List Nat
  | [] => []
  | a :: r =>
    match s.unitLook q l k a n with
    | .miss _ => [a]
    | _ => a :: s.reached q l k n r

/-- The generator after the token of its next run. -/
def Gen.afterRun (g : Gen) : Gen :=
  let m := g.run
  let last := (g.i.1 + m - 1, g.i.2)
  let k := g.closes last
  let stop := if k = 0 then none else some (Nat.min (k - 1) (g.rank - 1))
  match g.next last with
  | some i => { g with i := i, stop := stop }
  | none => { g with done := true, stop := stop }

/-- The edge switch's room for a generator's token. -/
def Region.edgeRoom (r : Region) (key : Nat) : Bool :=
  let (e, d) := genEdge key
  let y := r.site e
  !(swDests y.cfg (srcOf d)).isEmpty && y.roomFor (srcOf d)

/-- A generator's token arrives at its edge switch from the seam direction (R442). -/
def State.genEmit (s : State) (q sl key : Nat) (r : Region) (g : Gen) (t : Token) : State :=
  let (e, d) := genEdge key
  let r := r.setGen key g
  let s := s.putSite q sl e r ((r.site e).deliver (srcOf d) t)
  s.pokes ([.generatorLoadEmit (key / 4) (key % 4)] ++ if g.rolled then [.siteSwap (key / 4)] else [])

/-- GENERATOR_LOAD_EMIT (R161, R162): the next token of the walk; a stop after each run it closes;
D after the last visit; ROLL behind D when the ROLL instruction named it (R185). -/
def execGeneratorLoadEmit (seam n : Nat) (s : State) : Host.Outcome State Fault Refusal :=
  let key := 4 * seam + n
  .next (
    match s.unitAt seam with
    | none => s
    | some (q, sl, r, _) =>
      let g := r.gen key
      if !g.isLoad ∨ g.flt.code ≠ 0 ∨ g.paused ∨ g.rolled ∨ !r.edgeRoom key then s
      else
        match g.stop with
        | some k => s.genEmit q sl key r { g with stop := none } (tokStop k)
        | none =>
          if g.done then
            if !g.dSent then s.genEmit q sl key r { g with dSent := true } tokDone
            else if g.rollReq then s.genEmit q sl key r { g with rollReq := false, rolled := true } tokRoll
            else s
          else
            match s.genLoad q r key g with
            | .ok x =>
              let m := g.run
              let lanes := if g.single then (if g.lanes = fmtLanes g.fmt then 0 else 1)
                else if m = g.perTok then 0 else if g.fmt = 6 then 2 * m else m
              let vas := if g.cache then [] else (List.range m).map (fun j => g.addr (g.i.1 + j, g.i.2))
              let s := s.unitTook q (siteDie seam) g.extents (vas.map (fun a => (a, g.esize)))
              s.genEmit q sl key r { g with extents := touchExtents g.extents vas }.afterRun (tokVal lanes x)
            | .wait (some (t, y)) =>
              s.putSite q sl t (r.setGen key { g with extents := touchExtents g.extents y.asked }) y
            | .wait none => s
            | .miss va =>
              let used := if g.cache then [] else
                s.reached q g.extents .load g.esize ((List.range g.run).map (fun j => g.addr (g.i.1 + j, g.i.2)))
              (s.setRegion q sl (r.setGen key { g with want := va + 1, extents := touchExtents g.extents used })).poke
                (.patchMiss seam n)
            | .fault c p => s.putGen q sl key r { g with flt := { code := c, poison := p } })

/-- The addresses of the next `m` visits and the generator after them; none past the walk. -/
def Gen.visits (g : Gen) : Nat → Option (List Nat × Gen)
  | 0 => some ([], g)
  | m + 1 =>
    if g.done then none
    else
      let a := g.addr g.i
      let g' := match g.next g.i with | some i => { g with i := i } | none => { g with done := true }
      match g'.visits m with
      | some (l, g'') => some (a :: l, g'')
      | none => none

/-- Translates every visit of a store. -/
def State.genLooks (s : State) (q : Nat) (g : Gen) : List Nat → Except UnitLook (List (List Part))
  | [] => .ok []
  | a :: r =>
    match s.unitLook q g.extents .store a g.esize with
    | .ok ps =>
      match s.genLooks q g r with
      | .ok l => .ok (ps :: l)
      | .error e => .error e
    | e => .error e

/-- GENERATOR_STORE_WRITE (R161): the valid lanes of a value token go to the next visits; a stop or D
publishes windows; USER codes are absorbed; ROLL is taken (R185). -/
def execGeneratorStoreWrite (seam n : Nat) (s : State) : Host.Outcome State Fault Refusal :=
  let key := 4 * seam + n
  .next (
    match s.unitAt seam with
    | none => s
    | some (q, sl, r, _) =>
      let g := r.gen key
      if !g.isStore ∨ g.flt.code ≠ 0 ∨ g.paused ∨ g.rolled then s
      else
        match g.inbox with
        | [] => s
        | t :: rest =>
          let g' := { g with inbox := rest }
          if t.isValue then
            let lanes := if g.single then 1 else if t.lanes = 0 then fmtLanes g.fmt else t.lanes
            let m := if g.fmt = 6 then (lanes + 1) / 2 else lanes
            match g'.visits m with
            | none => s.putGen q sl key r { g with flt := { code := 8 } }
            | some (as, g'') =>
              match s.genLooks q g as with
              | .error (.miss va) =>
                (s.setRegion q sl (r.setGen key { g with
                  want := va + 1
                  extents := touchExtents g.extents (s.reached q g.extents .store g.esize as) })).poke
                  (.patchMiss seam n)
              | .error (.fault c p) => s.putGen q sl key r { g with flt := { code := c, poison := p } }
              | .error (.ok _) => s
              | .ok pss =>
                let w := if g.fmt = fITEM then 64 else 8 * g.esize
                let s := (pss.zipIdx).foldl (fun s e =>
                  s.fabWrite (siteDie seam) e.1 (t.payload.toNat / 2 ^ (w * e.2) % 256 ^ g.esize)) s
                s.putGen q sl key r { g'' with extents := touchExtents g.extents as }
          else if t.isStop then (s.putGen q sl key r g').windowPass q sl key t.level
          else if t.isDone then (s.putGen q sl key r { g' with dSent := true }).windowPass q sl key 4
          else s.putGen q sl key r { g' with rolled := t.isRoll })

end Sys2Proof.Machine
end

