-- ==== Sys2Proof/Machine/FabFibre.lean ====
section
/-!
DEFINITION. Fibre units (06 R160, 15 R433 to R439).
-/

namespace Sys2Proof.Machine

open Sys2Proof

/-- What one step of a fibre unit does: nothing; tokens on out0 and out1, flags and writes of 4-byte
words; a wait for a cache line; a patch miss; or a fault with its port. -/
inductive FStep where
  | idle
  | go (x : Site) (outs : List (Nat × Token)) (flags : FP.Flags) (writes : List (Nat × Nat))
      (reads : List (Nat × Nat) := [])
  | wait (tile : Option (Nat × Site))
  /-- The address no extent covers, and the reads before it, whose extents the step has used. -/
  | miss (va : Nat) (used : List Nat)
  | fail (code port : Nat) (poison : Bool)

def absent : Nat := 0xFFFFFFFF

def tokItem (x : Nat) : Token := tokVal 0 (x % 2 ^ 32)
/-- A pair: coordinate in lane 0, reference in lane 1 (R433). -/
def tokPair (c k : Nat) : Token := tokVal 0 (c % 2 ^ 32 + k % 2 ^ 32 * 2 ^ 32)

/-- Ports a function reads (R434). -/
def SiteCfg.fPorts (c : SiteCfg) : List Nat :=
  match c.func with
  | 1 | 2 => if c.fRoot then [] else [0]
  | 3 | 4 | 5 => [0, 1]
  | _ => [0]

/-- Outputs a function has. -/
def SiteCfg.fOuts (c : SiteCfg) : List Nat :=
  match c.func with | 1 | 2 | 3 | 4 => [0, 1] | _ => [0]

/-- A token on every output. -/
def onOuts (c : SiteCfg) (t : Token) : List (Nat × Token) := c.fOuts.map (fun o => (o, t.plain))

/-- A unit's read at `va`, through its CACHE tile when the word says so. -/
def State.fibreLoad (s : State) (q : Nat) (r : Region) (i : Nat) (x : Site) (va n : Nat) : UnitRes :=
  let va := va % 2 ^ 64
  if x.cfg.fCache then
    match siteBlock i with
    | some b => s.cacheLoad q r (tileSite b x.cfg.fTile) x.extents va n
    | none => s.unitLoad q (siteDie i) x.extents va n
  else s.unitLoad q (siteDie i) x.extents va n

/-- Reads `n` bytes at `va` and continues with the value; the step keeps what it read. -/
def State.withLoad (s : State) (q : Nat) (r : Region) (i : Nat) (x : Site) (va n : Nat) (k : Nat → FStep) :
    FStep :=
  match s.fibreLoad q r i x va n with
  | .ok v =>
    match k v with
    | .go y o f w l => .go y o f w ((va % 2 ^ 64, n) :: l)
    | .miss v l => .miss v (va % 2 ^ 64 :: l)
    | e => e
  | .wait t => .wait t
  | .miss v => .miss v [va % 2 ^ 64]
  | .fault c p => .fail c 0 p

/-- The segment of one reference is under way: the next coordinate, or its end (R435). -/
def State.scanNext (s : State) (q : Nat) (r : Region) (i : Nat) (x : Site) (p : Nat) : FStep :=
  let c := x.cfg
  if x.cur < x.cur2 then
    let out (co k : Nat) : List (Nat × Token) :=
      [(0, if c.fPair then tokPair co k else tokItem co), (1, tokItem k)]
    let y := { x with cur := x.cur + 1 }
    if c.func = 1 then
      s.withLoad q r i x (c.base1.toNat + 4 * x.cur) 4 (fun co => .go y (out co x.cur) 0 [])
    else
      let k := p * c.w1.toNat + x.cur
      if 2 ^ 32 ≤ k then .fail 8 0 false else .go y (out x.cur k) 0 []
  else .go { (if c.fRoot then { x with count := 2 } else x.pop 0) with haveX := false, flagX := !c.fRoot } [] 0 []

/-- A reference opens its segment (R435). -/
def State.scanStart (s : State) (q : Nat) (r : Region) (i : Nat) (x : Site) (p : Nat) : FStep :=
  let c := x.cfg
  if c.func = 1 then
    s.withLoad q r i x (c.base0.toNat + 4 * p) 4 (fun lo =>
      s.withLoad q r i x (c.base0.toNat + 4 * (p + 1)) 4 (fun hi =>
        if hi < lo then .fail 8 0 false
        else .go { x with haveX := true, cur := lo, cur2 := hi } [] 0 []))
  else .go { x with haveX := true, cur := 0, cur2 := c.w1.toNat } [] 0 []

/-- SCAN.C and SCAN.D (R435). -/
def State.fScan (s : State) (q : Nat) (r : Region) (i : Nat) (x : Site) : FStep :=
  let c := x.cfg
  if c.fRoot then
    if x.haveX then s.scanNext q r i x 0
    else
      match x.count with
      | 0 => s.scanStart q r i { x with count := 1 } 0
      | 2 => .go { x with count := 3 } (onOuts c (tokStop 0)) 0 []
      | 3 => .go { x with count := 4, finA := true } (onOuts c tokDone) 0 []
      | _ => .idle
  else
    match x.a with
    | [] => .idle
    | t :: _ =>
      if t.isCtl then .go (x.pop 0) (onOuts c t) 0 []
      else if t.isValue then
        if x.flagX then .go { x with flagX := false } (onOuts c (tokStop 0)) 0 []
        else
          let p := t.payload.toNat % 2 ^ 32
          if x.haveX then s.scanNext q r i x p else s.scanStart q r i x p
      else
        let y := { x.pop 0 with flagX := false }
        if t.isStop then .go y (onOuts c (tokStop (t.level + 1))) 0 []
        else .go { y with finA := true } (onOuts c tokDone) 0 []

/-- ISECT and UNION on two heads (R437). -/
def fMerge (x : Site) (t u : Token) : FStep :=
  let c := x.cfg
  let un := c.func == 4
  let co (t : Token) : Nat := lane 32 t.payload.toNat 0
  let rf (t : Token) : Nat := lane 32 t.payload.toNat 1
  let out (k ra rb : Nat) : List (Nat × Token) :=
    [(0, if c.fPair then tokPair k ra else tokItem ra), (1, tokItem rb)]
  let badA := t.isValue && (match x.prevA with | some p => decide (co t ≤ p) | none => false)
  let badB := u.isValue && (match x.prevB with | some p => decide (co u ≤ p) | none => false)
  let takeA (o : List (Nat × Token)) : FStep := .go { x.pop 0 with prevA := some (co t) } o 0 []
  let takeB (o : List (Nat × Token)) : FStep := .go { x.pop 1 with prevB := some (co u) } o 0 []
  let onlyA := if un then out (co t) (rf t) absent else []
  let onlyB := if un then out (co u) absent (rf u) else []
  if badA then .fail 9 0 false
  else if badB then .fail 9 1 false
  else if t.isValue && u.isValue then
    if co t = co u then
      .go { x.popAll [0, 1] with prevA := some (co t), prevB := some (co u) } (out (co t) (rf t) (rf u)) 0 []
    else if co t < co u then takeA onlyA
    else takeB onlyB
  else if t.isValue && u.isStop then takeA onlyA
  else if t.isStop && u.isValue then takeB onlyB
  else if t.cls = u.cls then
    .go { x.popAll [0, 1] with prevA := none, prevB := none, finA := t.isDone } (onOuts c t) 0 []
  else .fail 4 1 false

/-- REPEAT (R436): the head of B with the head of A; where they may not meet, ARITY names B's head (R262). -/
def fRepeat (x : Site) (u : Token) : FStep :=
  let c := x.cfg
  let out (y : Site) (k : Nat) : FStep := .go y [(0, tokItem k)] 0 []
  -- takes a value from A
  let take (k : Site → Nat → FStep) : FStep :=
    match x.a with
    | [] => .idle
    | t :: _ => if t.isValue then k (x.pop 0) (t.payload.toNat % 2 ^ 32) else .fail 4 1 false
  if u.isValue then
    if x.haveX then out (x.pop 1) x.cur
    else take (fun y k => out { y.pop 1 with haveX := true, cur := k } k)
  else if u.isStop then
    if c.fLevel ≤ u.level ∧ !x.haveX then take (fun y _ => .go (y.pop 1) [(0, u)] 0 [])
    else
      .go { x.pop 1 with haveX := x.haveX && decide (u.level < c.fLevel) } [(0, u)] 0 []
  else
    match x.a with
    | [] => .idle
    | t :: _ =>
      if t.isStop then .go (x.pop 0) [] 0 []
      else if t.isDone then .go { x.popAll [0, 1] with finA := true } [(0, tokDone)] 0 []
      else .fail 4 1 false

/-- A 2-input function: control tokens that are not ROLL pass at once. -/
def fTwo (x : Site) : FStep :=
  match x.a, x.b with
  | t :: _, u :: _ =>
    if t.isCtl then .go (x.pop 0) (onOuts x.cfg t) 0 []
    else if u.isCtl then .go (x.pop 1) (onOuts x.cfg u) 0 []
    else if x.cfg.func = 5 then fRepeat x u
    else fMerge x t u
  | t :: _, [] => if t.isCtl && !t.isRoll then .go (x.pop 0) (onOuts x.cfg t) 0 [] else .idle
  | [], u :: _ =>
    if u.isCtl && !u.isRoll then .go (x.pop 1) (onOuts x.cfg u) 0 []
    else if x.cfg.func = 5 && !u.isRoll then fRepeat x u
    else .idle
  | [], [] => .idle

/-- REDUCE's identity (R438). -/
def redIdentity (f rop : Nat) : Nat :=
  let w := fmtBits f
  let g := fmtOf f
  match rop with
  | 0 => 0
  | 1 => if g.isFloat then FP.infMag g else if fmtUnsigned f then 2 ^ w - 1 else 2 ^ (w - 1) - 1
  | _ => if g.isFloat then FP.withSign g true (FP.infMag g) else if fmtUnsigned f then 0 else 2 ^ (w - 1)

/-- REDUCE's fold step. E4M3 has no infinity: its identities are its largest values (log 23). -/
def redStep (f rop : Nat) (rm : Rm) (sat : Bool) (acc x : Nat) : Nat × FP.Flags :=
  let w := fmtBits f
  let g := fmtOf f
  let u := fmtUnsigned f
  if g.isFloat then
    match rop with
    | 0 => FP.add g rm acc x
    | 1 => FP.minmax g false acc x
    | _ => FP.minmax g true acc x
  else
    let a := laneInt w u acc
    let b := laneInt w u x
    match rop with
    | 0 => (intRes w sat u (a + b), 0)
    | 1 => (if b < a then x else acc, 0)
    | _ => (if a < b then x else acc, 0)

def redStart (f rop : Nat) : Nat :=
  if f = 4 ∧ rop = 1 then FP.maxMag .e4m3
  else if f = 4 ∧ rop = 2 then FP.withSign .e4m3 true (FP.maxMag .e4m3)
  else redIdentity f rop

/-- REDUCE (R438): a stop at LEVEL or above gives the sum, then the stop that remains. -/
def fReduce (x : Site) : FStep :=
  let c := x.cfg
  let f := c.fVfmt
  match x.a with
  | [] => .idle
  | t :: _ =>
    let acc := if x.flagX then x.acc.toNat else redStart f c.fRop
    if t.isCtl then .go (x.pop 0) (onOuts c t) 0 []
    else if t.isValue then
      let r := redStep f c.fRop c.fRm c.fSat acc (t.payload.toNat % 2 ^ fmtBits f)
      .go { x.pop 0 with acc := BitVec.ofNat 64 r.1, flagX := true } [] r.2 []
    else if t.isStop then
      if t.level < c.fLevel then .go (x.pop 0) [] 0 []
      else if !x.haveX ∧ c.fLevel < t.level then
        .go { x with haveX := true, acc := 0, flagX := false } [(0, elemTok f acc)] 0 []
      else if x.haveX then
        .go { x.pop 0 with haveX := false } [(0, tokStop (t.level - c.fLevel - 1))] 0 []
      else .go { x.pop 0 with acc := 0, flagX := false } [(0, elemTok f acc)] 0 []
    else .go { x.pop 0 with finA := true } [(0, tokDone)] 0 []

/-- LOOKUP (R438). -/
def State.fLookup (s : State) (q : Nat) (r : Region) (i : Nat) (x : Site) : FStep :=
  let c := x.cfg
  match x.a with
  | [] => .idle
  | t :: _ =>
    if t.isValue then
      let k := t.payload.toNat % 2 ^ 32
      if k = absent then .go (x.pop 0) [(0, elemTok c.fVfmt 0)] 0 []
      else
        s.withLoad q r i x (c.base0.toNat + k * elBytes c.fVfmt) (elBytes c.fVfmt) (fun v => .go (x.pop 0) [(0, elemTok c.fVfmt v)] 0 [])
    else .go { x.pop 0 with finA := x.finA || t.isDone } [(0, t.plain)] 0 []

/-- BUILD (R439). `cur` is n and `cur2` is f. -/
def fBuild (x : Site) : FStep :=
  let c := x.cfg
  let pos (f : Nat) : Nat := (c.base0.toNat + 4 * f) % 2 ^ 64
  let crd (n : Nat) : Nat := (c.base1.toNat + 4 * n) % 2 ^ 64
  match x.a with
  | [] => .idle
  | t :: _ =>
    if !x.flagX then .go { x with flagX := true } [] 0 [(pos 0, 0)]
    else if t.isValue then
      let co := t.payload.toNat % 2 ^ 32
      if (match x.prevA with | some p => decide (co ≤ p) | none => false) then .fail 9 0 false
      else .go { x.pop 0 with cur := x.cur + 1, prevA := some co } [(0, tokItem x.cur)] 0 [(crd x.cur, co)]
    else if t.isStop then
      .go { x.pop 0 with cur2 := x.cur2 + 1, prevA := none } [(0, t)] 0 [(pos (x.cur2 + 1), x.cur)]
    else .go { x.pop 0 with finA := x.finA || t.isDone } [(0, t.plain)] 0 []

def State.fibreStep (s : State) (q : Nat) (r : Region) (i : Nat) (x : Site) : FStep :=
  match x.cfg.func with
  | 1 | 2 => s.fScan q r i x
  | 3 | 4 | 5 => fTwo x
  | 6 => fReduce x
  | 7 => s.fLookup q r i x
  | _ => fBuild x

/-- Fibre units that read memory, named by ROLL as source sites (R185). -/
def SiteCfg.readsMemory (c : SiteCfg) : Bool := c.kind == 3 && (c.func == 1 || c.func == 7)

/-- ROLL at a fibre unit: behind D when it was named, else once ROLL heads every input (R185). -/
def fRoll (x : Site) : Option (Except Nat Site) :=
  if x.rollReq ∧ x.finA then some (.ok { x with rollReq := false, rolled := true })
  else
    match rollState x x.cfg.fPorts with
    | some (.ok _) => some (.ok { x.popAll x.cfg.fPorts with rolled := true, rollReq := false })
    | some (.error p) => some (.error p)
    | none => none

/-- Every word of a unit's writes, translated. -/
def State.fibreLooks (s : State) (q : Nat) (l : List Extent) :
    List (Nat × Nat) → Except UnitLook (List (List Part × Nat))
  | [] => .ok []
  | (va, v) :: r =>
    match s.unitLook q l .store va 4 with
    | .ok ps =>
      match s.fibreLooks q l r with
      | .ok t => .ok ((ps, v) :: t)
      | .error e => .error e
    | e => .error e

/-- FIBRE_UNIT_FIRE (R160, R434): one step of the unit's function. -/
def execFibreUnitFire (i : Nat) (s : State) : Host.Outcome State Fault Refusal :=
  .next (
    match s.unitAt i with
    | none => s
    | some (q, sl, r, x) =>
      if x.cfg.kind ≠ 3 ∨ x.flt.code ≠ 0 ∨ x.paused ∨ x.rolled ∨ !x.started then s
      else
        let emit (s : State) (y : Site) (outs : List (Nat × Token)) (fl : FP.Flags) : State :=
          s.putSite q sl i { r with flags := r.flags ||| fl, stall := false }
            (outs.foldl (fun y o => y.deliver (5 + o.1) o.2) y)
        let room (outs : List (Nat × Token)) : Bool := outs.all (fun o => x.roomFor (5 + o.1))
        -- An access that misses has used the extents of the pages before it (R163).
        let missed (va : Nat) (used : List Nat) : State :=
          let used := if x.cfg.fCache then [] else used
          (s.setRegion q sl (r.setSite i { x with want := va + 1, extents := touchExtents x.extents used })).poke
            (.patchMiss i 4)
        match fRoll x with
        | some (.error p) => s.putSite q sl i r (x.fail 4 p 0)
        | some (.ok y) => if room (onOuts x.cfg tokRoll) then emit s y (onOuts x.cfg tokRoll) 0 else s
        | none =>
          match s.fibreStep q r i x with
          | .idle => s
          | .wait none => s
          | .wait (some (t, y)) =>
            s.putSite q sl t (r.setSite i { x with extents := touchExtents x.extents y.asked }) y
          | .miss va used => missed va used
          | .fail c p poison =>
            let y := x.fail c p 0
            s.putSite q sl i r { y with flt := { y.flt with poison := poison } }
          | .go y outs fl ws reads =>
            if !room outs then s
            else
              match s.fibreLooks q x.extents ws with
              | .error (.miss va) => missed va (reads.map (·.1) ++ ws.map (·.1))
              | .error (.fault c p) =>
                let y := x.fail c 0 0
                s.putSite q sl i r { y with flt := { y.flt with poison := p } }
              | .error (.ok _) => s
              | .ok l =>
                let reads := if x.cfg.fCache then [] else reads
                let s := s.unitTook q (siteDie i) x.extents reads
                let y := { y with extents := touchExtents x.extents (reads.map (·.1) ++ ws.map (·.1)) }
                emit (l.foldl (fun s e => s.fabWrite (siteDie i) e.1 e.2) s) y outs fl)

end Sys2Proof.Machine
end

