-- ==== Sys2Proof/Machine/FabFire.lean ====
section
/-!
DEFINITION. Firing of compute elements (06 R148 to R153, R165 to R168, 15 R425 to R432).
-/

namespace Sys2Proof.Machine

open Sys2Proof

/-- What a firing does: nothing; a fault of a code with a port and an active word; or the site with
its ports popped, the entries its results make, flags, other sites, an RMW on a tile and a request
to the column's transcendental unit. -/
inductive Firing where
  | idle
  | fail (code port act : Nat)
  | go (x : Site) (entries : List (List (Nat × Token))) (flags : FP.Flags)
      (others : List (Nat × Site)) (rmw : Option (Nat × Nat × Nat)) (req : Option Token)

/-! ## The element's firing state -/

/-- The outputs a stop, done or control token goes to (R425). -/
def SiteCfg.mask (c : SiteCfg) : List Nat :=
  (if c.out0 then [0] else []) ++ (if c.out1 || c.esc then [1] else [])

def onMask (c : SiteCfg) (t : Token) : List (List (Nat × Token)) :=
  match c.mask with | [] => [] | l => [l.map (fun o => (o, t.plain))]

/-- A value goes to the outputs of DEST alone: out1 of an escape stream carries escaped tokens (R168). -/
def onDest (c : SiteCfg) (t : Token) : List (List (Nat × Token)) :=
  match (if c.out0 then [0] else []) ++ (if c.out1 then [1] else []) with
  | [] => []
  | l => [l.map (fun o => (o, t.plain))]

/-- All used ports and outputs share one packing (R424). -/
def SiteCfg.single (c : SiteCfg) : Bool :=
  match c.usedPorts with
  | p :: _ => dSingle (c.portDesc p)
  | [] => dSingle (if c.out0 then c.o0 else c.o1)

def SiteCfg.outSingle (c : SiteCfg) : Bool := dSingle (if c.out0 then c.o0 else c.o1)

/-- LANES of a value an element makes of itself: every lane, or one on a SINGLE output. -/
def ownLanes (c : SiteCfg) : Nat := if c.outSingle then 1 else 0

/-- The token of a value an element makes of itself: on a SINGLE output only lane 0 is kept (R143). -/
def SiteCfg.ownTok (c : SiteCfg) (x : Nat) : Token :=
  let f := dFmt (if c.out0 then c.o0 else c.o1)
  tokVal (ownLanes c) (if c.outSingle then x % 2 ^ fmtBits f else x)

abbrev Regs := W64 × W64 × W64

def Site.regs (x : Site) : Regs := (x.e0, x.e1, x.e2)
def Site.setRegs (x : Site) (r : Regs) : Site := { x with e0 := r.1, e1 := r.2.1, e2 := r.2.2 }
def regGet (r : Regs) (i : Nat) : W64 := if i = 0 then r.1 else if i = 1 then r.2.1 else r.2.2
def regSet (r : Regs) (i : Nat) (v : W64) : Regs :=
  if i = 0 then (v, r.2) else if i = 1 then (r.1, v, r.2.2) else (r.1, r.2.1, v)

/-- The site of copy `k` of a replicated operator (R153); copy 0 is the configured site. -/
def Region.copySite (r : Region) (i k : Nat) : Nat :=
  if k = 0 then i
  else match r.sites.find? (fun e => e.2.cfg.copyOf == some (i, k)) with
    | some e => e.1
    | none => i

/-- The registers of the copy that firing `x.count` is dealt to. -/
def Region.dealt (r : Region) (i : Nat) (x : Site) : Nat := r.copySite i (x.count % oRep x.cfg.op)

def Region.copyRegs (r : Region) (i j : Nat) (x : Site) : Regs :=
  if j = i then x.regs else (r.site j).regs

/-- Writes the registers of copy site `j`: in the firing site itself, or beside it. -/
def Region.withRegs (r : Region) (i j : Nat) (x : Site) (g : Regs) : Site × List (Nat × Site) :=
  if j = i then (x.setRegs g, []) else (x, [(j, (r.site j).setRegs g)])

/-- What pad mode puts at port `p` for an operation word (R149). -/
def padLanes (c : SiteCfg) (w : W32) (p : Nat) : Nat :=
  let ty := oType w
  allLanes (tyBits ty) (padIdentity (oOp w) ty (fmtUnsigned (dFmt (c.portDesc p))))

/-- The operand of a source code (R300). `pad` replaces a port's token in pad mode (R149). -/
def opndOf (c : SiteCfg) (heads : List (Nat × Token)) (g : Regs) (pad : Option (Nat × Nat)) (code : Nat) :
    Opnd :=
  if code < 3 then
    let u := fmtUnsigned (dFmt (c.portDesc code))
    match pad with
    | some (p, v) => if p = code then ⟨v, none, u⟩
      else match heads.find? (fun h => h.1 == code) with
        | some h => ⟨h.2.payload.toNat, some h.2.lanes, u⟩
        | none => ⟨0, none, u⟩
    | none =>
      match heads.find? (fun h => h.1 == code) with
      | some h => ⟨h.2.payload.toNat, some h.2.lanes, u⟩
      | none => ⟨0, none, u⟩
  else if code < 6 then ⟨(regGet g (code - 3)).toNat, none, false⟩
  else if code = 6 then
    let ty := oType c.op
    ⟨allLanes (tyBits ty) (kConst ty (dKval c.pc)), none, false⟩
  else ⟨0, none, false⟩

/-- SCALE's exponent from K is the raw KVAL in every lane (R423). -/
def scaleK (c : SiteCfg) : Opnd :=
  let w := tyBits (oType c.op)
  ⟨allLanes w (FP.wrapInt w (dKval c.pc)), none, false⟩

/-! ## Value operations and chains (R425 to R427) -/

/-- What a chain has made so far: registers, outputs, flags; or an escape or trap at a word. -/
inductive ChainRes where
  | ok (g : Regs) (outs : List (Nat × Token)) (flags : FP.Flags)
  | special (sv word : Nat)

/-- Whether a word's operands hold a special value of the first word's SV in a valid lane (R168). DOT2's
products and its addend count their valid lanes apart: they have different widths. -/
def wordSpecial (c : SiteCfg) (w : W32) (n : Nat) (a b : Opnd) (d : Option Opnd) : Bool :=
  let sv := oSv c.op
  let n := if oOp w = 0x11 then (spanOf (64 / tyBits (oType c.op)) c.single [a, b]).n else n
  let nc (o : Opnd) : Nat := match o.cnt with
    | none => (n + 1) / 2
    | some k => if k = 0 then 64 / fmtBits (resFmt (oOp w) (oType c.op)) else k
  let ty := oType c.op
  let op := oOp w
  let f := fmtOf (tyFmt ty)
  sv != 0 && checksSv op && tyFloat ty &&
    (special f sv n a.x || (oSB w != 7 && op != 0x13 && special f sv n b.x) ||
      (match d with
       | some o => if op = 0x11 then special (fmtOf (resFmt op ty)) sv (nc o) o.x
         else op == 0x04 && special f sv n o.x
       | none => false))

/-- Runs the words of a chain in order. -/
def runChain (c : SiteCfg) (heads : List (Nat × Token)) (pad : Option Nat) (sp : Span) :
    Nat → List W32 → Regs → List (Nat × Token) → FP.Flags → ChainRes
  | _, [], g, outs, fl => .ok g outs fl
  | j, w :: ws, g, outs, fl =>
    let op := oOp w
    let ty := oType w
    let get := opndOf c heads g (pad.map (fun p => (p, padLanes c w p)))
    let a := get (oSA w)
    let b := if op = 0x13 ∧ oSB w = 6 then scaleK c else get (oSB w)
    let third := op == 0x04 || op == 0x0B || op == 0x11 || op == 0x12
    let d := if third ∧ oSC w ≠ 7 then some (get (oSC w)) else none
    if wordSpecial c w sp.n a b d then .special (oSv c.op) j
    else
      let (v, lanes, f) :=
        if op = 0x11 ∨ op = 0x12 then dotWord op ty (dRm c.pa) c.single a b d
        else elemWord op ty (c.modOf j) (dRm c.pa) sp a b (d.getD ⟨0, none, false⟩)
      let t := tokVal lanes v
      let outs := outs ++ (if oOut0 w then [(0, t)] else []) ++ (if oOut1 w then [(1, t)] else [])
      let g := if oReg w then regSet g (oDestReg w) (BitVec.ofNat 64 v) else g
      runChain c heads pad sp (j + 1) ws g outs (fl ||| f)

/-- The token an escaping firing emits in the result's place (R168). -/
def escToken (heads : List (Nat × Token)) (g : Regs) (c : SiteCfg) : Token :=
  match heads.find? (fun h => h.1 == 0) with
  | some h => h.2.ticket
  | none =>
    match heads with
    | h :: _ => h.2.ticket
    | [] => (c.ownTok (opndOf c heads g none (oSA c.op)).x).ticket

/-- The lanes of a firing of value tokens. -/
def firingSpan (c : SiteCfg) (heads : List (Nat × Token)) : Span :=
  spanOf (64 / tyBits (oType c.op)) c.single (heads.map (fun h => ⟨0, some h.2.lanes, false⟩))

/-- A value firing of a chain; `pops` are the ports it consumes. -/
def Region.fireChain (r : Region) (i : Nat) (x : Site) (heads : List (Nat × Token))
    (pad : Option Nat) (pops : List Nat) : Firing :=
  let c := x.cfg
  let j := r.dealt i x
  let g := r.copyRegs i j x
  let y := { x.popAll pops with count := x.count + 1 }
  match runChain c heads pad (firingSpan c heads) 0 c.ops g [] 0 with
  | .special sv w =>
    if sv = 3 then .fail 7 0 w
    else .go y [[(if c.esc then 1 else 0, escToken heads g c)]] 0 [] none none
  | .ok g outs fl =>
    let (y, others) := r.withRegs i j y g
    .go y (if outs.isEmpty then [] else [outs]) fl others none none

/-! ## Accumulators (R429, R153) -/

/-- Folds the copies' partials in copy order and clears them. -/
def Region.flush (r : Region) (i : Nat) (x : Site) : Nat × Site × List (Nat × Site) × FP.Flags :=
  let c := x.cfg
  let w := c.op
  let ty := oType w
  let k := oDestReg w
  let uns := fmtUnsigned (dFmt c.pa)
  let js := (List.range (oRep w)).map (r.copySite i)
  let parts := js.map (fun j => (regGet (r.copyRegs i j x) k).toNat)
  let step (t : Nat × FP.Flags) (v : Nat) : Nat × FP.Flags :=
    if oOp w = 0x1C then ((t.1 + v) % 2 ^ tyBits ty, t.2)
    else
      let z := accToken ty (dRm c.pa) (bitAt c.o0 21) uns (64 / tyBits ty) t.1 v
      (z.1, t.2 ||| z.2)
  let sum := match parts with
    | [] => (0, 0)
    | v :: rest => rest.foldl step (v, 0)
  let y := x.setRegs (regSet x.regs k 0)
  let others := (js.filter (· != i)).map (fun j => (j, (r.site j).setRegs (regSet (r.site j).regs k 0)))
  (sum.1, y, others, sum.2)

/-- The smaller of two LANES counts, 0 standing for every lane (R143). -/
def minLanes (a b : Nat) : Nat := if a = 0 then b else if b = 0 then a else Nat.min a b

/-- ACC and COUNT on a value. -/
def Region.fireAcc (r : Region) (i : Nat) (x : Site) (t : Token) : Firing :=
  let c := x.cfg
  let w := c.op
  let ty := oType w
  let j := r.dealt i x
  let g := r.copyRegs i j x
  let k := oDestReg w
  let e := (regGet g k).toNat
  let sp := spanOf (64 / tyBits ty) c.single [⟨0, some t.lanes, false⟩]
  let v := if oOp w = 0x1C then ((e + 1) % 2 ^ tyBits ty, 0)
    else accToken ty (dRm c.pa) (bitAt c.o0 21) (fmtUnsigned (dFmt c.pa)) sp.n e t.payload.toNat
  let (y, others) := r.withRegs i j { x.pop 0 with count := x.count + 1, lanes := minLanes x.lanes t.lanes }
    (regSet g k (BitVec.ofNat 64 v.1))
  .go y [] v.2 others none none

/-- ACC and COUNT on a stop S_k: the value, with the LANES of the fibre's values (R449), and the stop when k
reaches the flush level. -/
def Region.fireAccStop (r : Region) (i : Nat) (x : Site) (t : Token) : Firing :=
  let c := x.cfg
  if t.level < c.modOf 0 % 4 then .go (x.pop 0) [] 0 [] none none
  else
    let (v, y, others, fl) := r.flush i x
    let n := if oOp c.op = 0x1C then (if tyBits (oType c.op) < 64 then 1 else 0)
      else if c.outSingle then 1 else x.lanes
    let v := if n = 0 then v else v % 2 ^ (n * tyBits (oType c.op))
    .go { y.pop 0 with lanes := 0 } (onDest c (tokVal n v) ++ onMask c t) fl others none none

/-! ## Stream operations (R428, R430, R432) -/

/-- Lane 0 of port B is non-zero (STEER, GATE). -/
def lane0 (c : SiteCfg) (t : Token) : Bool :=
  let w := if dFmt c.pb = fITEM then 32 else fmtBits (dFmt c.pb)
  t.payload.toNat % 2 ^ w != 0

/-- CVT on a value (R432). -/
def fireCvt (x : Site) (t : Token) (scale : Option Token) : Firing :=
  let c := x.cfg
  let f := dFmt c.pa
  let g := dFmt c.o0
  let n := if dSingle c.pa then 1 else if t.lanes = 0 then fmtLanes f else t.lanes
  let sv := oSv c.op
  if sv ≠ 0 ∧ (fmtOf f).isFloat ∧ f ≠ 6 ∧ special (fmtOf f) sv n t.payload.toNat then
    if sv = 3 then .fail 7 0 0
    else .go (x.pop 0) [[(if c.esc then 1 else 0, t.ticket)]] 0 [] none none
  else
    let r := cvtToken f g (dRm c.pa) (dSat c.pa) (dSingle c.o0) n t.payload.toNat
      (scale.map (fun u => u.payload.toNat % 256))
    let y := x.pop 0
    let y := if f = 6 then (if x.flagX then { y.pop 2 with flagX := false } else { y with flagX := true })
      else y
    .go y (r.1.flatMap (fun e => onDest c (tokVal e.1 e.2))) r.2 [] none none

/-- The column's request queue of a block row holds 8 (R165). -/
def transCap : Nat := 8

def State.transRoom (s : State) (i : Nat) : Bool :=
  decide ((((s.trans.look {} (siteX i)).wait.look [] (siteRow i / 16)).length) < transCap)

/-- LANES of a CONST: the trigger's count, which R449 shows, where the output format can carry it. -/
def constLanes (c : SiteCfg) (t : Token) : Nat :=
  if c.outSingle then 1
  else if t.lanes ≤ fmtLanes (tyFmt (oType c.op)) then t.lanes else 0

/-- Values at every used input. -/
def State.fireValue (s : State) (q : Nat) (r : Region) (i : Nat) (x : Site)
    (heads : List (Nat × Token)) : Firing :=
  let c := x.cfg
  let w := c.op
  let ps := heads.map (·.1)
  let t := (heads.headD (0, tokVal 0 0)).2
  let u := (heads.getD 1 (1, tokVal 0 0)).2
  let y := x.popAll ps
  let emit (l : List (List (Nat × Token))) : Firing := .go y l 0 [] none none
  match oOp w with
  | 0x05 | 0x1C => r.fireAcc i x t
  | 0x10 => fireCvt x t (if 1 < heads.length then some u else none)
  | 0x14 =>
    let n := constLanes c t
    let v := allLanes (tyBits (oType w)) (kConst (oType w) (dKval c.pc))
    emit (onDest c (tokVal n (if n = 0 then v else v % 2 ^ (n * tyBits (oType w)))))
  | 0x15 | 0x16 => emit (onDest c t)
  | 0x18 => emit [[(0, t.plain), (1, u.plain)]]
  | 0x19 => emit [[(if lane0 c u then 0 else 1, t.plain)]]
  | 0x1A => emit (if lane0 c u then [[(0, t.plain)]] else [])
  | 0x1B => emit []
  | 0x1D =>
    let sp := firingSpan c heads
    let tok := match heads.find? (fun h => h.1 == oSA w) with
      | some h => h.2
      | none =>
        let v := (opndOf c heads x.regs none (oSA w)).x
        -- Lanes past the count carry zero (R143).
        tokVal sp.tag (if sp.tag = 0 then v else v % 2 ^ (sp.n * tyBits (oType w)))
    if oSv w ≠ 0 ∧ special (fmtOf (tyFmt (oType w))) (oSv w) sp.n tok.payload.toNat then
      if oSv w = 3 then .fail 7 0 0 else emit [[(if c.esc then 1 else 0, tok.ticket)]]
    else if s.transRoom i then .go y [[]] 0 [] none (some tok)
    else .idle
  | 0x1F => .go (y.setRegs (regSet y.regs (oDestReg w) t.payload)) [] 0 [] none none
  | 0x20 => emit (onDest c (c.ownTok (regGet x.regs (oSB w - 3)).toNat))
  | 0x21 =>
    match siteBlock i with
    | none => .idle
    | some b =>
      let ti := tileSite b (c.modOf 0 % 16)
      let tc := (r.site ti).cfg
      let a := t.payload.toNat % 2 ^ 32
      if s.tileOk q r.ctx (elBytes tc.tFmt) a then .go y [] 0 [] (some (ti, a, u.payload.toNat)) none
      else .fail 8 0 0
  | 0x22 => .go { y with count := x.count + 1 } [[(0, t.plain)]] 0 [] none none
  | 0x23 =>
    let n := c.modOf 0
    let pre := if x.flagX then [[(0, tokStop 0)]] else []
    let k := x.count + 1
    .go { y with count := if n ≤ k then 0 else k, flagX := decide (n ≤ k) }
      (pre ++ [[(0, t.plain)]]) 0 [] none none
  | _ => r.fireChain i x heads none ps

/-- The RMW element's tile emits old values (R431). -/
def Region.rmwRet (r : Region) (i : Nat) (c : SiteCfg) : Bool :=
  match siteBlock i with
  | some b => (r.site (tileSite b (c.modOf 0 % 16))).cfg.tRet
  | none => false

/-- One stop, done or control token at every used input (R148). -/
def Region.fireOther (r : Region) (i : Nat) (x : Site) (heads : List (Nat × Token)) : Firing :=
  let c := x.cfg
  let ps := heads.map (·.1)
  let t := (heads.headD (0, tokDone)).2
  let u := (heads.getD 1 (0, t)).2
  let y0 := x.popAll ps
  let y := { y0 with finA := x.finA || t.isDone, rolled := t.isRoll
                     count := if t.isDone then 0 else x.count }
  let copy := onMask c t
  match oOp c.op with
  | 0x05 | 0x1C => if t.isStop then r.fireAccStop i x t else .go y copy 0 [] none none
  | 0x18 => .go y [[(0, t.plain), (1, u.plain)]] 0 [] none none
  | 0x1B => .go y [] 0 [] none none
  | 0x21 => .go y (if r.rmwRet i c then [[(0, t.plain)]] else []) 0 [] none none
  | 0x22 =>
    if t.isStop then
      let f := dFmt c.o0
      let k := kFmt f (dKval c.pc)
      let v := if c.outSingle ∨ f = fITEM then k else allLanes (fmtBits f) k
      .go { y with count := 0 }
        (List.replicate (c.modOf 0 - x.count) [(0, tokVal (ownLanes c) v)] ++ [[(0, t.plain)]]) 0 [] none none
    else .go y copy 0 [] none none
  | 0x23 =>
    if t.isStop then .go { y with count := 0, flagX := false } [[(0, tokStop (t.level + 1))]] 0 [] none none
    else .go (if t.isDone then { y with flagX := false } else y) copy 0 [] none none
  | _ => .go y copy 0 [] none none

/-- The port whose head a firing's ARITY fault names: B then C, the first that differs (R262). -/
def arityPort (heads : List (Nat × Token)) : Nat :=
  match heads with
  | [] => 0
  | h :: rest =>
    match rest.find? (fun e => e.2.cls != h.2.cls) with
    | some e => e.1
    | none => h.1

/-- Pad mode (R149): the ports that hold the value and the stop. -/
def padFiring (c : SiteCfg) (heads : List (Nat × Token)) : Option (Nat × Nat) :=
  match heads with
  | [h, k] =>
    if dPad c.pa || dPad c.pb then
      if h.2.isValue && k.2.isStop then some (h.1, k.1)
      else if h.2.isStop && k.2.isValue then some (k.1, h.1)
      else none
    else none
  | _ => none

/-- MERGE (R152). State: 0 next A, 1 next B at a boundary; 2, 3 inside a fibre of A, B. -/
def fireMerge (x : Site) : Firing :=
  let c := x.cfg
  let h (p : Nat) : Option Token := (x.buf (p + 4)).head?
  let roll := [0, 1].map (fun p => match h p with | some t => t.isRoll | none => false)
  let other := [0, 1].map (fun p => match h p with | some t => !t.isRoll | none => false)
  if roll.any id && other.any id then .fail 4 1 0
  else if roll.all id then .go { x.popAll [0, 1] with rolled := true } (onMask c tokRoll) 0 [] none none
  else
    let done (p : Nat) : Bool := match h p with | some t => t.isDone | none => false
    if done 0 && done 1 then
      .go { x.popAll [0, 1] with finA := true, merge := 0 } (onMask c tokDone) 0 [] none none
    else
      let order := match x.merge with | 0 => [0, 1] | 1 => [1, 0] | 2 => [0] | _ => [1]
      match order.find? (fun p => match h p with | some t => !t.isDone && !t.isRoll | none => false) with
      | none => .idle
      | some p =>
        match h p with
        | none => .idle
        | some t =>
          let m := if t.isValue then 2 + p else if t.isStop then 1 - p else x.merge
          .go { x.pop p with merge := m } (onMask c t) 0 [] none none

/-! ## Escapes: the firing of an ESC element (R167, R170, R171) -/

/-- Tokens held beyond the tickets. -/
def Site.heldPasses (x : Site) : Nat :=
  (x.held.filter (fun e => match e with | .pass _ => true | .park _ => false)).length

def Site.freeTicket? (x : Site) : Option Nat :=
  (List.range (dPool x.cfg.pa)).find? (fun k => (x.tickets.look {} k).st == 0)

/-- ESCAPE_PARK (R167, R169): a ticket is taken and its generation rises. -/
def Site.park (x : Site) (k : Nat) (t : Token) (b : W64) : Site :=
  let old := x.tickets.look {} k
  { x with tickets := x.tickets.put {} k
             { gen := (old.gen + 1) % 2 ^ 16, st := 1, asked := false, tok := t, tokB := b, pos := x.count
               reply := [] }
           held := x.held ++ [.park k], count := x.count + 1 }

/-- An ESC element takes its heads: it parks or holds them; nothing is taken while no ticket is free,
all 16 places are taken, or the tokens of an earlier configuration have still to leave before a ROLL. ROLL
is taken as it enters the order, and leaves in its turn (R170, R185). -/
def fireEsc (x : Site) (heads : List (Nat × Token)) : Firing :=
  let c := x.cfg
  let ps := heads.map (·.1)
  let t := (heads.headD (0, tokDone)).2
  match x.freeTicket? with
  | none => .idle
  | some k =>
    if 16 ≤ x.heldPasses ∨ (t.isRoll ∧ x.old.isSome) then .idle
    else if heads.any (fun h => h.2.cls != t.cls) then .fail 4 (arityPort heads) 0
    else
      let y := x.popAll ps
      if t.isValue ∧ (!dTicketed c.pa ∨ t.ticketed) then
        .go (y.park k t ((heads.getD 1 (1, tokVal 0 0)).2.payload)) [] 0 [] none none
      else if t.isValue then
        .go { y with held := y.held ++ [.pass t.plain], count := y.count + 1 } [] 0 [] none none
      else .go { y with held := y.held ++ [.pass t.plain], rolled := t.isRoll } [] 0 [] none none

/-! ## ELEMENT_FIRE -/

/-- The heads of the used ports, when every one has a head. For a B4 source, port C's head is read
with port A's (R432). -/
def Site.heads? (x : Site) : Option (List (Nat × Token)) :=
  let ps := x.cfg.usedPorts
  let hs := ps.map (fun p => (p, (x.buf (p + 4)).head?))
  if hs.all (fun h => h.2.isSome) then
    some (hs.filterMap (fun h => h.2.map (fun t => (h.1, t))))
  else none

/-- An element with no used input (R148). -/
def State.fireFree (s : State) (q : Nat) (r : Region) (i : Nat) (x : Site) : Firing :=
  if x.rollReq then
    .go { x with rollReq := false, rolled := true } (onMask x.cfg tokRoll) 0 [] none none
  else s.fireValue q r i x []

/-- ROLL heads a used input while another token heads another (R186): the port ARITY names. -/
def Site.rollClash (x : Site) : Option Nat :=
  match rollState x x.cfg.usedPorts with
  | some (.error p) => some p
  | _ => none

def State.firing (s : State) (q : Nat) (r : Region) (i : Nat) (x : Site) : Firing :=
  let c := x.cfg
  if x.rollClash.isSome then .fail 4 (x.rollClash.getD 0) 0
  else if oOp c.op = 0x17 then fireMerge x
  else if c.usedPorts.isEmpty then s.fireFree q r i x
  else
    match x.heads? with
    | none => .idle
    | some heads =>
      if oOp c.op = 0x1E then fireEsc x heads
      else
        match heads with
        | [] => .idle
        | h :: rest =>
          if rest.all (fun e => e.2.cls == h.2.cls) then
            if h.2.isValue then s.fireValue q r i x heads else r.fireOther i x heads
          else
            match padFiring c heads with
            | some (v, k) => r.fireChain i x (heads.filter (fun e => e.1 == v)) (some k) [v]
            | none => .fail 4 (arityPort heads) 0

/-- Room on every output of the mask; an ESC element, RMW's old value and passed tokens need out0. -/
def Region.fireRoom (r : Region) (i : Nat) (x : Site) : Bool :=
  let c := x.cfg
  match oOp c.op with
  | 0x1E => true
  | 0x21 => !r.rmwRet i c || x.outRoom 0
  | _ => c.mask.all x.outRoom

/-- A request to the transcendental unit (R165). -/
def State.transAsk (s : State) (key i : Nat) (t : Token) : State :=
  let k := siteX i
  let u := s.trans.look {} k
  let b := siteRow i / 16
  ({ s with trans := s.trans.put {} k { u with wait := u.wait.put [] b (u.wait.look [] b ++ [TransReq.mk key i t]) } }).poke
    (.transGrant k)

/-- ELEMENT_FIRE (R148): one firing of a compute element whose inputs are present and whose outputs
have room. -/
def execElementFire (i : Nat) (s : State) : Host.Outcome State Fault Refusal :=
  .next (
    match s.unitAt i with
    | none => s
    | some (q, sl, r, x) =>
      if x.cfg.kind ≠ 1 ∨ x.cfg.copyOf ≠ none ∨ x.flt.code ≠ 0 ∨ x.rolled ∨ !x.started ∨
          (!r.fireRoom i x ∧ x.rollClash = none) ∨ (oOp x.cfg.op ≠ 0x1E ∧ !x.held.isEmpty) then s
      else
        match s.firing q r i x with
        | .idle => s
        | .fail c p act =>
          let y := x.fail c p 0
          s.putSite q sl i r { y with flt := { y.flt with act := act } }
        | .go y entries fl others rmw req =>
          let r := others.foldl (fun r e => r.setSite e.1 e.2) { r with flags := r.flags ||| fl, stall := false }
          let y := { y with res := y.res ++ entries }
          let s := match req with | some t => s.transAsk (rgnKey q sl) i t | none => s
          let s :=
            match rmw with
            | none => s.putSite q sl i r y
            | some (ti, a, v) =>
              let tc := (r.site ti).cfg
              let (old, s, f) := s.tileRmw q r.ctx ti tc a v
              let y := if tc.tRet ∧ tc.tRmw ≠ 5 then
                { y with res := y.res ++ [[(0, elemTok tc.tFmt old)]] } else y
              s.putSite q sl i { r with flags := r.flags ||| f } y
          if y.tickets.any (fun k => k.2.st == 1 && !k.2.asked) then s.poke (.escapeThreadStart i) else s)

end Sys2Proof.Machine
end

