-- ==== Sys2Proof/Machine/FabEsc.lean ====
section
/-!
DEFINITION. Transcendental units (06 R165, R166) and escapes (06 R167 to R172): the escape thread's
start, and the order in which an ESC element's tokens leave.
-/

namespace Sys2Proof.Machine

open Sys2Proof

/-! ## Transcendental units -/

/-- TRANS_GRANT (R165): round robin over the block rows with requests waiting; one is granted. -/
def execTransGrant (col : Nat) (s : State) : Host.Outcome State Fault Refusal :=
  let u := s.trans.look {} col
  let rows := (List.range 8).map (fun k => (u.next + k) % 8)
  .next (
    match rows.find? (fun b => !(u.wait.look [] b).isEmpty) with
    | none => s
    | some b =>
      match u.wait.look [] b with
      | [] => s
      | e :: rest =>
        let u := { u with wait := u.wait.put [] b rest, run := u.run ++ [e], next := (b + 1) % 8 }
        ({ s with trans := s.trans.put {} col u }.poke (.transGrant col) |>.poke (.transReply col)).poke
          (.elementFire e.site))

/-- Fills the oldest entry that awaits a reply. -/
def fillReply (l : List (Nat × Token)) : List (List (Nat × Token)) → List (List (Nat × Token))
  | [] => []
  | [] :: r => l :: r
  | e :: r => e :: fillReply l r

/-- TRANS_REPLY (R165, R166): every lane of the oldest granted token of a running region is computed,
and the reply returns to its element. -/
def execTransReply (col : Nat) (s : State) : Host.Outcome State Fault Refusal :=
  let u := s.trans.look {} col
  .next (
    match u.run.find? (fun e => s.regionRuns (e.key / 4096) (s.region (e.key / 4096) (e.key % 4096))) with
    | none => s
    | some e =>
      let q := e.key / 4096
      let sl := e.key % 4096
      let r := s.region q sl
      let x := r.site e.site
      let c := x.cfg
      let ty := oType c.op
      let sp := firingSpan c [(0, e.tok)]
      let v := mapLanes (tyBits ty) sp.n (fun k =>
        transLane (c.modOf 0 % 8) ty (lane (tyBits ty) e.tok.payload.toNat k))
      let outs := c.mask.filter (fun o => if o = 0 then c.out0 else c.out1)
      let y := { x with res := fillReply (outs.map (fun o => (o, tokVal sp.tag v.1))) x.res }
      let s := { s with trans := s.trans.put {} col { u with run := u.run.erase e } }
      (s.putSite q sl e.site { r with flags := r.flags ||| v.2 } y).poke (.transReply col))

/-! ## Escape threads (R169, R134) -/

/-- The swarm stripe next to the escape port of a site: the seam on its own side of the block. -/
def escStripe (i : Nat) : Nat :=
  let k := siteCol i / 22
  if (siteCol i % 22 < 8 ∧ k ≠ 0) ∨ k = 16 then k - 1 else k

/-- SITE word of the escape port (R28). -/
def escPortWord (pkg i : Nat) : W32 :=
  let k := siteCol i / 22
  let col := if (siteCol i % 22 < 8 ∧ k ≠ 0) ∨ k = 16 then 22 * (k - 1) + 21 else 22 * k + 16
  siteWord pkg (siteDie i) col (siteRow i / 16 * 16) 4

def dist (a b : Nat) : Nat := if a < b then b - a else a - b

/-- The cluster that serves escapes of a site for the partition. -/
def State.escCluster (s : State) (q i : Nat) : Option Nat :=
  let die := siteDie i
  let b := siteRow i / 16
  let k := escStripe i
  let near := 128 * die + 16 * b + k
  if s.ownsCluster q near && s.keepsCluster q near then some near
  else
    let all := ((s.cluOwn.filter (fun e => e.2.heldBy q)).map (·.1)).filter (s.keepsCluster q)
    let own := all.filter (fun m => clusterDie m == die)
    let cs := if own.isEmpty then all else own
    let key (m : Nat) : Nat :=
      (dist (clusterStripe m + 16 * clusterDie m) (k + 16 * die) * 16 + dist (clusterRow m) b) * 256 + m
    cs.foldl (fun (x : Option Nat) m =>
      match x with
      | none => some m
      | some n => if key m < key n then some m else some n) none

/-- The item at place `j` of an ESC element's order came before a ROLL that has been taken and has still
to leave. -/
def Site.itemOld (x : Site) (j : Nat) : Bool :=
  x.old.isSome &&
    !(x.held.take j).any (fun e => match e with | .pass t => t.isRoll | .park _ => false)

/-- The configuration an item belongs to. -/
def Site.itemCfg (x : Site) (j : Nat) : SiteCfg := if x.itemOld j then x.old.getD x.cfg else x.cfg

/-- The registers of the escape thread of a parked ticket (R169). -/
def escPacket (s : State) (q sl : Nat) (r : Region) (i k : Nat) (t : Ticket) : Packet :=
  let c := siteCol i % 22
  let word := k + (16 * (siteRow i % 16) + c) * 2 ^ 6 + t.gen * 2 ^ 16
  let x := r.site i
  let cfg := x.itemCfg (x.held.idxOf (.park k))
  let two := decide (1 < cfg.usedPorts.length)
  { kind := .escape, pc := cfg.handler
    regs := gRegs [(1, t.tok.payload.toNat), (2, if two then t.tokB.toNat else 0), (3, word),
      (4, (escPortWord s.pkg i).toNat), (5, t.tok.tag.toNat), (6, t.pos)]
    prio := ((s.prt q).launchRun.look {} sl).prio, prt := q, ctx := r.ctx, asid := r.asid, root := r.root
    lslot := sl, held := some ⟨q, sl, i, k, t.gen⟩ }

/-- ESCAPE_THREAD_START (R169, R134): the port starts the thread of the oldest unanswered ticket on a
core with a free slot, by round robin in the cluster, or queues it at the next core, or holds it
while that queue is full. -/
def execEscapeThreadStart (i : Nat) (s : State) : Host.Outcome State Fault Refusal :=
  .next (
    match (if s.clockOn (20 * siteDie i + 18) then s.regionAt i else none) with
    | none => s
    | some (q, sl, r) =>
      let x := r.site i
      let order := x.held.filterMap (fun e => match e with | .park k => some k | .pass _ => none)
      match order.find? (fun k => (x.tickets.look {} k).st == 1 && !(x.tickets.look {} k).asked) with
      | none => s
      | some k =>
        match s.escCluster q i with
        | none => s
        | some m =>
          let t := x.tickets.look {} k
          let cl := s.clu m
          let cores := (List.range 8).map (fun j => 8 * m + (cl.escNext + j) % 8)
          let pk := escPacket s q sl r i k t
          let asked (s : State) (next : Nat) : State :=
            let s := s.setClu m { s.clu m with escNext := next % 8 }
            let x := { x with tickets := x.tickets.put {} k { t with asked := true } }
            ((s.setRegion q sl (r.setSite i x)).unitAdd q sl).poke (.escapeThreadStart i)
          match cores.find? (fun c => (s.freeSlot c .escape).isSome) with
          | some c =>
            match s.freeSlot c .escape with
            | some j => (asked s (c + 1)).beginThread (16 * c + j) pk
            | none => s
          | none =>
            let c := 8 * m + cl.escNext % 8
            if 0 < s.room c then (asked s (c + 1)).enqueue c pk else s)

/-! ## The order of leaving (R170) -/

/-- A token that stands as a barrier in the order: a stop, done or control token. -/
def EscItem.barrier : EscItem → Bool
  | .pass t => !t.isValue
  | .park _ => false

/-- The place in `held` of the item that may leave now. -/
def Site.leaving (x : Site) : Option Nat :=
  let ready (e : EscItem) : Bool :=
    match e with
    | .pass _ => true
    | .park k => (x.tickets.look {} k).st == 2
  if !dUnordered (x.itemCfg 0).pa then
    match x.held with
    | e :: _ => if ready e then some 0 else none
    | [] => none
  else
    let n := (x.held.takeWhile (fun e => !e.barrier)).length
    let idx (f : EscItem → Bool) : Option Nat :=
      ((List.range n).find? (fun j => match x.held[j]? with | some e => f e | none => false))
    match idx (fun e => match e with | .pass _ => true | .park _ => false) with
    | some j => some j
    | none =>
      match x.replies.findSome? (fun k => idx (fun e => decide (e = .park k))) with
      | some j => some j
      | none => if n = 0 ∧ !x.held.isEmpty then some 0 else none

/-- ESCAPE_TOKEN_LEAVE (R170): the item that may leave does; a replied ticket is freed. -/
def execEscapeTokenLeave (i : Nat) (s : State) : Host.Outcome State Fault Refusal :=
  .next (
    match s.unitAt i with
    | none => s
    | some (q, sl, r, x) =>
      match x.leaving with
      | none => s
      | some j =>
        let c := x.itemCfg j
        -- Tokens of the configuration that took ROLL leave by its own switch words.
        let send (y : Site) (ts : List Token) : Option Site :=
          if x.itemOld j then
            if (swDests c 5).all (fun p => decide ((x.buf p).length + ts.length ≤ bufCap p)) then
              some (ts.foldl (fun y t => (swDests c 5).foldl (fun y p => y.push p t) y) y)
            else none
          else if x.outRoom 0 then some { y with res := y.res ++ ts.map (fun t => [(0, t)]) }
          else none
        match x.held[j]? with
        | none => s
        | some (.pass t) =>
          match send { x with held := x.held.eraseIdx j, finA := x.finA || (t.isDone && !x.itemOld j)
                              old := if t.isRoll then none else x.old } [t] with
          | some y => s.putSite q sl i r y
          | none => s
        | some (.park k) =>
          let t := x.tickets.look {} k
          match send { x with held := x.held.eraseIdx j, replies := x.replies.erase k
                              tickets := x.tickets.put {} k
                                { t with st := 0, reply := [], tok := ⟨0, 0⟩, tokB := 0 } } t.reply with
          | some y => (s.putSite q sl i r y).poke (.elementFire i)
          | none => s)

end Sys2Proof.Machine
end

