-- ==== Sys2Proof/Machine/Image.lean ====
section
/-!
DEFINITION. Configuration images: the tables (11 R304, R305) and the rules of every word (11 R299 to
R303, R306, 15 R421 to R448), as the list of the word indexes that break one (06 R179 BADWORD).
-/

namespace Sys2Proof.Machine

open Sys2Proof

/-! ## Bytes and tables (R304, R305) -/

abbrev Img := List Byte

def imgNat (b : Img) (o n : Nat) : Nat := leNat ((b.drop o).take n)
def img8 (b : Img) (o : Nat) : Nat := imgNat b o 1
def img16 (b : Img) (o : Nat) : Nat := imgNat b o 2
def img32 (b : Img) (o : Nat) : Nat := imgNat b o 4
def imgW (b : Img) (o : Nat) : W32 := BitVec.ofNat 32 (img32 b o)
def img64 (b : Img) (o : Nat) : W64 := BitVec.ofNat 64 (imgNat b o 8)

/-- A rule of a word: its index when it is broken. -/
def rule (ok : Bool) (idx : Nat) : List Nat := if ok then [] else [idx]

/-- Count and offset of the tables: 0 patterns, 1 targets, 2 edges, 3 circuits, 4 windows, 5 seam
units, 6 handlers, 7 memory contents. -/
def tblCount (b : Img) (t : Nat) : Nat :=
  match t with
  | 0 => img16 b 20 | 1 => img16 b 22 | 2 => img16 b 24 | 3 => img8 b 26 | 4 => img8 b 27
  | 5 => img16 b 28 | 6 => img16 b 30 | _ => if img32 b 60 = 0 then 0 else img16 b (img32 b 60)
def tblOff (b : Img) (t : Nat) : Nat := img32 b (32 + 4 * t)
def tblEntry (t : Nat) : Nat :=
  match t with | 0 => 8 | 1 => 8 | 2 => 8 | 3 => 12 | 4 => 24 | 5 => 64 | _ => 16
def tblBytes (b : Img) (t : Nat) : Nat :=
  if t = 7 then (if tblOff b 7 = 0 then 0 else 8 + 16 * tblCount b 7) else tblEntry t * tblCount b t
/-- Byte offset of entry `j` of a table. -/
def tblAt (b : Img) (t j : Nat) : Nat := tblOff b t + (if t = 7 then 8 else 0) + tblEntry t * j

/-- The span of each table that is not empty, the header first. -/
def tblSpans (b : Img) : List (Nat × Nat) :=
  (0, 64) :: ((List.range 8).filter (fun t => tblBytes b t != 0)).map
    (fun t => (tblOff b t, tblOff b t + tblBytes b t))

def disjointSpans : List (Nat × Nat) → Bool
  | [] => true
  | s :: r => r.all (fun t => decide (s.2 ≤ t.1) || decide (t.2 ≤ s.1)) && disjointSpans r

/-- R304: the header is well formed (BADADDR otherwise). -/
def headerOk (b : Img) : Bool :=
  let size := img32 b 8
  img32 b 0 == 0x4746434B && img16 b 4 == 1 && decide (64 ≤ size) && size % 64 == 0 &&
    decide (1 ≤ img16 b 12) && decide (img16 b 12 ≤ 736) && decide (1 ≤ img16 b 14) &&
    decide (img16 b 14 ≤ 128) && decide (img8 b 26 ≤ 64) && decide (img8 b 27 ≤ 8) &&
    (List.range 8).all (fun t => tblOff b t % 8 == 0) &&
    (List.range 7).all (fun t => (tblCount b t == 0) == (tblOff b t == 0)) &&
    (tblOff b 7 == 0 || img64 b (tblOff b 7) == BitVec.ofNat 64 (tblCount b 7)) &&
    (tblSpans b).all (fun s => decide (s.2 ≤ size)) && disjointSpans (tblSpans b)

/-! ## Operation words (R300, R301, R425 to R428) -/

/-- Operands: 1 a; 2 a, b; 3 a, b, c; 4 a, b and perhaps c; 0 a stream operation. -/
def opArity (op : Nat) : Nat :=
  if [0x08, 0x09, 0x24, 0x25, 0x1D].contains op then 1
  else if [0x01, 0x02, 0x03, 0x06, 0x07, 0x0A, 0x0C, 0x0D, 0x0E, 0x0F, 0x13].contains op then 2
  else if op = 0x04 ∨ op = 0x0B then 3
  else if op = 0x11 ∨ op = 0x12 then 4
  else 0

def opChainable (op : Nat) : Bool := decide (1 ≤ opArity op) && op != 0x11 && op != 0x12 && op != 0x1D
def opRep (op : Nat) : Bool :=
  decide (1 ≤ opArity op) || [0x14, 0x15, 0x16, 0x05, 0x1C].contains op

/-- R300, R427, R428: the sources an operation admits. -/
def srcOk (w : W32) (b4 : Bool) : Bool :=
  let op := oOp w
  let a := oSA w
  let b := oSB w
  let c := oSC w
  let regC := decide (3 ≤ c) && decide (c ≤ 5)
  let freeC := c == 7 || (oReg w && regC)
  match opArity op with
  | 1 => a != 7 && b == 7 && freeC
  | 2 => a != 7 && b != 7 && freeC && (op != 0x13 || decide (b ≤ 2) || b == 6)
  | 3 => a != 7 && b != 7 && c != 7
  | 4 => a != 7 && b != 7
  | _ =>
    match op with
    | 0x10 => a == 0 && b == 7 && c == (if b4 then 2 else 7)
    | 0x14 => decide (a ≤ 2) && b == 7 && c == 7
    | 0x17 | 0x18 | 0x19 | 0x1A | 0x21 => a == 0 && b == 1 && c == 7
    | 0x1E => a == 0 && (b == 1 || b == 7) && c == 7
    | 0x05 | 0x1C | 0x1F => a == 0 && b == 7 && (c == 7 || regC)
    | 0x20 => a == 0 && decide (3 ≤ b) && decide (b ≤ 5) && c == 7
    | _ => a == 0 && b == 7 && c == 7

/-- R425 to R428: the DEST an operation admits. -/
def destOk (w : W32) : Bool :=
  let op := oOp w
  let o0 := oOut0 w
  let o1 := oOut1 w
  let e := oReg w
  if decide (1 ≤ opArity op) && op != 0x1D then oDest w != 0
  else
    match op with
    | 0x1D | 0x14 => !e && (o0 || o1)
    | 0x10 => !e && o0 && !o1
    | 0x15 | 0x20 => !e && (o0 || o1)
    | 0x16 | 0x18 | 0x19 => !e && o0 && o1
    | 0x17 | 0x1A | 0x1E | 0x22 | 0x23 => !e && o0 && !o1
    | 0x1B => !e && !o0 && !o1
    | 0x05 | 0x1C | 0x1F => e
    | 0x21 => !e && !o1
    | _ => true

/-- R427, R428, R429: the TYPE an operation admits. -/
def typeOk (w : W32) : Bool :=
  let t := oType w
  match oOp w with
  | 0x0F => decide (4 ≤ t)
  | 0x13 | 0x24 | 0x25 => decide (t < 4)
  | 0x1D => t == 1 || t == 2 || t == 3
  | 0x11 => t == 1 || t == 2 || t == 3
  | 0x12 => t == 4 || t == 5
  | 0x05 => t != 4
  | 0x1C => t == 6 || t == 7
  | 0x14 | 0x20 => true
  | op => decide (1 ≤ opArity op) || t == 0

/-- R427 to R431: the values of MOD. -/
def modOk (w : W32) (m rank : Nat) : Bool :=
  let fl := decide (oType w < 4)
  match oOp w with
  | 0x01 | 0x02 | 0x03 | 0x04 => m == 0 || (m == 1 && !fl)
  | 0x0A => decide (m ≤ 3) || (m == 4 && fl)
  | 0x0F => decide (m ≤ 2)
  | 0x1D => decide (m ≤ 6)
  | 0x05 => decide (m < 8) && decide (m % 4 < rank) && (!fl || decide (m < 4))
  | 0x1C => decide (m < 4) && decide (m < rank)
  | 0x22 | 0x23 => decide (1 ≤ m) && decide (m ≤ 4095)
  | 0x21 => decide (m ≤ 15)
  | _ => m == 0

/-- R301, R425, R426: the rules of the operation words, by their place in the record. -/
def opWordsBad (c : SiteCfg) : List Nat :=
  let n := c.ops.length
  let w0 := c.op
  let b4 := dFmt c.pa == 6
  let srcFloat := if oOp w0 = 0x10 then decide (dFmt c.pa < 6) else decide (oType w0 < 4)
  let sv := oSv w0
  (c.ops.zipIdx).flatMap (fun e =>
    let w := e.1
    let j := e.2
    let op := oOp w
    let earlier := c.ops.take j
    let ok :=
      decide (1 ≤ op) && decide (op ≤ 0x25) && (oChain w == decide (j + 1 < n)) &&
      (n == 1 || opChainable op) && oType w == oType w0 && (j == 0 || (oRep w == 1 && oSv w == 0)) &&
      !(oOut0 w && earlier.any oOut0) && !(oOut1 w && earlier.any oOut1) &&
      srcOk w b4 && destOk w && typeOk w && (!oEsc w || sv == 1 || sv == 2) &&
      (j != 0 || sv == 0 || ((checksSv op || op == 0x10) && srcFloat)) &&
      !(oEsc w && c.out1) && !(oOut1 w && c.esc) && (oRep w == 1 || opRep op)
    rule ok (7 + j))

/-! ## Port descriptors (R422 to R424) -/

/-- Word of a descriptor in the record: ports A, B, C are 2 to 4, out0 and out1 5 and 6. -/
def descAt (c : SiteCfg) (k : Nat) : W32 :=
  match k with | 2 => c.pa | 3 => c.pb | 4 => c.pc | 5 => c.o0 | _ => c.o1

/-- Fields of a descriptor that only some uses allow. -/
def descFields (c : SiteCfg) (k : Nat) : Bool :=
  let d := descAt c k
  let op := oOp c.op
  let kv := dKval d == 0 || (k == 5) ||
    (k == 4 && (c.ops.any (fun w => oSA w == 6 || oSB w == 6 || oSC w == 6) || op == 0x14 || op == 0x22))
  let esc := op == 0x1E && k == 2
  kv && (esc || (fld d 18 13 == 0 && !dUnordered d && !dTicketed d)) &&
    (k == 2 || fld d 10 9 == 0) &&
    (!dSat d || (k == 2 && op == 0x10 && (dFmt c.o0 == 4 || dFmt c.o0 == 5))) &&
    (!dPad d || ((k == 2 || k == 3) && c.ops.all (fun w => padOps.contains (oOp w))))

/-- The formats port `p` may carry: those that every word asks of it, in each place where the word names it
(R424, R427 to R432). -/
def portFmtOk (c : SiteCfg) (p : Nat) : Bool :=
  let f := dFmt (c.portDesc p)
  c.ops.all (fun w =>
    let op := oOp w
    let t := tyFmt (oType w)
    let own := f == t || (decide (4 ≤ oType w) && f == t + 1)
    let as (src : Nat) (ok : Bool) : Bool := src != p || ok
    match op with
    | 0x13 =>
      as (oSA w) own && as (oSB w) (f == (match tyBits (oType w) with | 64 => 14 | 32 => 12 | _ => 10))
    | 0x11 | 0x12 => as (oSA w) own && as (oSB w) own && as (oSC w) (f == resFmt op (oType w))
    | 0x10 => if p = 2 then f == 7 else f != 7 && f != dFmt c.o0
    | 0x05 | 0x1C => own
    | 0x21 => p == 1 || f == 7
    | 0x17 => p == 0 || f == dFmt c.pa
    | 0x14 | 0x15 | 0x16 | 0x18 | 0x19 | 0x1A | 0x1B | 0x1E | 0x1F | 0x20 | 0x22 | 0x23 => true
    | _ => as (oSA w) own && as (oSB w) own && as (oSC w) own)

/-- The format an output must carry: the operation's result format (R424), which ACC and COUNT pass from port A
(R428). -/
def outFmtOk (c : SiteCfg) (o : Nat) : Bool :=
  let f := dFmt (c.outDesc o)
  let w := c.op
  let op := oOp w
  if o = 1 ∧ c.esc then f == dFmt c.pa
  else
    match op with
    | 0x10 => f != 7 && f != 6
    | 0x18 => f == dFmt (if o = 0 then c.pa else c.pb)
    | 0x05 | 0x1C | 0x15 | 0x16 | 0x17 | 0x19 | 0x1A | 0x1E | 0x1F | 0x22 | 0x23 => f == dFmt c.pa
    | 0x21 => true
    | 0x11 | 0x12 => f == resFmt op (oType w)
    | _ => f == tyFmt (oType w)

/-- Ports whose packing and rank follow the element's; a free port follows its rank only. -/
def freePort (c : SiteCfg) (p : Nat) : Bool :=
  let op := oOp c.op
  (p == 1 && (op == 0x19 || op == 0x1A || op == 0x21)) || (op == 0x21 && p == 0) ||
    (op == 0x14 || op == 0x20) || (op == 0x10 && p == 2)

/-- R422 to R424: the rules of the descriptors, by their place in the record. -/
def descsBad (c : SiteCfg) : List Nat :=
  let ps := c.usedPorts
  let outs := (if c.out0 then [0] else []) ++ (if c.out1 || (c.esc && (oSv c.op == 1 || oSv c.op == 2)) then [1] else [])
  let op := oOp c.op
  let lead := match ps with | p :: _ => c.portDesc p | [] => if c.out0 then c.o0 else c.o1
  let one (d : W32) : Bool := !(dSingle d && oneLane (dFmt d))
  let ports := [0, 1, 2].flatMap (fun p =>
    let d := c.portDesc p
    rule (descFields c (2 + p) &&
      (if ps.contains p then
         one d && portFmtOk c p && dRank d == dRank lead && (freePort c p || dSingle d == dSingle lead)
       else (d.toNat % 2 ^ 19 == 0))) (2 + p))
  let os := [0, 1].flatMap (fun o =>
    let d := c.outDesc o
    let rankOk := if op = 0x23 then dRank d == dRank lead + 1 else dRank d == dRank lead
    let packOk := op == 0x14 || op == 0x10 || op == 0x21 || dSingle d == dSingle lead
    rule (descFields c (5 + o) &&
      (if outs.contains o then one d && outFmtOk c o && rankOk && packOk else d.toNat % 2 ^ 19 == 0) &&
      (o == 1 || modOk c.op (c.modOf 0) (dRank c.pa))) (5 + o))
  let kOk :=
    let ty := oType c.op
    let k := dKval c.pc
    let scaleOnly := c.ops.all (fun w => oSA w != 6 && oSC w != 6 && (oSB w != 6 || oOp w == 0x13))
    tyFloat ty || (scaleOnly && op != 0x14) || op == 0x22 ||
      (decide (FP.intMin (fmtOf (tyFmt ty)) ≤ k) && decide (k ≤ FP.intMax (fmtOf (tyFmt ty))))
  ports ++ rule kOk 4 ++ os

/-! ## Switch, tile and fibre words -/

/-- R302: the rules of the switch words alone. -/
def switchOk (c : SiteCfg) (unused : Bool) : Bool :=
  let v := swValid c
  if !v then c.sw0 == 0 && c.sw1 == 0
  else
    !bitAt c.sw0 14 && fld c.sw1 15 11 == 0 && (swByp c == unused) &&
      [0, 1, 2, 3].all (fun d => swOut c d != 7 && swOut c d != d + 1) &&
      [0, 1, 2].all (fun p => swIn c p != 7) &&
      (!unused || [0, 1, 2].all (fun p => swIn c p == 0))

/-- R440, R441: the rules of a tile's words; the share is checked at its place. -/
def tileBad (c : SiteCfg) : List Nat :=
  let f := c.tFmt
  let rmw := c.tRmw
  let word := c.w0.toNat
  let ext := c.w1.toNat
  match c.role with
  | 1 =>
    rule (f != 6 && word % 2 ^ 22 == 0 &&
      (match rmw with
       | 0 => f == 12 || f == 14 || f == 1
       | 1 | 2 | 3 | 4 => f == 12 || f == 14
       | 5 => true
       | _ => false)) 2 ++
    rule (ext / 2 ^ 28 == 0 && ext % 2 ^ 24 == 0) 3
  | 2 => rule (word % 2 ^ 26 == 0) 2 ++
    rule (ext / 2 ^ 28 == 0 && ext / 2 ^ 12 % 2 ^ 14 == 0 && c.tCap != 0) 3
  | 3 => rule (word % 2 ^ 30 == 0) 2 ++ rule (ext == 0) 3
  | _ => [2]

/-- Output rank of a fibre function (R434). -/
def SiteCfg.fOutRank (c : SiteCfg) : Nat :=
  match c.func with
  | 1 | 2 => if c.fRoot then 1 else c.fRank + 1
  | 6 => c.fRank - c.fLevel - 1
  | _ => c.fRank

/-- R433, R434: the rules of a fibre unit's words. -/
def fibreBad (c : SiteCfg) : List Nat :=
  let f := c.func
  let scan := f == 1 || f == 2
  let val := f == 6 || f == 7
  let cache := c.fCache
  rule (decide (1 ≤ f) && decide (f ≤ 8) && c.w0.toNat % 2 ^ 8 == 0 &&
    (!c.fRoot || scan) && (!c.fPair || scan || f == 3 || f == 4) &&
    (if val then c.fVfmt != 6 && c.fVfmt != 7 else c.fVfmt == 0) &&
    (c.fLevel == 0 || f == 5 || f == 6) && (fld c.w0 17 16 == 0 || f == 6) &&
    (!cache || f == 1 || f == 7) && (cache || c.fTile == 0) &&
    (!c.fSat || (f == 6 && decide (8 ≤ c.fVfmt))) && (c.fRop == 0 || (f == 6 && c.fRop != 3)) &&
    (!c.fRoot || c.fRank == 1) &&
    decide (c.fOutRank ≤ 4) && (f != 6 || decide (c.fLevel + 2 ≤ c.fRank)) &&
    (f != 5 || decide (c.fLevel < c.fRank))) 2 ++
  rule (if f = 2 then decide (1 ≤ c.w1.toNat) && decide (c.w1.toNat ≤ 2 ^ 31) else c.w1 == 0) 3 ++
  rule (f == 1 || f == 7 || f == 8 || c.base0 == 0) 4 ++
  rule (f == 1 || f == 8 || c.base1 == 0) 6

/-! ## Site records (R305) -/

/-- A site record: its configuration, its bytes, and the words of it that break a rule, as indexes
from its first word. -/
structure SiteRec where
  cfg : SiteCfg
  len : Nat
  bad : List Nat
  deriving DecidableEq, Repr

def parseRecord (b : Img) (o : Nat) : SiteRec :=
  let h := imgW b o
  let sw := imgW b (o + 4)
  let kind := fld h 31 29
  let nop := fld h 28 24
  let einit := bitAt h 23
  let base : SiteCfg := { kind := kind, sw0 := sw.setWidth 16, sw1 := BitVec.ofNat 16 (fld sw 31 16) }
  let low := decide (fld h 22 0 = 0)
  match kind with
  | 1 =>
    let n := Nat.min nop 16
    let c : SiteCfg :=
      { base with
        pa := imgW b (o + 8), pb := imgW b (o + 12), pc := imgW b (o + 16), o0 := imgW b (o + 20)
        o1 := imgW b (o + 24), ops := (List.range n).map (fun j => imgW b (o + 28 + 4 * j))
        einit := if einit then
          some (img64 b (o + 28 + 4 * n), img64 b (o + 36 + 4 * n), img64 b (o + 44 + 4 * n)) else none }
    ⟨c, 28 + 4 * n + (if einit then 24 else 0),
      rule (low && decide (1 ≤ nop) && decide (nop ≤ 16)) 0 ++ rule (switchOk c false) 1 ++
        opWordsBad c ++ descsBad c⟩
  | 0 => ⟨base, 8, rule (h == 0) 0 ++ rule (switchOk base true) 1⟩
  | 2 =>
    let c := { base with w0 := imgW b (o + 8), w1 := imgW b (o + 12) }
    ⟨c, 16, rule (low && nop == 0 && !einit) 0 ++ rule (switchOk c false) 1 ++ tileBad c⟩
  | 3 =>
    let c := { base with w0 := imgW b (o + 8), w1 := imgW b (o + 12), base0 := img64 b (o + 16)
                         base1 := img64 b (o + 24) }
    ⟨c, 32, rule (low && nop == 0 && !einit) 0 ++ rule (switchOk c false) 1 ++ fibreBad c⟩
  | _ => ⟨base, 8, [0]⟩

/-- The records of a pattern from offset `o`, with their offsets. -/
def parseRecords (b : Img) : Nat → Nat → List (Nat × SiteRec)
  | 0, _ => []
  | n + 1, o =>
    let r := parseRecord b o
    (o, r) :: parseRecords b n (o + r.len)

/-- A pattern: width, height, its records and where they lie. -/
structure Pattern where
  w : Nat
  h : Nat
  recs : List (Nat × SiteRec)
  lo : Nat
  hi : Nat

def parsePattern (b : Img) (j : Nat) : Pattern :=
  let e := tblAt b 0 j
  let w := img8 b e
  let h := img8 b (e + 1)
  let o := img32 b (e + 4)
  let recs := parseRecords b (Nat.min (w * h) 256) o
  ⟨w, h, recs, o, recs.foldl (fun m r => Nat.max m (r.1 + r.2.len)) o⟩

/-- R305, R306: the rules of a pattern entry and its records. -/
def patternBad (b : Img) (j : Nat) : List Nat :=
  let e := tblAt b 0 j
  let p := parsePattern b j
  rule (decide (1 ≤ p.w) && decide (p.w ≤ 16) && decide (1 ≤ p.h) && decide (p.h ≤ 16) &&
    img16 b (e + 2) == 0 && decide (p.hi ≤ img32 b 8) &&
    (tblSpans b).all (fun s => decide (p.hi ≤ s.1) || decide (s.2 ≤ p.lo))) (e / 4) ++
  rule (p.lo % 8 == 0) (e / 4 + 1) ++
  p.recs.flatMap (fun r => r.2.bad.map (fun k => r.1 / 4 + k))

/-! ## Seam-unit entries (R443, R444) -/

/-- R442, R443: the rules of a generator's words, by their place in the entry. -/
def genBad (g : Gen) (base1 : W64) : List Nat :=
  let f := g.fmt
  let em := g.emitBits
  let load := g.isLoad
  rule ((load || g.isStore) && (fld (g.w 0) 24 23 != 3) && (f == 7 || fld (g.w 0) 24 23 == 0) &&
    (if load then [1, 3, 7, 15].contains em else em == 0) && (g.isStore || fld (g.w 0) 18 17 == 0) &&
    (!g.cache || load) && (g.cache || g.tile == 0) && fld (g.w 0) 10 0 == 0 &&
    !(g.single && oneLane f)) 1 ++
  rule (fld (g.w 5) 31 16 == 0) 6 ++ rule (g.w 6 == 0) 7 ++
  rule (g.base.toNat % g.esize == 0) 8 ++ rule (base1 == 0) 10

/-- R444: the rules of a fabric-mode tile's words; `acckb` is the core's accumulator share. -/
def mxBad (f : MxFab) (acckb : Nat) : List Nat :=
  match mxFmt f.fmt with
  | none => [1]
  | some g =>
    rule (f.outFmt != 6 && f.outFmt != 7 && fld (f.w 0) 13 0 == 0) 1 ++
    rule (decide (f.m ≤ mxDim g) && decide (f.n ≤ mxDim g) &&
      accFits acckb f.off f.m f.n (accRow g) (accBytes g)) 2 ++
    rule (f.k != 0 && (g != .b4 || f.k % 32 == 0)) 3 ++
    rule (f.aBase.toNat % opBytes g == 0) 8 ++ rule (f.bBase.toNat % opBytes g == 0) 10

end Sys2Proof.Machine
end

