-- ==== Sys2Proof/Machine/Loader.lean ====
section
/-!
DEFINITION. The configuration loader: where an image's targets, units and tables lie on the package
(11 R304 to R306, 15 R431, R433, R442 to R448, 06 R153), the checks of a load in their order
(06 R179, R180, R183, R184), and what a load or a shadow load leaves (06 R163, R181 to R183).
-/

namespace Sys2Proof.Machine

open Sys2Proof

/-! ## Where an image lies -/

/-- The rectangle of an image: top-left column counted across the bridge, row, width, height. -/
structure Rect where
  x : Nat
  y : Nat
  w : Nat
  h : Nat
  deriving DecidableEq, Repr

def Rect.site (l : Rect) (dx dy : Nat) : Nat := siteAt (l.x + dx) (l.y + dy)

/-- R305: the site and subsite a local site word names, inside the rectangle. -/
def Rect.loc (l : Rect) (w : W32) : Option (Nat × Nat) :=
  if fld w 31 24 = 0 ∧ fld w 23 14 < l.w ∧ fld w 13 7 < l.h ∧ l.x + fld w 23 14 < 736 ∧
      l.y + fld w 13 7 < 128 then
    some (l.site (fld w 23 14) (fld w 13 7), fld w 6 0)
  else none

/-- R304: the rectangle ends before column 367 of die 1 and row 127. -/
def Rect.onPackage (l : Rect) : Bool := decide (l.x + l.w ≤ 736) && decide (l.y + l.h ≤ 128)

/-- A record of a target: its site, its word index, its pattern, its configuration. -/
structure Placed where
  site : Nat
  idx  : Nat
  pat  : Nat
  cfg  : SiteCfg
  deriving DecidableEq, Repr

def placedAt (ps : List Placed) (i : Nat) : Option Placed := ps.find? (fun p => p.site == i)
def cfgAt (ps : List Placed) (i : Nat) : SiteCfg :=
  match placedAt ps i with | some p => p.cfg | none => {}

def isFabricCol (i : Nat) : Bool :=
  match colKind (siteCol i) with | .fabric _ => true | _ => false

/-- The package has a site at an offset of the rectangle. -/
def Rect.onSite (l : Rect) (dx dy : Nat) : Bool := decide (l.x + dx < 736) && decide (l.y + dy < 128)

/-- R306: one target: its records at their sites, or the index of its entry. A record beyond the edge of the
package has no site, and no rule of a site. -/
def placeTarget (b : Img) (l : Rect) (pats : List Pattern)
    (acc : List Placed × List Nat × List (Nat × Nat)) (j : Nat) :
    List Placed × List Nat × List (Nat × Nat) :=
  let e := tblAt b 1 j
  let pi := img16 b e
  let cx := img16 b (e + 4)
  let cy := img16 b (e + 6)
  match pats[pi]? with
  | none => (acc.1, acc.2.1 ++ [e / 4], acc.2.2)
  | some p =>
    let places := (List.range p.recs.length).map (fun k => (cx + k % p.w, cy + k / p.w))
    let new := ((p.recs.zip places).filter (fun r => l.onSite r.2.1 r.2.2)).map
      (fun (r : (Nat × SiteRec) × (Nat × Nat)) =>
        Placed.mk (l.site r.2.1 r.2.2) (r.1.1 / 4) pi r.1.2.cfg)
    if img16 b (e + 2) = 0 ∧ cx + p.w ≤ l.w ∧ cy + p.h ≤ l.h ∧ new.all (fun q => isFabricCol q.site) ∧
        places.all (fun q => !acc.2.2.contains q) then
      (acc.1 ++ new, acc.2.1, acc.2.2 ++ places)
    else (acc.1, acc.2.1 ++ [e / 4], acc.2.2)

/-- R153: the compute elements after the configured site in its target, with the copies' sites. -/
def copiesOf (ps : List Placed) (p : Placed) : List Placed :=
  let same := ps.filter (fun q => q.pat == p.pat)
  let after := (same.dropWhile (fun q => q.site != p.site)).drop 1
  (after.filter (fun q => siteKind q.site == 1)).take (oRep p.cfg.op - 1)

/-- The replicated operators of a target's records and their copies. -/
def replicated (target : List Placed) : List (Placed × List Placed) :=
  (target.filter (fun p => p.cfg.kind == 1 && oRep p.cfg.op != 1)).map (fun p => (p, copiesOf target p))

/-- R153: too few elements, a copy that is not UNUSED, a copy of two operators. Elements of a target that runs off
the package are not counted. -/
def copiesBad (whole : Bool) (target : List Placed) : List Nat :=
  let reps := replicated target
  (reps.zipIdx).flatMap (fun (e : (Placed × List Placed) × Nat) =>
    let p := e.1.1
    let cs := e.1.2
    let before := (reps.take e.2).flatMap (fun r => r.2.map (·.site))
    rule ((!whole || cs.length == oRep p.cfg.op - 1) && cs.all (fun c => !before.contains c.site)) (p.idx + 7) ++
      cs.flatMap (fun c => rule (c.cfg.kind == 0) c.idx))

/-- A copy runs the configured site's record under its own switch words. -/
def applyCopies (reps : List (Placed × List Placed)) (ps : List Placed) : List Placed :=
  ps.map (fun q =>
    match reps.findSome? (fun r =>
        ((r.2.zipIdx).find? (fun (c : Placed × Nat) => c.1.site == q.site)).map (fun c => (r.1, c.2 + 1))) with
    | some (p, k) =>
      { q with cfg := { p.cfg with sw0 := q.cfg.sw0, sw1 := q.cfg.sw1, copyOf := some (p.site, k) } }
    | none => q)

/-! ## Units of the seams, circuits, windows, handlers, contents -/

/-- A seam-unit entry: its site and subsite, its entry's word index, words and bases. -/
structure Seam where
  site : Nat
  sub  : Nat
  idx  : Nat
  ws   : List W32
  b0   : W64
  b1   : W64
  deriving DecidableEq, Repr

def isSeamSite (i : Nat) : Bool :=
  match colKind (siteCol i) with | .seam _ => siteRow i % 16 == 0 | _ => false

/-- The cluster whose matrix tile stands at a site (R28). -/
def tileCluster (i : Nat) : Option Nat :=
  match colKind (siteCol i) with
  | .swarm k l =>
    if l = 0 ∧ siteRow i % 16 = 2 then some (128 * siteDie i + 16 * (siteRow i / 16) + k) else none
  | _ => none

def seamEntries (b : Img) (l : Rect) : List Seam × List Nat :=
  (List.range (tblCount b 5)).foldl (fun (acc : List Seam × List Nat) j =>
    let e := tblAt b 5 j
    match l.loc (imgW b e) with
    | some (i, sub) =>
      if (isSeamSite i && decide (sub ≤ 3)) || ((tileCluster i).isSome && sub == 0) then
        (acc.1 ++ [⟨i, sub, e / 4, (List.range 7).map (fun k => imgW b (e + 4 + 4 * k)), img64 b (e + 32),
          img64 b (e + 40)⟩], acc.2 ++ (List.range 4).flatMap (fun k => rule (imgW b (e + 48 + 4 * k) == 0) (e / 4 + 12 + k)))
      else (acc.1, acc.2 ++ [e / 4])
    | none => (acc.1, acc.2 ++ [e / 4])) ([], [])

/-- A generator with its words and base. -/
def Seam.gen (u : Seam) : Gen := { ws := u.ws, base := u.b0 }
def Seam.key (u : Seam) : Nat := 4 * u.site + u.sub
def Seam.mx (u : Seam) (m : Nat) : MxFab := { cluster := m, ws := u.ws, aBase := u.b0, bBase := u.b1 }

/-- Generator keys an image configures, with the load or store direction: 1 AGLOAD or a fabric-mode
tile, 2 AGSTORE (R442). -/
def seamKeys (us : List Seam) : List (Nat × Nat) :=
  us.map (fun u => match tileCluster u.site with
    | some m => (tileGen m, 1)
    | none => (u.key, u.gen.kind))

def seamBad (s : State) (ctx : Nat) (us : List Seam) (ps : List Placed) : List Nat :=
  (us.zipIdx).flatMap (fun (e : Seam × Nat) =>
    let u := e.1
    let before := us.take e.2
    rule (!before.any (fun v => v.site == u.site && v.sub == u.sub)) u.idx ++
    (match tileCluster u.site with
     | some m =>
       let f := u.mx m
       rule (fld (f.w 0) 31 29 == 3) (u.idx + 1) ++
         (mxBad f (s.pw (8 * m + f.core) ctx).acckb).map (u.idx + ·) ++
         rule (!us.any (fun v => v.key == tileGen m && (tileCluster v.site).isNone)) u.idx
     | none =>
       let g := u.gen
       let (edge, _) := genEdge u.key
       (genBad g u.b1).map (u.idx + ·) ++
         (match siteBlock edge with
          | some blk => rule (!g.cache || (cfgAt ps (tileSite blk g.tile)).role == 3) (u.idx + 1)
          | none => [])))

/-- Circuits: local index, source and destination edge sites, or the word of an offence (R32, R305). -/
def circuitEntries (s : State) (q : Nat) (b : Img) (l : Rect) : List Circuit × List Nat :=
  (List.range (tblCount b 3)).foldl (fun (acc : List Circuit × List Nat) j =>
    let e := tblAt b 3 j
    let idx := img8 b e
    let own (i : Nat) : Bool := match siteBlock i with | some n => s.ownsBlock q n | none => false
    let src := l.loc (imgW b (e + 4))
    let dst := l.loc (imgW b (e + 8))
    let edge (o : Option (Nat × Nat)) : Bool :=
      match o with
      | some (i, sub) => sub == 0 && own i &&
          ((siteDie i == 0 && siteCol i == 367) || (siteDie i == 1 && siteCol i == 0))
      | none => false
    let facing : Bool :=
      match src, dst with
      | some (i, _), some (k, _) => siteDie i != siteDie k
      | _, _ => false
    let bad := rule (decide (idx < 64) && imgNat b (e + 1) 3 == 0 && !acc.1.any (fun c => c.index == idx)) (e / 4) ++
      rule (edge src) (e / 4 + 1) ++ rule (edge dst && facing) (e / 4 + 2)
    match src, dst with
    | some (i, _), some (k, _) => (acc.1 ++ [⟨idx, i, k, []⟩], acc.2 ++ bad)
    | _, _ => (acc.1, acc.2 ++ bad)) ([], [])

/-- The edge sites the circuit table names, with the word that names each and whether it is a source's; the other
end of an entry may name no site (R302, R306). -/
def circuitNames (b : Img) (l : Rect) : List (Nat × Nat × Bool) :=
  (List.range (tblCount b 3)).flatMap (fun j =>
    let e := tblAt b 3 j
    ((l.loc (imgW b (e + 4))).map (fun i => (i.1, e / 4 + 1, true))).toList ++
      ((l.loc (imgW b (e + 8))).map (fun i => (i.1, e / 4 + 2, false))).toList)

/-- Windows: a number, a level and the AGSTORE generator of the image that each names (R173). -/
def windowEntries (b : Img) (l : Rect) (us : List Seam) : Tbl Window × List Nat :=
  (List.range (tblCount b 4)).foldl (fun (acc : Tbl Window × List Nat) j =>
    let e := tblAt b 4 j
    let n := img8 b e
    let lv := img8 b (e + 1)
    let unit := match l.loc (imgW b (e + 4)) with
      | some (i, sub) => us.find? (fun (u : Seam) => u.site == i && u.sub == sub && (tileCluster i).isNone && u.gen.isStore)
      | none => none
    let bad := rule (decide (n < 8) && decide (lv < 4) && img16 b (e + 2) == 0 &&
        !acc.1.any (fun w => w.1 == n)) (e / 4) ++ rule unit.isSome (e / 4 + 1)
    match bad, unit with
    | [], some u =>
      (acc.1.ins n { decl := true, site := u.site, gen := u.sub, level := lv, base := img64 b (e + 8)
                     len := img64 b (e + 16) }, acc.2)
    | _, _ => (acc.1, acc.2 ++ bad)) ([], [])

/-- Handlers of ESC elements (R169, R306). -/
def handlerEntries (b : Img) (l : Rect) (ps : List Placed) : Tbl W64 × List Nat :=
  (List.range (tblCount b 6)).foldl (fun (acc : Tbl W64 × List Nat) j =>
    let e := tblAt b 6 j
    let site := match l.loc (imgW b e) with
      | some (i, sub) =>
        let c := cfgAt ps i
        if sub = 0 ∧ c.kind = 1 ∧ oOp c.op = 0x1E ∧ !acc.1.any (fun h => h.1 == i) then some i else none
      | none => none
    let bad := rule site.isSome (e / 4) ++ rule (imgW b (e + 4) == 0) (e / 4 + 1)
    match site with
    | some i => (acc.1.ins i (img64 b (e + 8)), acc.2 ++ bad)
    | none => (acc.1, acc.2 ++ bad)) ([], [])

/-- Memory contents: tile site, byte offset in the share, data (R305). -/
def contentEntries (b : Img) (l : Rect) (share : Nat) : List (Nat × Nat × List Byte) × List Nat :=
  (List.range (tblCount b 7)).foldl (fun (acc : List (Nat × Nat × List Byte) × List Nat) j =>
    let e := tblAt b 7 j
    let site := match l.loc (imgW b e) with
      | some (i, sub) => if sub = 0 ∧ siteKind i = 2 then some i else none
      | none => none
    let off := img16 b (e + 4)
    let len := img32 b (e + 8)
    let data := img32 b (e + 12)
    let bad := rule site.isSome (e / 4) ++ rule (off % 8 == 0 && img16 b (e + 6) == 0) (e / 4 + 1) ++
      rule (len % 8 == 0 && decide (off + len ≤ share)) (e / 4 + 2) ++
      rule (data % 8 == 0 && decide (data + len ≤ img32 b 8)) (e / 4 + 3)
    match bad, site with
    | [], some i => (acc.1 ++ [(i, off, (b.drop data).take len)], acc.2)
    | _, _ => (acc.1, acc.2 ++ bad)) ([], [])

/-! ## Rules of a record at its place (R306, R448, R431, R433, R441) -/

/-- What the position rules look at beside the records. -/
structure Around where
  ps    : List Placed
  gens  : List (Nat × Nat)
  /-- The edge sites of the circuit table, as `circuitNames` lists them. -/
  circs : List (Nat × Nat × Bool)

/-- The generator at the seam-facing link of a site in direction `d`: 0 none, 1 load, 2 store. -/
def Around.genAt (a : Around) (i d : Nat) : Nat :=
  match seamGen i with
  | some (k, d') =>
    if d' = d then (match a.gens.find? (fun g => g.1 == k) with | some g => g.2 | none => 0) else 0
  | none => 0

/-- Directions a switch may send to and take from (R448). -/
def Around.mayOut (a : Around) (i d : Nat) (circ : Bool) : Bool :=
  match linkTo i d with
  | .none => false
  | .bridge => circ && a.circs.any (fun c => c.1 == i && c.2.2)
  | .site _ => a.genAt i d != 1
def Around.mayIn (a : Around) (i d : Nat) : Bool :=
  match linkTo i d with
  | .none => false
  | .bridge => a.circs.any (fun c => c.1 == i && !c.2.2)
  | .site _ => a.genAt i d != 2

/-- RMW elements of the records, with the tile each names. -/
def rmwTiles (ps : List Placed) : List (Placed × Nat) :=
  (ps.filter (fun p => p.cfg.kind == 1 && oOp p.cfg.op == 0x21)).filterMap (fun p =>
    (siteBlock p.site).map (fun blk => (p, tileSite blk (p.cfg.modOf 0 % 16))))

/-- The input ports of a site that must have a source, and those that may. -/
def sourceRule (rmw : List (Placed × Nat)) (p : Placed) : Bool :=
  let c := p.cfg
  let fed := [0, 1, 2].filter (fun k => swIn c k != 0)
  match c.kind with
  | 1 => fed == c.usedPorts
  | 3 => fed == (match c.func with | 1 | 2 => if c.fRoot then [] else [0] | 3 | 4 | 5 => [0, 1] | _ => [0])
  | 2 =>
    match c.role with
    | 1 => !(rmw.any (fun e => e.2 == p.site)) || !(fed.contains 1 || fed.contains 2)
    | 2 => !(fed.contains 1 || fed.contains 2)
    | _ => fed.isEmpty
  | _ => fed.isEmpty

/-- R448, R302: the switch word at its place. -/
def Around.switchPlaced (a : Around) (rmw : List (Placed × Nat)) (p : Placed) : Bool :=
  let c := p.cfg
  let named := a.circs.any (fun k => k.1 == p.site)
  let codes := [0, 1, 2, 3].map (swOut c) ++ [0, 1, 2].map (swIn c)
  (!swValid c ||
    ([0, 1, 2, 3].all (fun d => swOut c d == 0 || a.mayOut p.site d (swCirc c)) &&
     [0, 1, 2, 3].all (fun d => !codes.contains (d + 1) || a.mayIn p.site d))) &&
    swCirc c == named && sourceRule rmw p

/-- Every rule of a record that its place decides. -/
def Around.placedBad (a : Around) (s : State) (q ctx : Nat) (rmw : List (Placed × Nat)) (p : Placed) :
    List Nat :=
  let c := p.cfg
  let k := siteKind p.site
  let share := (s.tileShare q ctx).2
  let blk := siteBlock p.site
  rule (c.kind == 0 || c.kind == k) p.idx ++
  rule ((k != 0 || (c.sw0 == 0 && c.sw1 == 0)) && a.switchPlaced rmw p) (p.idx + 1) ++
  (match c.kind with
   | 1 =>
     if oOp c.op = 0x21 then
       match blk with
       | some n =>
         let t := tileSite n (c.modOf 0 % 16)
         let tc := cfgAt a.ps t
         let earlier := (rmw.takeWhile (fun e => e.1 != p)).any (fun e => e.2 == t)
         rule (dFmt c.pb == tc.tFmt || tc.role != 1) (p.idx + 3) ++
           rule (tc.role == 1 && !earlier && (!tc.tRet || !c.out0 || dFmt c.o0 == tc.tFmt)) (p.idx + 5)
       | none => []
     else []
   | 2 =>
     match c.role with
     | 1 => rule (c.tRankB == 1 || swIn c 1 != 0) (p.idx + 3)
     | 2 => rule (decide (16 * (c.tCap + 1) ≤ share)) (p.idx + 3)
     | 3 => rule (decide (0x10000 ≤ share)) (p.idx + 2)
     | _ => []
   | 3 =>
     match blk with
     | some n => rule (!c.fCache || (cfgAt a.ps (tileSite n c.fTile)).role == 3) (p.idx + 2)
     | none => []
   | _ => [])

/-! ## Edges (R180) -/

/-- A stream at an end of an edge: format and packing where they are fixed, and rank. -/
structure Strm where
  fmt    : Option Nat
  single : Option Bool
  rank   : Nat
  deriving DecidableEq, Repr

def Strm.agrees (a b : Strm) : Bool :=
  (match a.fmt, b.fmt with | some x, some y => x == y | _, _ => true) &&
  (match a.single, b.single with | some x, some y => x == y | _, _ => true) && a.rank == b.rank

def descStrm (d : W32) : Strm := ⟨some (dFmt d), some (dSingle d), dRank d⟩
def itemStrm (r : Nat) : Strm := ⟨some fITEM, some false, r⟩
def pairStrm (r : Nat) : Strm := ⟨some 13, some false, r⟩
def valStrm (f r : Nat) : Strm := ⟨some f, some (!oneLane f), r⟩

def genStrm (g : Gen) : Strm := ⟨some g.fmt, some g.single, g.rank⟩

/-- The stream output `o` of a site carries. -/
def outStrm (c : SiteCfg) (o : Nat) : Option Strm :=
  match c.kind with
  | 1 => if (if o = 0 then c.out0 else c.out1 || c.esc) then some (descStrm (c.outDesc o)) else none
  | 2 =>
    match c.role with
    | 1 => if o = 0 then some (valStrm c.tFmt c.tRankA) else if c.tRet then some (valStrm c.tFmt c.tRankB) else none
    | 2 => if o = 0 then some ⟨some c.tFmt, none, c.tRankA⟩ else none
    | _ => none
  | 3 =>
    let r := c.fOutRank
    match c.func with
    | 1 | 2 | 3 | 4 => some (if o = 0 ∧ c.fPair then pairStrm r else itemStrm r)
    | 6 | 7 => if o = 0 then some (valStrm c.fVfmt r) else none
    | _ => if o = 0 then some (itemStrm r) else none
  | _ => none

/-- The stream input port `p` of a site expects. -/
def inStrm (c : SiteCfg) (p : Nat) : Option Strm :=
  match c.kind with
  | 1 =>
    if c.usedPorts.contains p then
      (if p = 1 ∧ (oOp c.op = 0x19 ∨ oOp c.op = 0x1A) then some ⟨none, none, dRank c.pb⟩
       else some (descStrm (c.portDesc p)))
    else none
  | 2 =>
    match c.role with
    | 1 => some (if p = 0 then itemStrm c.tRankA else if p = 1 then itemStrm c.tRankB else valStrm c.tFmt c.tRankB)
    | 2 => if p = 0 then some ⟨some c.tFmt, none, c.tRankA⟩ else none
    | _ => none
  | 3 =>
    match c.func with
    | 1 | 2 => if p = 0 ∧ !c.fRoot then some (itemStrm c.fRank) else none
    | 3 | 4 => if p < 2 then some (pairStrm c.fRank) else none
    | 5 => if p = 0 then some (itemStrm 1) else if p = 1 then some ⟨none, none, c.fRank⟩ else none
    | 6 => if p = 0 then some (valStrm c.fVfmt c.fRank) else none
    | _ => if p = 0 then some (itemStrm c.fRank) else none
  | _ => none

/-- The end of an edge a local site word names: none when it names no end the table allows; the
stream is none when nothing there is configured for it. -/
def edgeEnd (l : Rect) (ps : List Placed) (us : List Seam) (producer : Bool) (w : W32) :
    Option (Option Strm) :=
  match l.loc w with
  | none => none
  | some (i, sub) =>
    if isFabricCol i then
      if siteKind i = 0 then none
      else if producer then
        (if sub = 4 ∨ sub = 5 then some (outStrm (cfgAt ps i) (sub - 4)) else none)
      else (if 1 ≤ sub ∧ sub ≤ 3 then some (inStrm (cfgAt ps i) (sub - 1)) else none)
    else if isSeamSite i ∧ sub ≤ 3 then
      match us.find? (fun u => (tileCluster u.site).isNone && u.key == 4 * i + sub) with
      | some u =>
        some (if (if producer then u.gen.isLoad else u.gen.isStore) then some (genStrm u.gen) else none)
      | none =>
        match us.findSome? (fun u => match tileCluster u.site with
            | some m => if tileGen m = 4 * i + sub then some (u.mx m) else none
            | none => none) with
        | some f => some (if producer then some ⟨some f.outFmt, some false, 2⟩ else none)
        | none => some none
    else none

def edgesBad (b : Img) (l : Rect) (ps : List Placed) (us : List Seam) : List Nat :=
  (List.range (tblCount b 2)).flatMap (fun j =>
    let e := tblAt b 2 j
    rule (edgeEnd l ps us true (imgW b e)).isSome (e / 4) ++
      rule (edgeEnd l ps us false (imgW b (e + 4))).isSome (e / 4 + 1))

/-- The packing of a producer's stream: out0 of a FIFO tile carries that of the producer an edge gives its
port A (R441). -/
def packOf (b : Img) (l : Rect) (ps : List Placed) (us : List Seam) : Nat → W32 → Option Bool
  | 0, _ => none
  | f + 1, w =>
    match edgeEnd l ps us true w with
    | some (some x) =>
      if x.single.isSome then x.single
      else
        match l.loc w with
        | none => none
        | some (i, _) =>
          match (List.range (tblCount b 2)).find? (fun j =>
              l.loc (imgW b (tblAt b 2 j + 4)) == some (i, 1)) with
          | some j => packOf b l ps us f (imgW b (tblAt b 2 j))
          | none => none
    | _ => none

/-- R180: the first edge that disagrees. -/
def edgeClash (b : Img) (l : Rect) (ps : List Placed) (us : List Seam) : Option Nat :=
  (List.range (tblCount b 2)).find? (fun j =>
    let e := tblAt b 2 j
    match edgeEnd l ps us true (imgW b e), edgeEnd l ps us false (imgW b (e + 4)) with
    | some (some x), some (some y) =>
      !Strm.agrees { x with single := packOf b l ps us (tblCount b 2 + 1) (imgW b e) } y
    | _, _ => true)

/-! ## The plan of a load -/

/-- What an image gives a region, with the word indexes that break a rule. -/
structure Plan where
  rect  : Rect
  sites : List Placed
  seams : List Seam
  circs : List Circuit
  wins  : Tbl Window
  hands : Tbl W64
  mems  : List (Nat × Nat × List Byte)
  bad   : List Nat
  clash : Option Nat
  /-- Pattern bytes by pattern index. -/
  pats  : List Nat

/-- Reads the tables of an image whose header is well formed. -/
def State.plan (s : State) (q ctx : Nat) (b : Img) (x y : Nat) (shadow : Bool) : Plan :=
  let l : Rect := ⟨x, y, img16 b 12, img16 b 14⟩
  let pats := (List.range (tblCount b 0)).map (parsePattern b)
  let flags := rule (img16 b 6 / 4 == 0) 1
  let patsBad := (List.range (tblCount b 0)).flatMap (patternBad b)
  let sizes := pats.map (fun p => p.hi - p.lo)
  let steps := (List.range (tblCount b 1)).map (fun j => (placeTarget b l pats ([], [], []) j).1)
  let placed := (List.range (tblCount b 1)).foldl (placeTarget b l pats) ([], [], [])
  let targets := steps.filter (fun t => t.all (fun p => placed.1.contains p))
  let reps := targets.flatMap replicated
  let ps0 := placed.1
  let (us, usBad) := seamEntries b l
  let (cs, csBad) := circuitEntries s q b l
  let names := circuitNames b l
  -- CIRC is set at every edge site of the table, so each must have a record; the word that names one without is at
  -- fault (R302, log 33).
  let bare := names.flatMap (fun n => rule (ps0.any (fun p => p.site == n.1)) n.2.1)
  let (ws, wsBad) := windowEntries b l us
  let (hs, hsBad) := handlerEntries b l ps0
  let (ms, msBad) := contentEntries b l (s.tileShare q ctx).2
  let ar : Around := ⟨ps0, seamKeys us, names⟩
  let rmw := rmwTiles ps0
  let escBad := ps0.flatMap (fun p =>
    rule (p.cfg.kind != 1 || oOp p.cfg.op != 0x1E || hs.any (fun h => h.1 == p.site)) p.idx)
  let bad := flags ++ patsBad ++ placed.2.1 ++ targets.flatMap (copiesBad l.onPackage) ++
    ps0.flatMap (ar.placedBad s q ctx rmw) ++ escBad ++ usBad ++ seamBad s ctx us ps0 ++ csBad ++ bare ++ wsBad ++
    hsBad ++ (if shadow then rule (tblOff b 7 == 0) 15 else msBad) ++ edgesBad b l ps0 us
  let withHands := ps0.map (fun p => { p with cfg := { p.cfg with handler := hs.look 0 p.site } })
  ⟨l, applyCopies reps withHands, us, cs, ws, hs, if shadow then [] else ms, bad,
    edgeClash b l ps0 us, sizes⟩

/-! ## The checks of R179 -/

/-- Blocks whose fabric or seam sites lie in a rectangle (R78). -/
def Rect.blocks (l : Rect) : List Nat :=
  (List.range 272).filter (fun n =>
    let t := blockSite n
    let k := n % 17
    let lo := if k = 0 then siteX t else siteX t - 1
    let hi := if k = 16 then siteX t + 16 else siteX t + 17
    decide (l.x < hi) && decide (lo < l.x + l.w) && decide (l.y < siteRow t + 16) &&
      decide (siteRow t < l.y + l.h))

/-- The block is the partition's, and stays so while a resize of it runs (R89). -/
def State.mayPlace (s : State) (q n : Nat) : Bool :=
  s.ownsBlock q n &&
    (match s.resize with
     | some z => z.prt != q || decide (z.step < 2) || bitAt z.blk n
     | none => true)

/-- OUTSIDE: a rectangle past the package, a block or a matrix tile that the partition does not own. -/
def State.rectOwned (s : State) (q : Nat) (p : Plan) : Bool :=
  p.rect.onPackage && p.rect.blocks.all (s.mayPlace q) &&
    p.seams.all (fun u => match tileCluster u.site with
      | some m => s.ownsCluster q m && s.keepsCluster q m
      | none => true)

def Rect.meets (l : Rect) (r : Region) : Bool :=
  decide (l.x < r.x + r.w) && decide (r.x < l.x + l.w) && decide (l.y < r.y + r.h) &&
    decide (r.y < l.y + l.h)

/-- SITEBUSY: another region of the partition's context holds a site of the rectangle (R469), or a
resize moves one there (R93). -/
def State.siteBusy (s : State) (q sl ctx : Nat) (l : Rect) : Bool :=
  s.regions.any (fun e => e.1 / 4096 == q && e.1 % 4096 != sl && e.2.onFab && e.2.ctx == ctx && l.meets e.2) ||
    (match s.resize with
     | some z => z.prt == q && z.regions.any (fun e =>
         let r := s.region q e.1
         e.1 != sl && r.ctx == ctx && l.meets { r with x := regionX e.2, y := fld e.2 13 7 })
     | none => false)

/-- A pass-through route of either switch is the same in both (R184). -/
def passSame (a c : SiteCfg) : Bool :=
  [0, 1, 2, 3].all (fun d =>
    let x := if swValid a then swOut a d else 0
    let y := if swValid c then swOut c d else 0
    let thru (n : Nat) : Bool := decide (1 ≤ n) && decide (n ≤ 4)
    (!thru x && !thru y) || x == y)

def shadowRoutes (r : Region) (ps : List Placed) : Bool :=
  ps.all (fun p => passSame (r.site p.site).cfg p.cfg) &&
    r.sites.all (fun e => passSame e.2.cfg (cfgAt ps e.1))

def minIdx (l : List Nat) : Option Nat :=
  l.foldl (fun b i => match b with | none => some i | some m => some (Nat.min m i)) none

/-- The image at `va`: read whole by the loader, or none for BADADDR. -/
def State.readImage (s : State) (a : Agent) (va : Nat) : Option Img :=
  if va % 64 ≠ 0 then none
  else
    match s.agentRead a va 64 with
    | .error _ => none
    | .ok h =>
      let n := leNat ((h.drop 8).take 4)
      if n < 64 then none
      else
        match s.agentRead a va n with
        | .error _ => none
        | .ok b => if headerOk b then some b else none

/-- LOADST and INDEX of a load whose image has been read (R179, R180): the first check that fails. -/
def State.loadStatus (s : State) (l : CfgLoad) (p : Plan) : Nat × Nat :=
  let r := s.region l.prt l.slot
  match minIdx p.bad with
  | some i => (1, i)
  | none =>
    if sitePkg l.origin ≠ s.pkg ∧ !l.shadow then (4, 0)
    else if !s.rectOwned l.prt p then (4, 0)
    else if s.siteBusy l.prt l.slot l.ctx p.rect then (6, 0)
    else
      match p.clash with
      | some j => (2, j)
      | none =>
        if !l.shadow ∧ s.circFree < p.circs.length then (3, 0)
        else if l.shadow ∧ !shadowRoutes r p.sites then (7, 0)
        else if l.shadow ∧ (!r.armed ∨ r.hasShadow ∨ r.rolling ∨ r.w ≠ p.rect.w ∨ r.h ≠ p.rect.h) then (8, 0)
        else (0, 0)

/-! ## What a load leaves -/

/-- A site as a load or a swap leaves it: its configuration, EINIT, the extents of its bases (R163, R305). -/
def freshSite (c : SiteCfg) (ex : List Extent) : Site :=
  let e := c.einit.getD (0, 0, 0)
  { cfg := c, e0 := e.1, e1 := e.2.1, e2 := e.2.2, extents := ex }

def State.loadGen (s : State) (q root : Nat) (u : Seam) : Gen :=
  let g := u.gen
  { g with extents := s.baseExtent (siteDie u.site) q root g.need g.base.toNat }

/-- A fabric-mode tile's bases are translated into its fetch TLB, as a generator's at load (R212). -/
def State.loadMx (s : State) (q ctx : Nat) (asid : W16) (root : Nat) (f : MxFab) : State :=
  let x : Fetcher := ⟨f.cluster, ⟨q, root, true, none⟩, ctx, asid⟩
  [f.aBase.toNat, f.bBase.toNat].foldl (fun s va =>
    if localWin ≤ va ∨ !canonical va then s else (s.tilePage x va).2) s

/-- Bytes a configuration port moves for a plan: patterns, contents and seam-unit entries (R181, R189). -/
def Plan.portBytes (p : Plan) (port : Nat) : Nat :=
  let mine := p.sites.filter (fun e => cfgPortOf e.site == port)
  let ids := (mine.map (·.pat)).foldl (fun (l : List Nat) i => if l.contains i then l else l ++ [i]) []
  ids.foldl (fun n i => n + p.pats.getD i 0) 0 +
    (p.mems.filter (fun m => cfgPortOf m.1 == port)).foldl (fun n m => n + m.2.2.length) 0 +
    64 * (p.seams.filter (fun u => cfgPortOf u.site == port)).length

def Plan.ports (p : Plan) : List Nat :=
  (p.sites.map (fun e => cfgPortOf e.site) ++ p.mems.map (fun m => cfgPortOf m.1) ++
    p.seams.map (fun u => cfgPortOf u.site)).foldl
    (fun (l : List Nat) i => if l.contains i then l else l ++ [i]) []

/-- The region a load leaves, unarmed, its status and counts zero (R179, R182, R187). -/
def State.installRegion (s : State) (l : CfgLoad) (b : Img) (p : Plan) : State :=
  let q := l.prt
  let sites := p.sites.foldl (fun (t : Tbl Site) e => t.put {} e.site (freshSite e.cfg (s.siteExtents q l.root e.site e.cfg))) []
  let gens := (p.seams.filter (fun u => (tileCluster u.site).isNone)).foldl
    (fun (t : Tbl Gen) u => t.put {} u.key (s.loadGen q l.root u)) []
  let mxs := p.seams.filterMap (fun u => (tileCluster u.site).map (fun m => u.mx m))
  let stall := img32 b 16
  let r : Region :=
    { loaded := true, ctx := l.ctx, asid := l.asid, root := l.root, x := p.rect.x, y := p.rect.y
      w := p.rect.w, h := p.rect.h, pi := bitAt (imgW b 4) 16, endq := bitAt (imgW b 4) 17
      stallAt := if stall = 0 then 65536 else stall, sites := sites, gens := gens, mxs := mxs
      wins := p.wins, circs := p.circs }
  let s := { s with circFree := s.circFree - p.circs.length }
  let s := mxs.foldl (fun s f => s.loadMx q l.ctx l.asid l.root f) (s.setRegion q l.slot r)
  p.mems.foldl (fun s m => s.deviceStore (s.tileByte q l.ctx m.1 m.2.1) m.2.2) s

/-- The shadow a CFGSHADOW leaves in every unit of the rectangle (R183). -/
def State.installShadow (s : State) (l : CfgLoad) (p : Plan) : State :=
  let q := l.prt
  let r := s.region q l.slot
  let keys := r.sites.map (·.1) ++ (p.sites.map (·.site)).filter (fun i => !r.sites.any (fun e => e.1 == i))
  let sites := keys.foldl (fun (t : Tbl Site) i =>
    let c := cfgAt p.sites i
    t.put {} i { t.look {} i with shadow := some c, shadowExt := s.siteExtents q r.root i c }) r.sites
  let us := p.seams.filter (fun u => (tileCluster u.site).isNone)
  let gkeys := r.gens.map (·.1) ++ (us.map (·.key)).filter (fun k => !r.gens.any (fun e => e.1 == k))
  let gens := gkeys.foldl (fun (t : Tbl Gen) k =>
    let w : List W32 × W64 := match us.find? (fun u => u.key == k) with
      | some u => (u.ws, u.b0)
      | none => ([], 0)
    let n : Gen := { ws := w.1, base := w.2 }
    t.put {} k { t.look {} k with
      shadow := some w
      shadowExt := if w.1.isEmpty then [] else s.baseExtent (siteDie (k / 4)) q r.root n.need w.2.toNat }) r.gens
  let ms := p.seams.filterMap (fun u => (tileCluster u.site).map (fun m => u.mx m))
  let old := r.mxs.map (fun (f : MxFab) => { f with shadow := some (
    match ms.find? (fun g => g.cluster == f.cluster) with
    | some g => (g.ws, g.aBase, g.bBase)
    | none => ([], 0, 0)) })
  let new := (ms.filter (fun g => !r.mxs.any (fun f => f.cluster == g.cluster))).map
    (fun (g : MxFab) => ({ cluster := g.cluster, shadow := some (g.ws, g.aBase, g.bBase) } : MxFab))
  ms.foldl (fun s f => s.loadMx q r.ctx r.asid r.root f) (s.setRegion q l.slot
    { r with sites := sites, gens := gens, mxs := old ++ new, winsNext := p.wins, hasShadow := true })

/-- The load status word of R398. -/
def loadWord (index st refuse slot : Nat) : W64 :=
  BitVec.ofNat 64 (index % 2 ^ 24 * 2 ^ 40 + st % 16 * 2 ^ 36 + refuse % 16 * 2 ^ 32 + slot % 4096)

/-- CFG_LOADS counts the operation (R189). -/
def CfgRegs.count (c : CfgRegs) (ok : Bool) : CfgRegs :=
  if ok then { c with loaded := Nat.min 0xFFFFFFFF (c.loaded + 1) }
  else { c with refused := Nat.min 0xFFFFFFFF (c.refused + 1) }

/-- Does a load: its LOADST and INDEX, and what they leave. -/
def State.doLoadImage (s : State) (l : CfgLoad) : (Nat × Nat) × State :=
  let a : Agent := ⟨l.prt, l.root, l.user, none⟩
  let r := s.region l.prt l.slot
  let done (st : Nat × Nat) (s : State) : (Nat × Nat) × State :=
    let s := { s with cfg := s.cfg.count (st.1 == 0) }
    let r := s.region l.prt l.slot
    let s := if r.loaded then s.setRegion l.prt l.slot { r with loadst := st.1, index := st.2 } else s
    (st, s.refillPorts)
  let op := if l.shadow then 2 else 1
  -- Bytes a refused load has read by then: R189 does not say how many (log 33).
  let failed (st : Nat × Nat) (s : State) : (Nat × Nat) × State :=
    let (by', s) := s.draw
    done st (s.portOp l.port op l.prt l.slot (by'.toNat % 2 ^ 32) false)
  -- A slot with no armed region has no rectangle to judge an image at (R400).
  if l.shadow ∧ !r.armed then failed (8, 0) s
  else
  match s.readImage a l.image.toNat with
  | none => failed (5, 0) s
  | some b =>
    let x := if l.shadow ∧ r.loaded then r.x else regionX l.origin
    let y := if l.shadow ∧ r.loaded then r.y else fld l.origin 13 7
    let p := s.plan l.prt l.ctx b x y l.shadow
    let st := s.loadStatus l p
    if st.1 = 0 then
      let s := p.ports.foldl (fun s k => s.portOp k op l.prt l.slot (p.portBytes k) false) s
      done st (if l.shadow then s.installShadow l p else s.installRegion l b p)
    else failed st s

end Sys2Proof.Machine
end

