-- ==== Sys2Proof/Machine/MxFabric.lean ====
section
/-!
DEFINITION. K steps of a matrix tile, for its queues or in fabric mode, and the stream a fabric-mode
tile emits (07 R206, R207, R212, 15 R444, R445).
-/

namespace Sys2Proof.Machine

open Sys2Proof

/-- The running region whose configuration puts cluster `m`'s tile in fabric mode. -/
def State.fabTile (s : State) (m : Nat) : Option (Nat × Nat × Region × MxFab) :=
  s.regions.findSome? (fun e =>
    if s.regionRuns (e.1 / 4096) e.2 ∧ s.clockOn (clusterIsland m) then
      (e.2.mxs.find? (fun f => f.cluster == m && decide (f.ws ≠ []))).map
        (fun f => (e.1 / 4096, e.1 % 4096, e.2, f))
    else none)

def Region.setMx (r : Region) (f : MxFab) : Region :=
  { r with mxs := r.mxs.map (fun (x : MxFab) => if x.cluster = f.cluster then f else x) }

/-- After a tile's step. -/
def State.putMx (s : State) (q sl : Nat) (r : Region) (f : MxFab) : State :=
  let s := s.putRegion q sl (r.setMx f)
  let s := s.pokes [.kStepGrant f.cluster, .matrixTileEmit f.cluster]
  if f.flt.due then s.poke (.fabricFault (tileUnit f.cluster) f.flt.code) else s

/-- Rows of A and columns of B of the tile's next K step, read at user privilege (R212). -/
def State.fabFetch (s : State) (q : Nat) (r : Region) (f : MxFab) (g : Fmt) :
    Except (Nat × W64) (List OpRow × List OpRow) × State :=
  let k0 := f.kdone * mxStep g
  s.readStep ⟨f.cluster, ⟨q, r.root, true, none⟩, r.ctx, r.asid⟩ g
    ((f.aBase.toNat + f.tile * f.aStep) % 2 ^ 64, f.aStride)
    ((f.bBase.toNat + f.tile * f.bStep) % 2 ^ 64, f.bStride) f.m f.n k0 (Nat.min (mxStep g) (f.k - k0))

/-- The fault code of R146 a fetch meets: PAGE, or ACCESS with POISON for an uncorrectable error. -/
def fetchFault (cause : Nat) : Flt :=
  { code := if cause = cPAGE then 10 else 11, poison := cause == cMEMERR }

/-- A K step may start: the previous tile's tokens have left (R445). -/
def MxFab.canStep (f : MxFab) : Bool :=
  f.flt.code == 0 && !f.granted && !f.rolled && f.emit.isNone && f.stop.isNone && decide (f.tile < f.tiles)

def State.fabGrant (s : State) (q sl : Nat) (r : Region) (f : MxFab) : State :=
  match mxFmt f.fmt with
  | none => s
  | some g =>
    if !f.canStep then s
    else
      match s.fabFetch q r f g with
      | (.error (c, _), s) => s.putMx q sl r { f with flt := fetchFault c }
      | (.ok x, s) =>
        (s.setRegion q sl (r.setMx { f with granted := true, fetched := some x })).poke (.kStepDone f.cluster)

/-- K_STEP_GRANT (R207, R208, R212): one K step of the tile, for a queue or in fabric mode. -/
def execKStepGrant (m : Nat) (s : State) : Host.Outcome State Fault Refusal :=
  .next (
    match s.fabTile m with
    | some (q, sl, r, f) => s.fabGrant q sl r f
    | none => s.queueGrant m)

def State.fabDone (s : State) (q sl : Nat) (r : Region) (f : MxFab) : State :=
  match mxFmt f.fmt, f.fetched with
  | some g, some (rows, cols) =>
    if !f.granted then s
    else
        let s := s.unpin f.cluster
        let f := { f with fetched := none }
        let c0 := s.accHome (8 * f.cluster + f.core) r.ctx none f.off
        let s := if f.kdone = 0 ∧ f.clear then s.mxClear g c0 f.m f.n else s
        let (s, fl) := s.mxStepAt g f.sat c0 rows cols
        let kd := f.kdone + 1
        let f := if f.k ≤ kd * mxStep g then { f with kdone := 0, granted := false, emit := some (0, 0) }
          else { f with kdone := kd, granted := false }
        s.putMx q sl { r with flags := r.flags ||| fl, stall := false } f
  | _, _ => s

/-- The K step that a region's fabric-mode tile on cluster `m` has been granted ends (R268). -/
def State.fabStepEnd (s : State) (q sl m : Nat) : State :=
  let r := s.region q sl
  match r.mxs.find? (fun f => f.cluster == m) with
  | some f => s.fabDone q sl r f
  | none => s

/-- K_STEP_DONE (R206, R209, R445): the step's sums become visible. -/
def execKStepDone (m : Nat) (s : State) : Host.Outcome State Fault Refusal :=
  .next (
    match s.fabTile m with
    | some (q, sl, r, f) => s.fabDone q sl r f
    | none => s.queueDone m)

/-- The accumulator format of a matrix format. -/
def accFmtOf (g : Fmt) : Fmt := if g = .f64 then .f64 else if g = .i8 then .i32 else .f32

/-- One sum in the output format: SAT saturates every integer conversion (R444), where a drain's saturates
narrower formats alone (R389). -/
def fabElem (f g : Fmt) (rm : Rm) (sat : Bool) (x : Nat) : Nat :=
  if sat && f != g && !f.isFloat && !g.isFloat then FP.wrapInt g.width (FP.clampInt g (FP.readInt f x))
  else drainElem f g rm sat x

/-- The token of row `i` from column `j`: the elements in the output format (R445). -/
def State.fabToken (s : State) (r : Region) (f : MxFab) (g : Fmt) (i j : Nat) : Token :=
  let l := fmtLanes f.outFmt
  let n := Nat.min l (f.n - j)
  let a := s.accHome (8 * f.cluster + f.core) r.ctx none f.off
  let xs := (List.range n).map (fun c =>
    fabElem (accFmtOf g) (fmtOf f.outFmt) f.rm f.sat
      (s.readHome (a + i * accRow g + (j + c) * accBytes g) (accBytes g)))
  tokVal (if n = l then 0 else n) (ofLanes (fmtBits f.outFmt) xs)

/-- MATRIX_TILE_EMIT (R212, R445): the next token of a finished tile reaches the edge switch of
generator 3: a row's tokens, its stop, and D after the last tile. -/
def execMatrixTileEmit (m : Nat) (s : State) : Host.Outcome State Fault Refusal :=
  .next (
    match s.fabTile m with
    | none => s
    | some (q, sl, r, f) =>
      let key := tileGen m
      if f.flt.code ≠ 0 ∨ f.rolled ∨ !r.edgeRoom key then s
      else
        let out (f : MxFab) (t : Token) : State :=
          let (e, d) := genEdge key
          let r := r.setMx f
          ((s.putSite q sl e r ((r.site e).deliver (srcOf d) t)).poke (.matrixTileEmit m)).poke
            (.kStepGrant m)
        match f.stop, f.emit with
        | some 4, _ => out { f with stop := none, dSent := true } tokDone
        | some j, some (i, _) =>
          if j = 0 then out { f with stop := none, emit := some (i + 1, 0) } (tokStop 0)
          else
            let t := f.tile + 1
            out { f with emit := none, tile := t, stop := if f.tiles ≤ t then some 4 else none } (tokStop 1)
        | none, some (i, j) =>
          (match mxFmt f.fmt with
           | none => s
           | some g =>
             let t := s.fabToken r f g i j
             let j' := j + fmtLanes f.outFmt
             if j' < f.n then out { f with emit := some (i, j') } t
             else out { f with stop := some (if i + 1 < f.m then 0 else 1) } t)
        | _, none => s)

end Sys2Proof.Machine
end

