-- ==== Sys2Proof/Machine/FabLife.lean ====
section
/-!
DEFINITION. A region's life: the end of a load and arming (06 R164, R179, R182, 07 R213), the roll
(R183 to R186), Hush (R175 to R178, 05 R128), resuming from faults and moving (09 R264, R265,
04 R91 to R93).
-/

namespace Sys2Proof.Machine

open Sys2Proof

/-! ## Arming (R182, R164) -/

/-- Every queue of the tiles the region names is empty (R213). -/
def State.tilesIdle (s : State) (r : Region) : Bool :=
  r.mxs.all (fun f => f.ws.isEmpty ||
    (List.range 8).all (fun k => ((s.clu f.cluster).queues.look [] k).all (fun c => c.ctx != r.ctx)))

/-- START at every unit; window counters, flags and Hush counts zero; CACHE tiles invalid. -/
def Region.start (r : Region) : Region :=
  { r with
    armed := true, everArmed := true, arming := false, armWait := none, flags := 0, stalls := 0
    stall := false, quiescent := false, touched := [], acted := false, clock := 0
    sites := r.sites.map (fun (e : Nat × Site) => (e.1, { e.2 with started := true, lines := [], miss := [] }))
    wins := r.wins.map (fun (e : Nat × Window) => (e.1, { e.2 with count := 0, due := 0 })) }

/-- A loaded region asks to be armed, for a thread's CFGARM or for the scheduler. -/
def State.askArm (s : State) (q sl : Nat) (who : Option (Nat × Nat)) : State :=
  let r := s.region q sl
  (s.setRegion q sl { r with arming := true, armWait := who }).post (.regionArm q sl)

/-- The launch resolves FAULTED with a reason before any of its units starts (R124, R127). -/
def State.launchFails (s : State) (q sl reason : Nat) : State :=
  let c := s.cntr q 1 sl
  if c.running then
    -- Sites and cores it was to take are free for launches that wait (R127).
    ((s.setCntr q 1 sl { c with out := 0, stop := if c.stop.isSome then c.stop else some (.faulted, reason) }).settle
      q).poke .schedulerDecision
  else s.poke .schedulerDecision

/-- The task packets of a placed launch go to their queues (R128, R133). -/
def State.startTasks (s : State) (q sl : Nat) : State :=
  let r : LaunchRun := (s.prt q).launchRun.look {} sl
  if r.ntask = 0 then s
  else
    match s.agentRead (schedAgent q r.root) r.tasks.toNat (64 * r.ntask) with
    | .error _ => s.launchFails q sl rBADADDR
    | .ok l =>
      let s := s.setPrt q { s.prt q with launchRun := (s.prt q).launchRun.put {} sl { r with ntask := 0 } }
      s.placeTasks q sl ((List.range r.ntask).map (fun i =>
        let pk := (l.drop (64 * i)).take 64
        taskPacket pk q r.ctx r.asid r.root sl ((s.taskTarget q pk).getD none)))

/-- REGION_ARM (R164, R182, R213): once the tiles it names are idle, START reaches every unit and
the waiting CFGARM is answered. -/
def execRegionArm (q sl : Nat) (s : State) : Host.Outcome State Fault Refusal :=
  let r := s.region q sl
  .next (
    if !r.onFab ∨ !r.arming ∨ !s.tilesIdle r ∨ !s.active q r.ctx ∨ !s.prtRuns (some q) then s
    else
      let s := (s.setRegion q sl r.start).wakeRegion q sl
      match r.armWait with
      | some (t, d) => s.finT t (BitVec.ofNat 6 d) 0
      | none => s.startTasks q sl)

/-! ## The end of a load (R179, R398) -/

/-- The configuration port that reports a load's end: that of the origin. -/
def leadPort (origin : W32) : Nat := cfgPortOf (siteIdx (fld origin 23 23) (fld origin 22 14) (fld origin 13 7))

/-- The load's ports work no more. -/
def State.loadPortsDone (s : State) (l : CfgLoad) : State :=
  { s with cfg := { s.cfg with ports := s.cfg.ports.map (fun (e : Nat × CfgPort) =>
    if e.2.busy ∧ e.2.prt = l.prt ∧ e.2.slot = l.slot ∧ e.2.op ≤ 2 then (e.1, { e.2 with busy := false })
    else e) } }

/-- The rectangle a load's image asks for, when its header can be read. -/
def State.loadRect (s : State) (l : CfgLoad) : Option Rect :=
  (s.readImage ⟨l.prt, l.root, l.user, none⟩ l.image.toNat).map
    (fun b => ⟨regionX l.origin, fld l.origin 13 7, img16 b 12, img16 b 14⟩)

/-- A load in progress takes sites of a rectangle for another region of the partition's context (R127). -/
def State.loading (s : State) (q sl ctx : Nat) (l : Rect) : Bool :=
  s.loads.any (fun d => !d.shadow && d.prt == q && d.slot != sl && d.ctx == ctx &&
    match s.loadRect d with
    | some e => l.meets { x := e.x, y := e.y, w := e.w, h := e.h }
    | none => false)

/-- The ports of the rectangle an image asks for; that of the origin where its header cannot be read. -/
def State.loadPorts (s : State) (l : CfgLoad) : List Nat :=
  match s.loadRect l with
  | none => [l.port]
  | some e =>
    let r : Region := { x := e.x, y := e.y, w := e.w, h := e.h }
    (l.port :: r.ports.map (·.1)).eraseDups

/-- A load is handed to the loader: every port of its rectangle works (R189). -/
def State.startLoad (s : State) (l : CfgLoad) : State :=
  ((s.loadPorts l).foldl (fun (s : State) p => s.portOp p (if l.shadow then 2 else 1) l.prt l.slot 0 true)
    { s with loads := s.loads ++ [l] }).post (.configLoadComplete l.port)

/-- A running resize takes the block from the partition. -/
def State.departing (s : State) (q n : Nat) : Bool :=
  match s.resize with
  | some z => z.prt == q && s.ownsBlock q n && !bitAt z.blk n
  | none => false

/-- A running resize takes blocks of a region, or moves it or has moved it: a thread's load, ROLL or CFGPATCH for it
waits until COMMIT (R420). -/
def State.reshaped (s : State) (q sl : Nat) : Bool :=
  (s.region q sl).blocks.any (s.departing q) ||
    (match s.resize with
     | some z => z.prt == q && (z.regions.any (fun e => e.1 == sl) || z.gone.contains sl)
     | none => false)

/-- The blocks of a thread's load are being taken (R420). -/
def State.loadHeld (s : State) (l : CfgLoad) : Bool :=
  !l.sched && (s.reshaped l.prt l.slot ||
    match s.loadRect l with
    | some e => !l.shadow && e.blocks.any (s.departing l.prt)
    | none => false)

/-- CONFIG_LOAD_COMPLETE (R179, R181): the checks, the load, and its status to the thread that
waits, or to the scheduler, which arms the region or resolves its launch FAULTED with IMAGE. A load
whose thread or launch has been stopped leaves nothing; one stands still in a halted package (R420). -/
def execConfigLoadComplete (p : Nat) (s : State) : Host.Outcome State Fault Refusal :=
  .next (
    match s.loads.find? (fun l => l.port == p) with
    | none => s
    | some l =>
      if s.loadHeld l ∨ !s.prtRuns (some l.prt) ∨ !s.clockOn (20 * (p / 256) + 18) then s
      else
      let s := { s with loads := s.loads.erase l }
      let s := s.loadPortsDone l
      let c := s.cntr l.prt 1 l.slot
      if l.sched then
        if c.stop.isSome ∨ !c.running then
          s.launchFails l.prt l.slot rCANCEL
        else
          let (st, s) := s.doLoadImage l
          if st.1 = 0 then s.askArm l.prt l.slot none
          else s.launchFails l.prt l.slot rIMAGE
      else
        match l.waiter with
        | none => s
        | some (t, d) =>
          let (st, s) := s.doLoadImage l
          let s := if st.1 = 0 ∧ !l.shadow then s.unitAdd l.prt l.slot else s
          ((s.finT t (BitVec.ofNat 6 d) (loadWord st.2 st.1 0 l.slot)).pokeCtx l.prt).poke .schedulerDecision)

/-! ## The roll (R183 to R186) -/

/-- A site takes its shadow configuration, with the extents of the shadow load, and starts as if by START (R141,
R154, R159, R183, R247). A ROLL that already waits at one of its ports meets a site with no shadow (R186). -/
def swapSite (x : Site) (start : Bool) : Site :=
  match x.shadow with
  | none => x
  | some c =>
    let y := freshSite c x.shadowExt
    let keepRing := x.cfg.role == 2 && c.role == 2 && x.cfg.tCap == c.tCap
    let roll := [0, 1, 2].filterMap (fun p =>
      ((x.buf (p + 4)).findIdx? Token.isRoll).map (fun i => (p, i)))
    let late (z : Site) : Site := match roll with | (p, i) :: _ => z.fail 5 p i | [] => z
    late { y with
      a := x.a, b := x.b, c := x.c, hn := x.hn, he := x.he, hs := x.hs, hw := x.hw
      e0 := if c.einit.isSome then y.e0 else x.e0
      e1 := if c.einit.isSome then y.e1 else x.e1
      e2 := if c.einit.isSome then y.e2 else x.e2
      lastA := streamLast x.a, lastB := streamLast x.b, lastC := streamLast x.c
      tickets := x.tickets, replies := x.replies, held := x.held
      old := if x.held.isEmpty then none else some x.cfg
      head := if keepRing then x.head else 0
      tail := if keepRing then x.tail else 0
      started := start }

def Gen.swap (g : Gen) : Gen :=
  match g.shadow with
  | none => g
  | some (ws, base) =>
    let n : Gen := { ws := ws, base := base }
    { n with inbox := g.inbox, last := streamLast g.inbox
             extents := if ws.isEmpty then [] else g.shadowExt }

/-- The copies of a replicated operator swap with it (R153, R185). -/
def Region.swapCopies (r : Region) (i : Nat) : Region :=
  { r with sites := r.sites.map (fun (e : Nat × Site) =>
      if e.2.cfg.copyOf.any (fun c => c.1 == i) && e.2.shadow.isSome then (e.1, swapSite e.2 true)
      else e) }

/-- Windows of a store generator that swaps: the shadow image's, from 0 (R174). -/
def Region.swapWins (r : Region) (key : Nat) : Region :=
  let its (w : Window) : Bool := 4 * w.site + w.gen == key
  let old := r.wins.filter (fun e => !its e.2)
  let new := r.winsNext.filter (fun e => its e.2)
  { r with wins := new.foldl (fun (t : Tbl Window) e => t.ins e.1 { e.2 with count := 0, due := 0 }) old
           winsNext := r.winsNext.filter (fun e => !its e.2) }

/-- Tiles that a unit which has not swapped names: RMW elements, fibre units and generators that
read through a CACHE tile (R185). -/
def Region.namedTiles (r : Region) : List Nat :=
  r.sites.filterMap (fun e =>
    let c := e.2.cfg
    if e.2.shadow.isNone ∨ e.2.rolled then none
    else
      match siteBlock e.1 with
      | none => none
      | some b =>
        if c.kind = 1 ∧ oOp c.op = 0x21 then some (tileSite b (c.modOf 0 % 16))
        else if c.kind = 3 ∧ c.fCache then some (tileSite b c.fTile)
        else none) ++
  r.gens.filterMap (fun e =>
    if e.2.shadow.isNone ∨ e.2.rolled ∨ e.2.ws.isEmpty ∨ !e.2.cache then none
    else (siteBlock (genEdge e.1).1).map (fun b => tileSite b e.2.tile))

/-- A tile no route enters and no unit names any more swaps (R185). -/
def Region.swapIdleTiles (r : Region) : Region :=
  let named := r.namedTiles
  { r with sites := r.sites.map (fun (e : Nat × Site) =>
      if e.2.cfg.kind = 2 ∧ e.2.shadow.isSome ∧ e.2.cfg.routed.isEmpty ∧ !named.contains e.1 then
        (e.1, swapSite e.2 true) else e) }

/-- Every named source has emitted ROLL. -/
def Region.sourcesRolled (r : Region) : Bool :=
  !r.sites.any (fun e => e.2.rollReq) && !r.gens.any (fun e => e.2.rollReq)

/-- Units newly used by the shadow start once every named source has emitted ROLL; ROLLING clears
when every unit has swapped (R185). -/
def Region.rollEnd (r : Region) : Region :=
  let r := if r.rolling ∧ r.sourcesRolled then
    { r with
      sites := r.sites.map (fun (e : Nat × Site) => (e.1, { e.2 with started := true }))
      gens := r.gens.map (fun (e : Nat × Gen) => if e.2.shadow.isNone then (e.1, { e.2 with rolled := false }) else e)
      mxs := r.mxs.map (fun (f : MxFab) => if f.shadow.isNone then { f with rolled := false } else f) }
    else r
  if r.rolling && !r.sites.any (fun e => e.2.shadow.isSome) && !r.gens.any (fun e => e.2.shadow.isSome) &&
      !r.mxs.any (fun f => f.shadow.isSome) then
    { r with rolling := false, hasShadow := false, winsNext := [] }
  else r

/-- After swaps: the ROLL instruction is answered when its sources have emitted ROLL (R401). -/
def State.afterSwap (s : State) (q sl : Nat) (r : Region) : State :=
  let r := r.swapIdleTiles.rollEnd
  match (if r.sourcesRolled then r.rollWait else none) with
  | some (t, d) =>
    (((s.putRegion q sl { r with rollWait := none }).wakeRegion q sl).finT t (BitVec.ofNat 6 d) 0).pokeCtx q
  | none => (s.putRegion q sl r).wakeRegion q sl

/-- SITE_SWAP (R185): the units at a site that have taken or emitted ROLL take their shadow
configuration. -/
def execSiteSwap (i : Nat) (s : State) : Host.Outcome State Fault Refusal :=
  .next (
    match s.unitAt i with
    | none => s
    | some (q, sl, r, x) =>
      let due := x.rolled && x.shadow.isSome && x.res.isEmpty
      let keys := (List.range 4).map (4 * i + ·)
      let gens := keys.filter (fun k => let g := r.gen k; g.rolled && g.shadow.isSome && g.inbox.isEmpty)
      if !due && gens.isEmpty then s
      else
        let r := if due then (r.setSite i (swapSite x true)).swapCopies i else r
        let r := gens.foldl (fun (r : Region) k =>
          (r.setGen k (r.gen k).swap).swapWins k) r
        s.afterSwap q sl r)

/-- The sites that swap when the ROLL instruction issues (R185): those UNUSED in the running
configuration; a newly used unit with no used input waits for the sources. -/
def Region.rollIssue (r : Region) : Region :=
  let free (c : SiteCfg) : Bool :=
    (c.kind == 1 && c.usedPorts.isEmpty) || (c.kind == 3 && c.fPorts.isEmpty)
  let r := { r with
    rolling := true
    sites := r.sites.map (fun (e : Nat × Site) =>
      match e.2.shadow with
      | some c => if e.2.cfg.kind = 0 then (e.1, swapSite e.2 (!free c)) else e
      | none => e)
    mxs := r.mxs.map (fun (f : MxFab) =>
      match f.shadow with
      | some (ws, a, b) => if f.ws.isEmpty then
          { f with ws := ws, aBase := a, bBase := b, shadow := none, rolled := true } else f
      | none => f) }
  (r.gens.filter (fun e => e.2.ws.isEmpty && e.2.shadow.isSome)).foldl (fun (r : Region) e =>
    let g := e.2.swap
    (r.setGen e.1 { g with rolled := g.isLoad }).swapWins e.1) r

/-! ## Hush (R175 to R178, R164, R128) -/

/-- FINISH of a unit (R164). -/
def Site.finished (x : Site) : Bool :=
  let c := x.cfg
  match c.kind with
  | 1 => c.copyOf.isSome || x.finA
  | 2 =>
    match c.role with
    | 1 => (swIn c 0 == 0 || x.finA) && (swIn c 1 == 0 || x.finB)
    | 2 => (swIn c 0 == 0 || x.finB) && ((swDests c 5).isEmpty || x.finA)
    | _ => true
  | 3 => x.finA
  | _ => true

def Region.finished (r : Region) : Bool :=
  r.sites.all (fun e => e.2.finished) && r.gens.all (fun e => e.2.ws.isEmpty || e.2.dSent) &&
    r.mxs.all (fun f => f.ws.isEmpty || f.dSent)

/-- An element with no used input may fire at any time (R148). -/
def Region.selfFiring (r : Region) : Bool :=
  r.sites.any (fun e => e.2.cfg.kind == 1 && e.2.cfg.copyOf.isNone && e.2.cfg.usedPorts.isEmpty &&
    e.2.started && !e.2.rolled && e.2.flt.code == 0)

/-- R178: at the end of an ENDQ region every window is published once more. -/
def Region.publishAll (r : Region) : Region :=
  { r with wins := r.wins.map (fun (e : Nat × Window) =>
      (e.1, { e.2 with count := e.2.count + BitVec.ofNat 32 (e.2.due + 1), due := 0 })) }

/-- HUSH_SWEEP (R176): with every count zero the region is quiescent; a quiescent region whose units
have finished, or an ENDQ region at its first report, ends DONE, its stores visible to both dies (R237). A region with tokens where nothing
has changed since the last sweep stalls. -/
def execHushSweep (q sl : Nat) (s : State) : Host.Outcome State Fault Refusal :=
  let r := s.region q sl
  .next (
    if !s.regionRuns q r then s
    else if r.tokens = 0 ∧ r.memReqs = 0 ∧ !r.selfFiring then
      let r := { r with touched := [], acted := false, quiescent := true }
      let ends (r : Region) : State :=
        (((s.setRegion q sl r).releaseAt 0 4).releaseAt 1 4).regionUnitEnd q sl .done 0
      if r.endq then ends r.publishAll
      else if r.finished ∧ r.wins.all (fun e => e.2.due == 0) then ends r
      else s.setRegion q sl r
    else if r.acted ∨ r.touched ≠ [] then
      (s.setRegion q sl { r with touched := [], acted := false }).poke (.hushSweep q sl)
    else if 0 < r.tokens then s.poke (.hushStall q sl)
    else s)

/-- A ticket of the region is held by an escape thread. -/
def Region.ticketHeld (r : Region) : Bool :=
  r.sites.any (fun e => e.2.tickets.any (fun k => k.2.st == 1 && k.2.asked))

/-- HUSH_STALL (R177): tokens are present and nothing has fired for the threshold: STALL is set and
counted, and comparators of class 6 see it, with CODE 0 since R71 names no code for a stall (log 52).
What the region has done since the sweep that asked for it begins the threshold anew. -/
def execHushStall (q sl : Nat) (s : State) : Host.Outcome State Fault Refusal :=
  let r := s.region q sl
  .next (
    if !s.regionRuns q r ∨ r.tokens = 0 ∨ r.acted ∨ r.touched ≠ [] ∨ r.ticketHeld ∨ r.stall then s
    else
      (s.setRegion q sl { r with stall := true, stalls := Nat.min 255 (r.stalls + 1) }).debugEvent 6 0
        (some (fabSite s.pkg (siteAt r.x r.y) 0)))

/-! ## Moving a region (R91 to R94) -/

/-- The origins a whole-block shift of a rectangle can have, lowest block number first (R93). -/
def shiftOrigins (l : Rect) : List (Nat × Nat) :=
  let spans := decide (l.x < 368) && decide (368 < l.x + l.w)
  let col := l.x % 368
  (List.range 272).filterMap (fun n =>
    let die := n / 136
    let x := 368 * die + 22 * (n % 17) + col % 22
    let y := 16 * (n % 136 / 17) + l.y % 16
    if x / 368 ≠ die ∨ (spans ∧ x ≠ l.x) ∨ (!spans ∧ 368 * (die + 1) < x + l.w) ∨ 128 < y + l.h then none
    else some (x, y))

/-- R93: the rectangle at a target is the partition's, in the new shape too, and free. -/
def State.targetFree (s : State) (q sl ctx : Nat) (l : Rect) : Bool :=
  l.onPackage && l.blocks.all (s.mayPlace q) && !s.siteBusy q sl ctx l && !s.loading q sl ctx l

/-- The target of lowest block number (R93). -/
def State.pickTarget (s : State) (q sl ctx : Nat) (l : Rect) : Option (Nat × Nat) :=
  (shiftOrigins l).find? (fun o => s.targetFree q sl ctx { l with x := o.1, y := o.2 })

def Region.rect (r : Region) : Rect := ⟨r.x, r.y, r.w, r.h⟩

/-- The region with its units at another origin. -/
def Region.movedTo (r : Region) (x y : Nat) : Region :=
  let f (i : Nat) : Nat := siteAt (siteX i + x - r.x) (siteRow i + y - r.y)
  let cfg (c : SiteCfg) : SiteCfg := { c with copyOf := c.copyOf.map (fun p => (f p.1, p.2)) }
  { r with
    x := x, y := y
    sites := r.sites.map (fun (e : Nat × Site) =>
      (f e.1, { e.2 with cfg := cfg e.2.cfg, shadow := e.2.shadow.map cfg }))
    gens := r.gens.map (fun (e : Nat × Gen) => (4 * f (e.1 / 4) + e.1 % 4, e.2))
    mxs := r.mxs.map (fun (m : MxFab) =>
      match tileCluster (f (tileUnit m.cluster)) with
      | some k => { m with cluster := k }
      | none => m)
    wins := r.wins.map (fun (e : Nat × Window) => (e.1, { e.2 with site := f e.2.site }))
    winsNext := r.winsNext.map (fun (e : Nat × Window) => (e.1, { e.2 with site := f e.2.site }))
    circs := r.circs.map (fun (c : Circuit) => { c with src := f c.src, dst := f c.dst }) }

/-- The tickets of the region name its new sites, and its transcendental requests their columns. -/
def State.moveNames (s : State) (q sl : Nat) (old : Region) (x y : Nat) : State :=
  let f (i : Nat) : Nat := siteAt (siteX i + x - old.x) (siteRow i + y - old.y)
  let held (h : Held) : Held := if h.prt = q ∧ h.slot = sl then { h with site := f h.site } else h
  let pk (p : Packet) : Packet := { p with held := p.held.map held }
  let mine (e : TransReq) : Bool := e.key == rgnKey q sl
  let waits := s.trans.flatMap (fun (u : Nat × Trans) => u.2.wait.flatMap (fun (l : Nat × List TransReq) => l.2.filter mine))
  let runs := s.trans.flatMap (fun (u : Nat × Trans) => u.2.run.filter mine)
  let mv (e : TransReq) : TransReq := { e with site := f e.site }
  let cleared := s.trans.map (fun (u : Nat × Trans) => (u.1, { u.2 with
    run := u.2.run.filter (fun e => !mine e)
    wait := u.2.wait.map (fun (l : Nat × List TransReq) => (l.1, l.2.filter (fun e => !mine e))) }))
  let t1 := (runs.map mv).foldl (fun (t : Tbl Trans) e =>
    let u := t.look {} (siteX e.site)
    t.ins (siteX e.site) { u with run := u.run ++ [e] }) cleared
  let t2 := (waits.map mv).foldl (fun (t : Tbl Trans) e =>
    let u := t.look {} (siteX e.site)
    let b := siteRow e.site / 16
    t.ins (siteX e.site) { u with wait := u.wait.put [] b (u.wait.look [] b ++ [e]) }) t1
  { s with
    trans := t2
    threads := s.threads.map (fun (e : Nat × Thread) => (e.1, { e.2 with held := e.2.held.map held }))
    cores := s.cores.map (fun (e : Nat × Core) => (e.1, { e.2 with queue := e.2.queue.map pk }))
    prts := s.prts.map (fun (e : Nat × Prt) => (e.1, { e.2 with pending := e.2.pending.map pk })) }

/-- Tile sites of a rectangle. -/
def Rect.tiles (l : Rect) : List Nat :=
  (l.blocks.flatMap (fun b => (List.range 16).map (tileSite b))).filter (fun t =>
    decide (l.x ≤ siteX t) && decide (siteX t < l.x + l.w) && decide (l.y ≤ siteRow t) &&
      decide (siteRow t < l.y + l.h))

/-- Writes saved tile contents into the region's shares at its present place. -/
def State.putTiles (s : State) (q : Nat) (r : Region) (cells : List Host.Cell) (full : Tbl FullBit) : State :=
  let sh := s.tileShare q r.ctx
  let s := r.rect.tiles.foldl (fun s t => s.zeroRange (tileAddr t + sh.1) (tileAddr t + sh.1 + sh.2)) s
  let addr (k : Nat) : Nat :=
    tileAddr (siteAt (r.x + k / 2 ^ 24) (r.y + k / 2 ^ 17 % 128)) + k % 2 ^ 17
  { s with mem := cells.foldl (fun m c => Memory.set m (addr c.1) c.2) s.mem
           full := full.foldl (fun (t : Tbl FullBit) e => t.put .unset (addr e.1 / 8) e.2) s.full }

/-- Moves a whole region: units, tiles' shares, tickets, requests; extents are repatched (R91). -/
def State.moveRegion (s : State) (q sl x y : Nat) : State :=
  let r := s.region q sl
  let (cells, full) := s.tileCells q r
  let old := s.tileShare q r.ctx
  let s := r.rect.tiles.foldl (fun s t => s.zeroRange (tileAddr t + old.1) (tileAddr t + old.1 + old.2)) s
  let n := s.repatch q (r.movedTo x y)
  let s := (s.moveNames q sl r x y).setRegion q sl n
  s.putTiles q n cells full

/-! ## Relocation entries (R83) -/

/-- The entry of the relocation table a new one takes: a free one, or that of the launch resolved
earliest (R83). -/
def Prt.relocSlot (p : Prt) : Nat :=
  match (List.range 64).find? (fun i => !(p.reloc.look {} i).valid) with
  | some i => i
  | none =>
    ((List.range 64).foldl (fun (b : Option Nat) i =>
      let e := p.reloc.look {} i
      if e.core || e.live then b
      else
        match b with
        | none => some i
        | some j => if e.doneSeq < (p.reloc.look {} j).doneSeq then some i else some j) none).getD 0

def State.addReloc (s : State) (q : Nat) (e : Reloc) : State :=
  let (id, s) := s.newId
  let p := s.prt q
  let e : Reloc := { e with valid := true, live := true, seq := id + 1 }
  s.setPrt q { p with reloc := p.reloc.put {} p.relocSlot e }

/-- The launch's region has an entry for the rectangle at `old`: a move from there composes with it and uses no
new one (R83). -/
def Prt.entryOf (p : Prt) (sl : Nat) (old : W32) : Bool :=
  p.reloc.any (fun e => e.2.valid && e.2.live && !e.2.core && e.2.launch == sl && e.2.old == old)

/-- The relocation entries of a region `r` of launch `sl` that has moved to the origin `w`: every rectangle it
has occupied leads to the one it occupies now (R83, R94). -/
def State.regionEntry (s : State) (q sl : Nat) (r : Region) (w : W32) : State :=
  let p := s.prt q
  let old := fabSite s.pkg (siteAt r.x r.y) 0
  let s := s.setPrt q { p with reloc := p.reloc.map (fun (e : Nat × Reloc) =>
    if e.2.valid && e.2.live && !e.2.core && e.2.launch == sl then (e.1, { e.2 with new := w }) else e) }
  if p.entryOf sl old then s
  else s.addReloc q { core := false, launch := sl, width := r.w, height1 := r.h - 1, old := old, new := w }

/-! ## Resuming (R264, R265) -/

def Flt.retryable (f : Flt) : Bool := f.code == 0 || f.code == 10 || f.code == 11
def Flt.retry (f : Flt) : Flt := if f.retryable then {} else f

/-- Every fault of the region may be retried, and one is present. -/
def Region.retryable (r : Region) : Bool :=
  r.sites.all (fun e => e.2.flt.retryable) && r.gens.all (fun e => e.2.flt.retryable) &&
    r.mxs.all (fun f => f.flt.retryable)

def Region.retry (r : Region) : Region :=
  { r with
    faulted := false, clock := 0
    sites := r.sites.map (fun (e : Nat × Site) => (e.1, { e.2 with flt := e.2.flt.retry }))
    gens := r.gens.map (fun (e : Nat × Gen) => (e.1, { e.2 with flt := e.2.flt.retry }))
    mxs := r.mxs.map (fun (f : MxFab) => { f with flt := f.flt.retry }) }

/-- FRACK_RESUME (R264, R265): a saved region is to be placed again; a region frozen by PAGE or
ACCESS alone retries its accesses; otherwise nothing happens. -/
def execFrackResume (q : Nat) (v : W64) (s : State) : Host.Outcome State Fault Refusal :=
  let sl := fld v 11 0
  let r := s.region q sl
  .next (
    if !bitAt v 63 ∨ !r.loaded then s
    else if r.savedAt.isSome then (s.setRegion q sl { r with reload := true }).post (.regionReload q sl)
    else if r.clock = 1 ∧ r.retryable then (s.setRegion q sl r.retry).wakeRegion q sl
    else s)

/-- REGION_RELOAD (R265): once its old rectangle, or for an ANYPLACE launch a target of R93, is free,
the region is reloaded there, its extents repatched, and its clock restarts; the save space is freed. One
reloaded at a target of R93 takes a relocation entry as a moved region does. -/
def execRegionReload (q sl : Nat) (s : State) : Host.Outcome State Fault Refusal :=
  let r := s.region q sl
  .next (
    if !r.reload ∨ r.savedAt.isNone ∨ !s.active q r.ctx ∨ !s.prtRuns (some q) then s
    else
      let lr : LaunchRun := (s.prt q).launchRun.look {} sl
      let place := if lr.anyplace ∧ lr.region then s.pickTarget q sl r.ctx r.rect
        else if s.targetFree q sl r.ctx r.rect then some (r.x, r.y) else none
      match place with
      | none => s
      | some (x, y) =>
        let n := s.repatch q ((r.movedTo x y).retry)
        let n := { n with savedAt := none, reload := false, tileMem := [], tileFull := [] }
        let s := s.moveNames q sl r x y
        let s := s.setPrt q { s.prt q with saved := (s.prt q).saved.filter (fun e => e.1 != sl) }
        let s := (s.setRegion q sl n).putTiles q n r.tileMem r.tileFull
        let s := if x = r.x ∧ y = r.y then s
          else s.regionEntry q sl r (fabSite s.pkg (siteAt x y) 0)
        let s := s.regionPorts q sl 4 n
        s.wakeRegion q sl)

end Sys2Proof.Machine
end

