-- ==== Sys2Proof/Machine/Sync.lean ====
section
/-!
DEFINITION. Synchronisation instructions (14 R376 to R384) and the delivery of messages
(05 R135, R136).
-/

namespace Sys2Proof.Machine

open Sys2Proof

/-! ## Acting for a thread that another block answers -/

/-- Runs an operation with thread `t` as the current one. -/
def State.asThread (s : State) (t : Nat) (f : State → State) : State :=
  { f { s with tid := t } with tid := s.tid }

/-- The thread's instruction, which waited in MEMORY, is done. -/
def State.replyTo (s : State) (t : Nat) : State :=
  if (s.thread t).st = .memory then s.replyGo t else s

/-- Drops the name from the cluster's endpoint cache. -/
def State.forgetName (s : State) (m q : Nat) (name : W32) : State :=
  let cl := s.clu m
  if cl.epCache.any (fun e => e.1 == epKey q name) then
    s.setClu m { cl with epCache := cl.epCache.drop (epKey q name) }
  else s

/-- SEND traps STALE, and its cluster's cache entry for the name goes, or QOVF; TVAL is the name (R136). -/
def State.sendTrap (s : State) (w : W32) (cause : Nat) (name : W32) : State :=
  (if cause = cSTALE then s.forgetName (slotOf s.tid / 128) s.thr.prt name else s).takeTrap w cause (name.setWidth 64) 0

/-- The SEND of thread `t` ends with a trap, which waits while the thread is halted (R73). -/
def State.sendFails (s : State) (t cause : Nat) (name : W32) : State :=
  if s.heldUp t then s.setThread t { s.thread t with lateTrap := some (cause, name) }
  else s.asThread t (fun s => s.sendTrap s.thr.word cause name)

/-- Threads that run again get the replies and traps held for them (R73). -/
def State.takeHeldReplies (s : State) : State :=
  let s := s.takeLate
  s.threads.foldl (fun s e =>
    match e.2.lateTrap with
    | some (cause, name) =>
      if s.heldUp e.1 then s
      else (s.setThread e.1 { s.thread e.1 with lateTrap := none }).sendFails e.1 cause name
    | none => s) s

/-! ## Windows (R377) -/

/-- `(count − n) mod 2^32 < 2^31`. -/
def reached (count n : W32) : Bool := decide ((count - n).toNat < 2 ^ 31)

/-- WAITW (R377): 0 OK and an acquire, 1 NOWIN, 2 ENDED; otherwise BLOCKED. -/
def execWaitw (a b c : GReg) (s : State) : Host.Outcome State Fault Refusal :=
  let sel := s.g a
  let slot := fld sel 11 0
  let r := s.region s.thr.prt slot
  let w := r.wins.look {} (fld sel 18 16)
  let ended := !(s.cntr s.thr.prt 1 slot).running
  .next (
    if r.everArmed && !w.decl then s.fin c 1
    else if r.everArmed && reached w.count ((s.g b).setWidth 32) then (s.acquire 4).fin c 0
    else if ended then s.fin c 2
    else s.waitIn .blocked true)

/-! ## Counter words (R378 to R381) -/

/-- A level selector: non-canonical with [63:56] = 1 (R378). -/
def isSelector (x : W64) : Bool := fld x 63 56 == 1

/-- CNTADD (R379): one atomic wrapping add, released at MSCOPE. -/
def execCntadd (a b c : GReg) (s : State) : Host.Outcome State Fault Refusal :=
  let w := wordOf (.cntadd a b c)
  let ea := s.g a
  let k : AccKind := { rd := true, wr := true, atomic := true, counter := true }
  .next (
    if isSelector ea then s.takeTrap w cACCESS ea k.detail
    else s.atomically w k ea.toNat 8 (fun p s =>
      let x := s.g b
      let d := s.thr.gDest c
      let s := ((s.performOverlap s.tid [p]).release s.thr.scope).homeAccess (s.tid / 128) p
      let old := s.readHome p.pa 8
      let s := s.writeHome p.pa 8 (amoNew .add 8 old x.toNat)
      let s := s.releaseAt (clusterDie (s.tid / 128)) s.thr.scope
      (s.setThr (s.thr.setDest d (BitVec.ofNat 256 old))).afterAtomic p false))

/-- CNTWAIT of a level selector (R380). -/
def State.cntwaitLevel (s : State) (sel n : W64) (c : GReg) : State :=
  let q := s.thr.prt
  let lvl := fld sel 14 12
  let i := fld sel 11 0
  if lvl < 1 ∨ 4 < lvl ∨ fileSize lvl ≤ i then s.fin c 0
  else
    let x := s.cntr q lvl i
    if x.resolved then
      let x := { x with read := true }
      let s := (s.setCntr q lvl i x).acquire 5
      let s := if lvl = 1 then s.pokeReads q else s
      s.fin c x.word
    else if decide (x.st = .free) || (bitAt n 16 && decide (x.gen ≠ n.setWidth 16)) then
      (s.acquire 5).fin c x.word
    else s.waitIn .blocked true

/-- CNTWAIT (R380): on a counter word the thread waits at the word's home. -/
def execCntwait (a b c : GReg) (s : State) : Host.Outcome State Fault Refusal :=
  let ea := s.g a
  let n := s.g b
  .next (
    if isSelector ea then s.cntwaitLevel ea n c
    else s.atomically (wordOf (.cntwait a b c)) { rd := true, counter := true } ea.toNat 8
      (fun p s =>
        let s := s.performOverlap s.tid [p]
        (s.waitHome .blocked ⟨s.tid, ea.toNat, p.pa, p, true, .cntwait n (s.thr.gDest c), s.thr.rlx⟩).serveWord p.pa))

/-- The arrival of BAR (R381): one atomic step at the home, released at MSCOPE. -/
def State.barArrive (s : State) (ea : W64) (n : Nat) (p : Part) : State :=
  let s := (s.performOverlap s.tid [p]).release s.thr.scope
  if s.thr.arrived ∧ s.thr.arrWord = ea then s
  else
    let s := s.homeAccess (s.tid / 128) p
    let w := s.readHome p.pa 8
    let gen := w / 2 ^ 32
    let s := s.setThr { s.thr with arrived := true, arrWord := ea, arrGen := BitVec.ofNat 32 gen }
    let w' := if n ≤ w % 2 ^ 32 + 1 then (gen + 1) % 2 ^ 32 * 2 ^ 32 else w + 1
    (s.writeHome p.pa 8 w').releaseAt (clusterDie (s.tid / 128)) s.thr.scope

/-- BAR (R381): the arrival, then the wait for the next generation. -/
def execBar (a b : GReg) (s : State) : Host.Outcome State Fault Refusal :=
  let w := wordOf (.bar a b)
  let ea := s.g a
  let n := Nat.max 1 (fld (s.g b) 31 0)
  let k : AccKind := { rd := true, wr := true, atomic := true, counter := true }
  .next (
    if isSelector ea then s.takeTrap w cACCESS ea k.detail
    else s.atomically w k ea.toNat 8 (fun p s =>
      let s := s.barArrive ea n p
      (s.waitHome .blocked ⟨s.tid, ea.toNat, p.pa, p, true, .bar s.thr.arrGen, s.thr.rlx⟩).serveWord p.pa))

/-! ## SEND (R136, R382) -/

/-- The CORE word a cluster resolves a name to: its endpoint cache, else the directory. -/
def State.resolveName (s : State) (m q : Nat) (name : W32) : Option (W32 × State) :=
  let cl := s.clu m
  match cl.epCache.find? (fun e => e.1 == epKey q name) with
  | some e => some (BitVec.ofNat 32 e.2, s)
  | none =>
    match s.epLook q name with
    | none => none
    | some (_, core, _) =>
      some (BitVec.ofNat 32 core,
        s.setClu m { cl with epCache := cl.epCache.ins (epKey q name) (core % 2 ^ 32) })

/-- SEND to a core of another package (R382): LOW-LATENCY, in the domain of the sender. -/
def State.sendRemote (s : State) (w name : W32) (core : W32) (w0 w1 : W64) : State :=
  let p := s.prt s.thr.prt
  if !p.domValid then s.sendTrap w cSTALE name
  else
    let (id, s) := s.newId
    let s := { s with lnk := { s.lnk with reqs := s.lnk.reqs ++ [RReq.mk id none s.tid] } }
    let s := (s.waitIn .memory false)
    let s := s.setThr { s.thr with word := w }
    s.sendFlit none (mkFlit s.pkg (sitePkg core) p.domain.toNat .lowLatency
      (.message name core w0 w1 (slotSite s.pkg (slotOf s.tid)) id 0))

/-- SEND (R382): released at MSCOPE, then the message leaves; the thread waits in MEMORY. -/
def execSend (a b c : GReg) (s : State) : Host.Outcome State Fault Refusal :=
  let w := wordOf (.send a b c)
  let name : W32 := (s.g a).setWidth 32
  let w0 := s.g b
  let w1 := s.g c
  let s := s.release s.thr.scope
  let q := s.thr.prt
  .next (
    if fld (s.prt q).epdir 4 0 = 0 then s.sendTrap w cSTALE name
    else
      match s.resolveName (s.tid / 128) q name with
      | none => s.sendTrap w cSTALE name
      | some (core, s) =>
        if sitePkg core ≠ s.pkg then s.sendRemote w name core w0 w1
        else
          match s.coreOf q core with
          | none => s.sendTrap w cSTALE name
          | some k =>
            let s := s.waitIn .memory false
            let s := s.setThr { s.thr with word := w }
            s.sendMsg { id := 0, prt := q, name := name, w0 := w0, w1 := w1, core := k, hops := 0
                        sender := some s.tid, site := slotSite s.pkg (slotOf s.tid)
                        asid := s.thr.asid, root := s.thr.root, remote := none, ret := 0 })

/-! ## Delivery and return (R136) -/

/-- The home address of entry `i` of a receive queue (R383). -/
def State.rqEntry (s : State) (c x : Nat) (rq : RecvQ) (i : Nat) : Nat :=
  poolBase c + (s.pw c x).scr + rq.base + 16 * i

def rqIdx (x n : Nat) : Nat := 16 * x + n

def RecvQ.full (r : RecvQ) : Bool := (r.tail + 1) % (r.cap + 1) == r.head

/-- Removes a message and tells its sender that it has been delivered. -/
def State.delivered (s : State) (m : Msg) : State :=
  let s := { s with msgs := s.msgs.filter (fun x => x.id != m.id) }
  match m.sender, m.remote with
  | some t, _ => s.replyTo t
  | none, some (pkg, req) => s.sendFrom m.prt pkg .lowLatency (.delivered req)
  | none, none => s

/-- The message goes back to its sender: 1 STALE, 2 QOVF. -/
def State.returned (s : State) (m : Msg) (ret : Nat) : State :=
  { s with msgs := s.msgs.map (fun (x : Msg) => if x.id = m.id then { x with ret := ret } else x) }.post
    (.messageReturn m.id)

/-- A message at a core that holds its name: a task or a queue entry (R136, R193, R383). -/
def State.deliver (s : State) (m : Msg) (w0 pc : Nat) : State :=
  let q := m.prt
  let ctx := (s.prt q).ctxActive
  if nbit w0 33 then
    let pk : Packet :=
      { kind := .message, pc := BitVec.ofNat 64 pc
        regs := gRegs [(1, m.w0.toNat), (2, m.w1.toNat), (3, 0xFFFF), (5, m.site.toNat)]
        target := some m.core, prio := nfld w0 35 34, prt := q, ctx := ctx, asid := m.asid
        root := m.root }
    -- Neither delivered nor returned while queue and buffer are full: it waits (R133, R136).
    if s.hasPlace pk then (s.place pk).delivered m else s
  else
    let n := nfld w0 51 48
    let k := s.core m.core
    let rq := k.rq.look {} (rqIdx ctx n)
    if !rq.enable || rq.full then s.returned m 2
    else
      let a := s.rqEntry m.core ctx rq rq.tail
      let s := s.deviceStore a (leBytes 16 (m.w0.toNat + 2 ^ 64 * m.w1.toNat))
      let s := s.setCore m.core
        { k with rq := k.rq.put {} (rqIdx ctx n) { rq with tail := (rq.tail + 1) % (rq.cap + 1) } }
      let s := s.waitiEvent 1 (fun t th => slotOf t / 16 == m.core && th.ctx == ctx)
      s.delivered m

/-- A stub leads a message on, one hop more, to a core of this package or of another (R135, R136). Its
sender awaits the answer of that package as of the first. -/
def State.forward (s : State) (m : Msg) (dest : W32) : State :=
  if sitePkg dest = s.pkg then
    match s.coreOf m.prt dest with
    | none => s.returned m 1
    | some c =>
      { s with msgs := s.msgs.map (fun (y : Msg) => if y.id = m.id then
          { y with hops := m.hops + 1, core := c } else y) }.post (.messageDelivery m.id)
  else if !(s.prt m.prt).domValid then s.returned m 1
  else
    let s := { s with msgs := s.msgs.filter (fun y => y.id != m.id) }
    let go (s : State) (src req : Nat) : State :=
      s.sendFlit none { mkFlit s.pkg (sitePkg dest) (s.prt m.prt).domain.toNat .lowLatency
        (.message m.name dest m.w0 m.w1 m.site req (m.hops + 1)) with src := src }
    match m.sender, m.remote with
    | some t, _ =>
      let (id, s) := s.newId
      go { s with lnk := { s.lnk with reqs := s.lnk.reqs ++ [RReq.mk id none t] } } s.pkg id
    | none, some (pkg, req) => go s pkg req
    | none, none => s

/-- MESSAGE_DELIVERY (R136): a task, a queue entry, another hop through a stub, or a return. Only a core
of the partition holds its names (R80). -/
def execMessageDelivery (id : Nat) (s : State) : Host.Outcome State Fault Refusal :=
  .next (
    match s.msgs.find? (fun m => m.id == id && m.ret == 0) with
    | none => s
    | some m =>
      -- Across dies it waits for the bridge's clock (R20, R30).
      if !s.bridged (match m.sender with | some t => clusterDie (slotOf t / 128) | none => 9) (clusterDie (m.core / 8)) then s
      else
      let held :=
        match s.epLook m.prt m.name with
        | some (w0, core, pc) =>
          if s.coreOf m.prt (BitVec.ofNat 32 core) = some m.core ∧ s.cluOwner (m.core / 8) = some m.prt then
            some (w0, pc)
          else none
        | none => none
      match held with
      | some (w0, pc) => s.deliver m w0 pc
      | none =>
        match (s.prt m.prt).stubs.reverse.find? (fun x => x.name == m.name && x.old == m.core) with
        | some x =>
          if m.hops < 3 then s.forward m x.new else s.returned m 1
        | none => s.returned m 1)

/-- MESSAGE_RETURN (R136): the SEND traps STALE, and the cache entry goes, or QOVF. -/
def execMessageReturn (id : Nat) (s : State) : Host.Outcome State Fault Refusal :=
  .next (
    match s.msgs.find? (fun m => m.id == id && m.ret != 0) with
    | none => s
    | some m =>
      let s := { s with msgs := s.msgs.filter (fun x => x.id != id) }
      match m.sender, m.remote with
      | some t, _ =>
        s.sendFails t (if m.ret = 1 then cSTALE else cQOVF) m.name
      | none, some (pkg, req) => s.sendFrom m.prt pkg .lowLatency (.returned m.name req (m.ret == 2))
      | none, none => s)

/-! ## RECV (R383) -/

/-- The entry at HEAD goes to g[b] and g[c]; HEAD advances; an acquire at MSCOPE. -/
def State.takeRecv (s : State) (c x n : Nat) (rq : RecvQ) (b d : GReg) : State :=
  let a := s.rqEntry c x rq rq.head
  let w0 := BitVec.ofNat 64 (s.readHome a 8)
  let w1 := BitVec.ofNat 64 (s.readHome (a + 8) 8)
  let k := s.core c
  let s := s.setCore c
    { k with rq := k.rq.put {} (rqIdx x n) { rq with head := (rq.head + 1) % (rq.cap + 1) }
             recvWait := k.recvWait.filter (fun w => w.2 != s.tid) }
  (((s.acquire s.thr.scope).setG b w0).setG d w1).adv

/-- RECV (R383): waiters on one queue are served in arrival order. -/
def execRecv (a b c : GReg) (s : State) : Host.Outcome State Fault Refusal :=
  let n := fld (s.g a) 3 0
  let x := s.thr.ctx
  let core := s.tid / 16
  let k := s.core core
  let rq := k.rq.look {} (rqIdx x n)
  let key := rqIdx x n
  let first := k.recvWait.find? (fun w => w.1 == key)
  let mine := match first with | none => true | some w => w.2 == s.tid
  .next (
    if !rq.enable then
      (s.withdraw s.tid).takeTrap (wordOf (.recv a b c)) cACCESS (BitVec.ofNat 64 n) 0
    else if rq.head != rq.tail && mine then s.takeRecv core x n rq b c
    else
      let s := if k.recvWait.any (fun w => w.2 == s.tid) then s
        else s.setCore core { k with recvWait := k.recvWait ++ [(key, s.tid)] }
      s.waitIn .blocked true)

/-! ## UIRET (R384) -/

/-- UIRET: to UIEPC with the relaxed count saved at entry; ILL outside a handler. -/
def execUiret (s : State) : Host.Outcome State Fault Refusal :=
  let th := s.thr
  .next (
    if !th.uiin then s.illegal (wordOf .uiret)
    else s.setThr { th with pc := th.uiepc, rlx := Nat.min 8 th.uiRlx.toNat, uiin := false
                            sup := th.sup || th.uiSup, uiSup := false, st := .ready })

end Sys2Proof.Machine
end

