-- ==== Sys2Proof/Machine/Sched.lean ====
section
/-!
DEFINITION. The scheduler: records (05 R118 to R122), starting jobs, phases, graphs and launches
(R125 to R127), arbitration (R129), task queues (R132, R133), gang phases (R137, R138), endpoints
(R135), the SCH_ page (R139), and the scheduling instructions (14 R405 to R409).
-/

namespace Sys2Proof.Machine

open Sys2Proof

/-! ## Records -/

/-- The scheduler starts nothing while the package is halted, or while the partition's context is
being swapped (R73, R270). -/
def State.schedRuns (s : State) (q : Nat) : Bool :=
  (s.prt q).exist && (s.prt q).ctxState != 1 && s.prtRuns (some q)

/-- An aligned record read by the scheduler; none for BADADDR. -/
def State.schedRead (s : State) (q root va align n : Nat) : Option (List Byte) :=
  if va % align ≠ 0 then none
  else match s.agentRead (schedAgent q root) va n with | .ok l => some l | .error _ => none

/-- The word of a record that was not started: FAULTED with its reason (R124). -/
def failWord (reason : Nat) : W64 := BitVec.ofNat 64 (reason * 2 ^ 56 + statCode .faulted * 2 ^ 53)

/-- A counter of an entry that is not started takes FAULTED where it was reusable (R124). -/
def State.failCounter (s : State) (q lvl i reason : Nat) : State :=
  let c := s.cntr q lvl i
  if c.reusable then
    (s.setCntr q lvl i { c.start 0 with st := .faulted, reason := reason }).debugEvent 4 reason none
  else s

/-! ## Launch records (R121) -/

structure LaunchRec where
  prio   : Nat
  wb     : Bool
  any    : Bool
  image  : W64
  origin : W32
  tasks  : W64
  ntask  : Nat
  deps   : Nat
  deriving DecidableEq, Repr

def launchRec (l : List Byte) : LaunchRec :=
  { prio := q8 l 0 % 4, wb := nbit (q8 l 0) 2, any := nbit (q8 l 0) 3
    image := BitVec.ofNat 64 (q8 l 8), origin := BitVec.ofNat 32 (q8 l 16)
    tasks := BitVec.ofNat 64 (q8 l 24), ntask := q8 l 32 % 65536, deps := q8 l 40 }

/-- Every reserved bit of the record is zero. -/
def launchOk (l : List Byte) : Bool :=
  q8 l 0 / 16 == 0 && q8 l 16 / 2 ^ 32 == 0 && q8 l 32 / 65536 == 0 && q8 l 48 == 0

/-- Whether the addresses of the record are aligned and mapped (BADADDR otherwise). -/
def State.launchAddrs (s : State) (q root : Nat) (r : LaunchRec) : Bool :=
  (r.image == 0 || (s.schedRead q root r.image.toNat 64 64).isSome) &&
    (r.ntask == 0 || (s.schedRead q root r.tasks.toNat 64 (64 * r.ntask)).isSome)

/-- The reason a record is not started for what it holds: BADREC before BADADDR. DESIGN CHOICE (log
62): a record with NTASK above 0 and TASKS 0, which R121 calls none, is BADREC. -/
def State.launchReject (s : State) (q root : Nat) (l : List Byte) : Option Nat :=
  let r := launchRec l
  if !launchOk l ∨ (r.ntask ≠ 0 ∧ r.tasks = 0) then some rBADREC
  else if !s.launchAddrs q root r then some rBADADDR
  else none

/-- One dependence field: none for BADDEP. In an array, positions name earlier records and graphs; one
that has resolved is judged by its status, since its counter may run again for another (R127). -/
def depField (x : Nat) (slots graphs : List (Option (Nat × Option Bool))) (array : Bool) :
    Option (List Dep) :=
  let any := nbit x 15
  let lv := x / 2 ^ 12 % 8
  let i := x % 4096
  let named (l : List (Option (Nat × Option Bool))) : Option (List Dep) :=
    match l[i]? with
    | none => none
    | some none => some [⟨any, 0, 0⟩]
    | some (some (k, none)) => some [⟨any, lv, k⟩]
    | some (some (_, some ok)) => some (if ok then [] else [⟨any, 0, 0⟩])
  match lv with
  | 0 => some []
  | 1 => if array then named slots else some [⟨any, 1, i⟩]
  | 2 => if array then named graphs else if i < 256 then some [⟨any, 2, i⟩] else none
  | _ => none

def depList (x : Nat) (slots graphs : List (Option (Nat × Option Bool))) (array : Bool) :
    Option (List Dep) :=
  (List.range 4).foldl (fun acc j =>
    match acc, depField (x / 2 ^ (16 * j) % 65536) slots graphs array with
    | some l, some d => some (l ++ d)
    | _, _ => none) (some [])

/-- Where a record came from. -/
structure From where
  graph : Nat
  va    : Nat
  asid  : W16
  root  : Nat
  ctx   : Nat
  deriving DecidableEq, Repr

/-- An accepted record takes the next ring slot (R126): its counter runs, what an earlier launch left
in the slot goes, and bytes 56 to 63 of the record are written (R121). A bad dependence resolves the
launch FAULTED. -/
def State.acceptLaunch (s : State) (q : Nat) (f : From) (r : LaunchRec) (deps : Option (List Dep)) : State :=
  let p := s.prt q
  let sl := p.nextSlot
  let c := (p.cntr 1 sl).start ((if r.image = 0 then 0 else 1) + r.ntask)
  let c := if deps.isNone then { c with out := 0, stop := some (.faulted, rBADDEP) } else c
  let run : LaunchRun :=
    { st := .waiting, graph := f.graph, prio := r.prio, wb := r.wb, recVa := BitVec.ofNat 64 f.va
      anyplace := r.any, image := r.image, origin := r.origin, tasks := r.tasks, ntask := r.ntask
      deps := deps.getD [], asid := f.asid, root := f.root, ctx := f.ctx }
  let p := (p.setCntr 1 sl c)
  let p := { p with
    nextSlot := (sl + 1) % 4096
    launchRun := p.launchRun.put {} sl run
    reloc := p.reloc.map (fun (e : Nat × Reloc) =>
      if !e.2.core && !e.2.live && e.2.launch == sl then (e.1, { e.2 with valid := false }) else e) }
  let s := (s.setPrt q p).setRegion q sl {}
  match s.writeBack q f.root (f.va + 56) (launchWord sl c.word) with
  | some s' => s'
  | none => s

/-- Writes the status of a record that was not started, under WB. -/
def State.launchStatus (s : State) (q root va : Nat) (wb : Bool) (reason : Nat) : State :=
  if wb then
    match s.writeBack q root (va + 56) (launchWord 0 (failWord reason)) with
    | some s' => s'
    | none => s
  else s

/-! ## Jobs (R54, R55, R118, R125) -/

/-- The reason a job record is rejected. -/
def State.jobReject (s : State) (q : Nat) (l : List Byte) : Option Nat :=
  let w := q8 l 0
  let root := q8 l 24
  if w / 64 % 1024 ≠ 0 ∨ w / 2 ^ 22 ≠ 0 ∨ root % 4096 ≠ 0 ∨ root / 2 ^ 52 ≠ 0 ∨ q8 l 32 / 65536 ≠ 0 ∨
      q8 l 40 ≠ 0 ∨ q8 l 48 ≠ 0 ∨ q8 l 56 ≠ 0 then some rBADREC
  else if !(s.cntr q 4 (w % 16)).reusable then some rCNTBUSY
  else if !s.inPrtMem q root 2048 ∨ q8 l 8 % 32 ≠ 0 ∨ (nbit w 5 ∧ q8 l 16 % 8 ≠ 0) then some rBADADDR
  else none

/-- JOB_RECORD_TAKE (R55, R125): the record at HEAD is read and HEAD advances; the job starts, or its
rejection is counted and written under WB. -/
def execJobRecordTake (vf : Nat) (s : State) : Host.Outcome State Fault Refusal :=
  let v : Vf := s.hif.vfs.look {} vf
  let q := v.prt
  .next (
    if !v.enable ∨ v.head = v.tail ∨ !s.schedRuns q then s
    else
      let size := fld v.jqsize 16 0
      let a := fld v.jqbase 51 12 * 4096 + 64 * v.head
      let v' : Vf := { v with head := (v.head + 1) % size }
      let setV (s : State) (v : Vf) : State := { s with hif := { s.hif with vfs := s.hif.vfs.put {} vf v } }
      let s := setV s v'
      let s := if v'.head = v'.tail then s else s.post (.jobRecordTake vf)
      let bad (s : State) : State := setV s { v' with badrec := Nat.min 255 (v'.badrec + 1) }
      match (if s.inPrtMem q a 64 then s.memHome q a else none) with
      | none => bad s
      | some h =>
        if s.poisoned h 64 then bad s
        else
          let l := Memory.readList s.mem h 64
          let w := q8 l 0
          let root := q8 l 24 / 4096 % 2 ^ 40 * 4096
          match s.jobReject q l with
          | some reason =>
            let s := bad s
            if nbit w 5 then
              match s.writeBack q root (q8 l 16) (failWord reason) with
              | some s' => s'
              | none => s
            else s
          | none =>
            let j := w % 16
            let n := w / 2 ^ 16 % 64 + 1
            let s := s.setCntr q 4 j ((s.cntr q 4 j).start n)
            let p := s.prt q
            let run : JobRun :=
              { notify := nbit w 4, wb := nbit w 5, vf := vf, nphase := n, phases := BitVec.ofNat 64 (q8 l 8)
                status := BitVec.ofNat 64 (q8 l 16), root := root, asid := BitVec.ofNat 16 (q8 l 32)
                ctx := p.ctxActive, next := 0 }
            (s.setPrt q { p with jobRun := p.jobRun.put {} j run }).post (.phaseStart q j))

/-! ## Phases and graphs (R119, R120, R125, R137) -/

/-- A gang message to every other member (R137); a partition without a domain sends none (R38). -/
def State.toMembers (s : State) (q : Nat) (members : BitVec 256) (p : Payload) : State :=
  (List.range 256).foldl (fun s m =>
    if bitAt members m ∧ m ≠ s.pkg then s.sendFrom q m .control p else s) s

/-- GRAPH_START (R125): entry `j` of a phase's table: the graph's counter runs, or the entry counts
as a child that FAULTED. -/
def State.graphStart (s : State) (q ph root gva j : Nat) : State :=
  let note (s : State) (g : Option Nat) : State :=
    let p := s.prt q
    let g := g.map (fun k => (k, none))
    let r : PhaseRun := p.phaseRun.look {} ph
    s.setPrt q { p with phaseRun := p.phaseRun.put {} ph { r with graphOf := r.graphOf ++ [g] } }
  let fail (s : State) (reason : Nat) : State := note (s.childDone q 3 ph .faulted reason) none
  match s.schedRead q root (gva + 16 * j) 16 16 with
  | none => fail s rBADADDR
  | some l =>
    let w := q8 l 0
    let g := w % 256
    let n := w / 2 ^ 16 % 2 ^ 13
    if w / 256 % 256 ≠ 0 ∨ w / 2 ^ 29 ≠ 0 ∨ n < 1 ∨ 4096 < n then fail (s.failCounter q 2 g rBADREC) rBADREC
    else if !(s.cntr q 2 g).reusable then fail s rCNTBUSY
    else if q8 l 8 % 64 ≠ 0 then fail (s.failCounter q 2 g rBADADDR) rBADADDR
    else
      let s := s.setCntr q 2 g ((s.cntr q 2 g).start n)
      let p := s.prt q
      let run : GraphRun := { phase := ph, pos := j, launches := BitVec.ofNat 64 (q8 l 8), nlaunch := n }
      note ((s.setPrt q { p with graphRun := p.graphRun.put {} g run }).post (.launchRecordRead q g)) (some g)

/-- A phase that is not started counts as FAULTED, and later phases never start (R125). -/
def State.phaseFails (s : State) (q job reason : Nat) : State :=
  let c := (s.cntr q 4 job).child .faulted reason
  ((s.setCntr q 4 job { c with out := 0 })).settle q

/-- R137 step 4 and step 5: the phase becomes GANG_SHORT and its graphs are cancelled. -/
def State.gangShort (s : State) (q ph : Nat) : State :=
  let c := s.cntr q 3 ph
  let p := s.prt q
  let r : PhaseRun := p.phaseRun.look {} ph
  let s := s.setPrt q { p with phaseRun := p.phaseRun.put {} ph { r with armed := false, short := true } }
  let s := s.setCntr q 3 ph { c with stop := if c.stop.isSome then c.stop else some (.gangShort, rGANG) }
  (((s.prt q).graphsOf 3 ph).foldl (fun s g => s.cancelLevel q 2 g .cancelled rCANCEL) s).settle q

/-- The held entry of a gang tag (R137 step 2). -/
def Prt.gangHeld (p : Prt) (tag : W32) : GangHold :=
  (p.gangs.find? (fun g => g.tag == tag)).getD ⟨tag, 0, false⟩

/-- R137 steps 1 to 3 and 5 at a phase's start; whether its graphs start. -/
def State.gangStart (s : State) (q ph : Nat) : Bool × State :=
  let p := s.prt q
  let r : PhaseRun := p.phaseRun.look {} ph
  let h := p.gangHeld r.tag
  let self : BitVec 256 := BitVec.ofNat 256 (2 ^ s.pkg)
  let acks := (self ||| h.acks) &&& (r.members ||| self)
  let r := { r with acks := acks, armed := decide (acks ≠ r.members) && !h.cancel, short := h.cancel }
  let s := s.setPrt q { p with gangs := p.gangs.filter (fun g => g.tag != r.tag)
                               phaseRun := p.phaseRun.put {} ph r }
  let s := s.toMembers q r.members (.gangAck r.tag s.pkg)
  if h.cancel then
    let c := s.cntr q 3 ph
    (false, (s.setCntr q 3 ph { c with out := 0, stop := some (.gangShort, rGANG) }).settle q)
  else (true, s)

/-- The job's next phase may start: no phase of it runs (R125). -/
def State.phaseDue (s : State) (q job : Nat) : Bool :=
  let c := s.cntr q 4 job
  let r : JobRun := (s.prt q).jobRun.look {} job
  c.running && c.stop.isNone && decide (r.next < r.nphase) &&
    !(s.prt q).cnt.phases.any (fun e => e.2.running && ((s.prt q).phaseRun.look {} e.1).job == job)

/-- PHASE_START (R125, R137): the next entry of the job's phase table is read, its counter runs, and
every graph of it starts together. -/
def execPhaseStart (q job : Nat) (s : State) : Host.Outcome State Fault Refusal :=
  .next (
    if !s.schedRuns q ∨ !s.phaseDue q job ∨ !s.active q ((s.prt q).jobRun.look {} job).ctx then s
    else
      let p := s.prt q
      let jr : JobRun := p.jobRun.look {} job
      let k := jr.next
      let s := s.setPrt q { p with jobRun := p.jobRun.put {} job { jr with next := k + 1 } }
      match s.schedRead q jr.root (jr.phases.toNat + 32 * k) 32 32 with
      | none => s.phaseFails q job rBADADDR
      | some l =>
        let w := q8 l 0
        let ph := w % 64
        let gang := nbit w 6
        let n := w / 2 ^ 16 % 256 + 1
        let w2 := q8 l 16
        let members :=
          if gang then (s.schedRead q jr.root (q8 l 24) 64 32).map (fun b => BitVec.ofNat 256 (leNat b))
          else some 0
        let fail (s : State) (reason : Nat) : State := (s.failCounter q 3 ph reason).phaseFails q job reason
        if w / 128 % 512 ≠ 0 ∨ w / 2 ^ 24 ≠ 0 ∨ w2 / 65536 % 65536 ≠ 0 then fail s rBADREC
        else if !(s.cntr q 3 ph).reusable then s.phaseFails q job rCNTBUSY
        else
          match members with
          | none => fail s rBADADDR
          | some ms =>
            if gang ∧ !bitAt ms s.pkg then fail s rBADREC
            else if q8 l 8 % 16 ≠ 0 then fail s rBADADDR
            else
              let s := s.setCntr q 3 ph ((s.cntr q 3 ph).start n)
              let p := s.prt q
              let dl := w2 % 65536
              let run : PhaseRun :=
                { job := job, pos := k, gang := gang, tag := BitVec.ofNat 32 (w2 / 2 ^ 32)
                  deadline := if dl = 0 then 500 else dl, members := ms, membersVa := BitVec.ofNat 64 (q8 l 24)
                  graphs := BitVec.ofNat 64 (q8 l 8), ngraph := n }
              let s := s.setPrt q { p with phaseRun := p.phaseRun.put {} ph run }
              let (go, s) := if gang then s.gangStart q ph else (true, s)
              if go then ((List.range n).foldl (fun s j => s.graphStart q ph jr.root (q8 l 8) j) s).settle q
              else s)

/-- LAUNCH_RECORD_READ (R125, R126): the next record of a graph's array is read; it takes a ring slot,
or counts in the graph as FAULTED. Reading stops while the next slot is not reusable. -/
def execLaunchRecordRead (q g : Nat) (s : State) : Host.Outcome State Fault Refusal :=
  let p := s.prt q
  let gr : GraphRun := p.graphRun.look {} g
  let c := s.cntr q 2 g
  .next (
    let pr : PhaseRun := p.phaseRun.look {} gr.phase
    let jr : JobRun := p.jobRun.look {} pr.job
    if !s.schedRuns q ∨ !c.running ∨ c.stop.isSome ∨ gr.nlaunch ≤ gr.next ∨ !(s.cntr q 1 p.nextSlot).reusable ∨
        !s.active q jr.ctx then s
    else
      let va := gr.launches.toNat + 64 * gr.next
      let note (s : State) (x : Option Nat) : State :=
        let p := s.prt q
        let x := x.map (fun k => (k, none))
        let gr : GraphRun := { gr with next := gr.next + 1, slotOf := gr.slotOf ++ [x] }
        let s := s.setPrt q { p with graphRun := p.graphRun.put {} g gr }
        if gr.next < gr.nlaunch then s.post (.launchRecordRead q g) else s
      let fail (s : State) (reason : Nat) : State := ((note s none).childDone q 2 g .faulted reason).settle q
      match s.schedRead q jr.root va 64 64 with
      | none => fail s rBADADDR
      | some l =>
        let r := launchRec l
        match s.launchReject q jr.root l with
        | some reason => fail (s.launchStatus q jr.root va r.wb reason) reason
        | none =>
          let sl := p.nextSlot
          let deps := depList r.deps gr.slotOf (pr.graphOf.take gr.pos) true
          let s := s.acceptLaunch q ⟨g, va, jr.asid, jr.root, jr.ctx⟩ r deps
          ((note s (some sl)).settle q).poke .schedulerDecision)

/-! ## Arbitration and placement (R127, R129) -/

/-- What placing a ready launch meets now. -/
inductive Placing where
  | wait
  | fail (reason : Nat)
  /-- Its region goes to this origin; none with no region. -/
  | go (origin : Option (Nat × Nat))

/-- R133, R122: the packets of the launch's TASKS array. -/
def State.tasksReason (s : State) (q : Nat) (r : LaunchRun) : Option Nat :=
  if r.ntask = 0 then none
  else
    match s.schedRead q r.root r.tasks.toNat 64 (64 * r.ntask) with
    | none => some rBADADDR
    | some l =>
      let pks := (List.range r.ntask).map (fun i => (l.drop (64 * i)).take 64)
      if !pks.all taskOk then some rBADREC
      else if pks.any (fun pk => s.taskTarget q pk == some none) then some rOUTSIDE
      else none

def State.placing (s : State) (q sl : Nat) (r : LaunchRun) : Placing :=
  match s.tasksReason q r with
  | some reason => .fail reason
  | none =>
    if r.image = 0 then .go none
    else
      let x := regionX r.origin
      let y := fld r.origin 13 7
      match s.schedRead q r.root r.image.toNat 64 64 with
      | none => .fail rIMAGE
      | some h =>
        let l : Rect := ⟨x, y, img16 h 12, img16 h 14⟩
        if r.anyplace then
          if !bitAt (imgW h 4) 16 then .fail rIMAGE
          else
            match s.pickTarget q sl r.ctx { l with x := 0, y := 0 } with
            | some o => .go (some o)
            | none => .wait
        else if sitePkg r.origin ≠ s.pkg ∨ !l.onPackage ∨ !l.blocks.all (s.ownsBlock q) then .fail rOUTSIDE
        else if !l.blocks.all (s.mayPlace q) ∨ s.siteBusy q sl r.ctx l ∨ s.loading q sl r.ctx l then .wait
        else .go (some (x, y))

/-- A launch comes before another: priority, then time ready, then ring order, which is taken as the slot's
number, across the ring's wrap too (DESIGN CHOICE, log 64). -/
def LaunchRun.before (a b : Nat × LaunchRun) : Bool :=
  decide (b.2.prio < a.2.prio) ||
    (a.2.prio == b.2.prio && (decide (a.2.readySeq < b.2.readySeq) ||
      (a.2.readySeq == b.2.readySeq && decide (a.1 < b.1))))

/-- Inserts in that order. -/
def insertLaunch (x : Nat × LaunchRun) : List (Nat × LaunchRun) → List (Nat × LaunchRun)
  | [] => [x]
  | y :: r => if LaunchRun.before x y then x :: y :: r else y :: insertLaunch x r

/-- The ready launches of the active context, in the order they are taken. -/
def State.readyLaunches (s : State) (q : Nat) : List (Nat × LaunchRun) :=
  let p := s.prt q
  (p.launchRun.filter (fun e => decide (e.2.st = .ready) && e.2.ctx == p.ctxActive &&
    (p.cntr 1 e.1).running && (p.cntr 1 e.1).stop.isNone)).foldl (fun l e => insertLaunch e l) []

/-- The first launch that can be placed, or resolved at once; a launch passed over 4,096 times bars
those behind it. -/
def State.pickLaunch (s : State) (q : Nat) : List (Nat × LaunchRun) → Option (Nat × LaunchRun × Placing)
  | [] => none
  | e :: r =>
    match s.placing q e.1 e.2 with
    | .wait => if 4096 ≤ e.2.passed then none else s.pickLaunch q r
    | x => some (e.1, e.2, x)

/-- The partition has a placeable ready launch. -/
def State.qualifies (s : State) (q : Nat) : Bool :=
  s.schedRuns q && (s.pickLaunch q (s.readyLaunches q)).isSome

/-- R129: the partition served next, and whether a new round begins. Of several of weight 0, as within a round,
the one of the lowest PRTID is next (DESIGN CHOICE, logs 31 and 64). -/
def State.pickPrt (s : State) : Option (Nat × Bool) :=
  let cands := (s.prts.map (·.1)).filter s.qualifies
  let heavy := cands.filter (fun q => (s.prt q).schWeight != 0)
  match heavy with
  | [] => cands.head?.map (fun q => (q, false))
  | h :: _ =>
    match heavy.find? (fun q => decide ((s.prt q).decided < (s.prt q).schWeight.toNat)) with
    | some q => some (q, false)
    | none => some (h, true)

/-- Starts the units of a launch at an origin, when it has a region. -/
def State.placeLaunch (s : State) (q sl : Nat) (r : LaunchRun) (o : Option (Nat × Nat)) : State :=
  let p := s.prt q
  let s := s.setPrt q { p with launchRun := p.launchRun.put {} sl { r with st := .placed, region := o.isSome } }
  match o with
  | some (x, y) =>
    let w := fabSite s.pkg (siteAt x y) 0
    s.startLoad { port := leadPort w, prt := q, ctx := r.ctx, asid := r.asid, root := r.root, slot := sl
                  shadow := false, image := r.image, user := false, origin := w, waiter := none, sched := true }
  | none => (s.startTasks q sl).settle q

/-- SCHEDULER_DECISION (R127, R129): one arbitration decision. -/
def execSchedulerDecision (s : State) : Host.Outcome State Fault Refusal :=
  .next (
    match s.pickPrt with
    | none => s
    | some (q, fresh) =>
      match s.pickLaunch q (s.readyLaunches q) with
      | none => s
      | some (sl, r, x) =>
        let ready := s.readyLaunches q
        let before := ready.takeWhile (fun e => e.1 != sl)
        let s := if fresh then { s with prts := s.prts.map (fun (e : Nat × Prt) => (e.1, { e.2 with decided := 0 })) }
          else s
        let p := s.prt q
        let p := { p with
          decided := p.decided + 1
          launchRun := p.launchRun.map (fun (e : Nat × LaunchRun) =>
            if e.1 ≠ sl ∧ ready.any (fun z => z.1 == e.1) then
              (e.1, { e.2 with waited := e.2.waited + 1
                               passed := if before.any (fun z => z.1 == e.1) then e.2.passed + 1 else e.2.passed })
            else e) }
        let s := s.setPrt q p
        let s := (p.launchRun.filter (fun e => decide (e.2.st = .ready) && decide (4096 ≤ e.2.waited) &&
          decide (e.2.prio < 3))).foldl (fun s e => s.poke (.launchPromote q e.1)) s
        let s := match x with
          | .fail reason => s.launchFails q sl reason
          | .go o => s.placeLaunch q sl r o
          | .wait => s
        s.poke .schedulerDecision)

/-- LAUNCH_PROMOTE (R129): a launch that has waited ready through 4,096 decisions rises by one. -/
def execLaunchPromote (q sl : Nat) (s : State) : Host.Outcome State Fault Refusal :=
  let p := s.prt q
  let r : LaunchRun := p.launchRun.look {} sl
  .next (
    if r.st = .ready ∧ 4096 ≤ r.waited ∧ r.prio < 3 then
      s.setPrt q { p with launchRun := p.launchRun.put {} sl { r with prio := r.prio + 1, waited := 0 } }
    else s)

/-! ## Gang messages (R137) -/

/-- GANG_DEADLINE (R137 step 4): CANCEL to every other member, and the phase is short. The timer of a
halted package does not run (R73). -/
def execGangDeadline (q ph : Nat) (s : State) : Host.Outcome State Fault Refusal :=
  let r : PhaseRun := (s.prt q).phaseRun.look {} ph
  .next (
    if (s.cntr q 3 ph).running ∧ r.gang ∧ r.armed ∧ s.prtRuns (some q) then
      (s.toMembers q r.members (.gangCancel r.tag)).gangShort q ph
    else s)

/-- The running gang phases of a tag. -/
def Prt.gangPhases (p : Prt) (tag : W32) : List Nat :=
  (p.cnt.phases.filter (fun e => e.2.running &&
    (let r : PhaseRun := p.phaseRun.look {} e.1
     r.gang && r.tag == tag))).map (·.1)

/-- Holds an ACK or CANCEL for a tag with no running phase: 64 tags, the oldest evicted first. -/
def Prt.hold (p : Prt) (h : GangHold) : Prt :=
  if p.gangs.any (fun g => g.tag == h.tag) then
    { p with gangs := p.gangs.map (fun (g : GangHold) =>
      if g.tag = h.tag then { g with acks := g.acks ||| h.acks, cancel := g.cancel || h.cancel } else g) }
  else { p with gangs := (p.gangs ++ [h]).drop (p.gangs.length - 63) }

/-- GANG_ACK_RECEIVE (R137 steps 2, 3). -/
def execGangAckReceive (q : Nat) (tag : W32) (member : Nat) (s : State) : Host.Outcome State Fault Refusal :=
  let p := s.prt q
  let bit : BitVec 256 := BitVec.ofNat 256 (2 ^ (member % 256))
  .next (
    if !p.exist then s
    else
      match p.gangPhases tag with
      | [] => s.setPrt q (p.hold ⟨tag, bit, false⟩)
      | ps => s.setPrt q (ps.foldl (fun (p : Prt) i =>
          let r : PhaseRun := p.phaseRun.look {} i
          let acks := r.acks ||| (bit &&& r.members)
          { p with phaseRun := p.phaseRun.put {} i { r with acks := acks, armed := r.armed && acks != r.members } }) p))

/-- GANG_CANCEL_RECEIVE (R137 step 5). One that finds no phase of its tag here is held, one whose phase has
resolved too, and stops a phase that takes the tag later (DESIGN CHOICE, log 64). -/
def execGangCancelReceive (q : Nat) (tag : W32) (s : State) : Host.Outcome State Fault Refusal :=
  let p := s.prt q
  .next (
    if !p.exist then s
    else
      match p.gangPhases tag with
      | [] => s.setPrt q (p.hold ⟨tag, 0, true⟩)
      | ps => ps.foldl (fun s i => s.gangShort q i) s)

/-! ## Task queues (R132) -/

/-- The packet a free slot takes: the head of the highest non-empty level of the active context. -/
def State.nextPacket (s : State) (c q : Nat) : Option Packet :=
  let l := (s.core c).queue.filter (fun pk => pk.ctx == (s.prt q).ctxActive && pk.prt == q)
  [3, 2, 1, 0].findSome? (fun v => l.find? (fun pk => pk.prio == v))

/-- A row of the drain at the head of the core's queue waits for a slot: it comes ahead of every queued
task (R193). -/
def State.rowWaits (s : State) (c : Nat) : Bool :=
  match s.drainHead (c / 8) (c % 8) with
  | some d => decide (d.rowStart < drainRows d) && decide (d.mxhpc.toNat / 4 ≠ 0) && s.tileRuns (c / 8)
  | none => false

/-- TASK_DISPATCH (R132, R193): a free slot takes a packet; the others' waits rise by one. -/
def execTaskDispatch (c : Nat) (s : State) : Host.Outcome State Fault Refusal :=
  .next (
    match s.cluOwner (c / 8) with
    | none => s
    | some q =>
      if !s.schedRuns q ∨ !s.clockOn (clusterIsland (c / 8)) then s
      else
        let s := (s.refill c).pokeEscapes q
        match s.nextPacket c q with
        | none => s
        | some pk =>
          match (if s.rowWaits c then none else s.freeSlot c pk.kind) with
          | none => s
          | some i =>
            let k := s.core c
            let rest := (k.queue.erase pk).map (fun (x : Packet) => { x with wait := x.wait + 1 })
            let s := s.setCore c { k with queue := rest }
            let s := s.beginThread (16 * c + i) pk
            let s := (s.refill c).pokeEscapes q
            let s := if rest.any (fun x => decide (4096 ≤ x.wait) && decide (x.prio < 3)) then
              s.poke (.taskPacketPromote c) else s
            if rest.isEmpty then s else s.poke (.taskDispatch c))

/-- TASK_PACKET_PROMOTE (R132): every packet whose wait has reached 4,096 moves to the tail of the next
higher level. -/
def execTaskPacketPromote (c : Nat) (s : State) : Host.Outcome State Fault Refusal :=
  let k := s.core c
  .next (
    let due (x : Packet) : Bool := decide (4096 ≤ x.wait) && decide (x.prio < 3)
    s.setCore c { k with queue := k.queue.filter (fun x => !due x) ++
      (k.queue.filter due).map (fun x => { x with prio := x.prio + 1, wait := 0 }) })

/-! ## Scheduling instructions (R406 to R409) -/

/-- LAUNCH (R406): adds a record to a running graph; waits in MEMORY for a reusable ring slot. -/
def execLaunch (a b c : GReg) (s : State) : Host.Outcome State Fault Refusal :=
  let va := (s.g a).toNat
  let gb := s.g b
  let g := fld gb 7 0
  .next (s.readRecord (wordOf (.launch a b c)) va 64 (fun l s =>
    let th := s.thr
    let q := th.prt
    let r := launchRec l
    let cg := s.cntr q 2 g
    let reject (reason : Nat) : State :=
      (s.launchStatus q th.root va r.wb reason).fin c (launchWord 0 (failWord reason))
    if fld gb 63 8 ≠ 0 then reject rBADREC
    else
      match (if va % 64 ≠ 0 then some rBADADDR else s.launchReject q th.root l) with
      | some reason =>
        -- a record that is not started is a FAULTED child of its running graph (R124, R125)
        let s := reject reason
        if cg.running ∧ cg.stop.isNone then s.setCntr q 2 g ({ cg with out := cg.out + 1 }.child .faulted reason) else s
      | none =>
        if !cg.running ∨ cg.stop.isSome then reject rCNTBUSY
        else
          let sl := (s.prt q).nextSlot
          if !(s.cntr q 1 sl).reusable then s.waitIn .memory true
          else
            let s := s.childAdded q 2 g
            let s := s.acceptLaunch q ⟨g, va, th.asid, th.root, th.ctx⟩ r (depList r.deps [] [] false)
            let w := launchWord sl (s.cntr q 1 sl).word
            ((s.fin c w).settle q).poke .schedulerDecision))

/-- SPAWN (R407): 0 queued, 1 FULL, 2 OUTSIDE, 3 BADREC, 4 NOLAUNCH. -/
def execSpawn (a c : GReg) (s : State) : Host.Outcome State Fault Refusal :=
  .next (s.readRecord (wordOf (.spawn a c)) (s.g a).toNat 64 (fun l s =>
    let th := s.thr
    let q := th.prt
    if 4096 ≤ th.lslot then s.fin c 4
    else if !taskOk l then s.fin c 3
    else
      match s.taskTarget q l with
      | some none => s.fin c 2
      | t =>
        let pk := taskPacket l q th.ctx th.asid th.root th.lslot (t.getD none)
        let full : Bool := match s.chooseCore pk with | some k => s.room k == 0 | none => true
        if full ∧ pendingCap ≤ (s.prt q).pending.length then s.fin c 1
        else ((s.unitAdd q th.lslot).place pk).fin c 0))

/-- PRIO (R408): the thread's priority, and that of the escape threads its launch starts from now. -/
def execPrio (a c : GReg) (s : State) : Host.Outcome State Fault Refusal :=
  let th := s.thr
  let v := fld (s.g a) 1 0
  let p := s.prt th.prt
  let r : LaunchRun := p.launchRun.look {} th.lslot
  let s := if th.lslot < 4096 then
      s.setPrt th.prt { p with launchRun := p.launchRun.put {} th.lslot { r with prio := v } }
    else s
  .next ((s.setThr { th with prio := v }).fin c (BitVec.ofNat 64 th.prio))

def levelNo : Level → Nat
  | .unit => 0 | .launch => 1 | .graph => 2 | .phase => 3 | .job => 4

/-- The cancel of R130 and R131 by the current thread, which goes on unless it is stopped itself. -/
def State.cancelBy (s : State) (a : GReg) (lv : Level) (fault : Bool) : State :=
  let x := s.g a
  s.adv.cancel s.thr.prt (levelNo lv) (x.setWidth 32) x.toNat fault

/-- A cancel of a unit whose SITE word is past its drain point traps REVOKED (R84). -/
def State.cancelFrom (s : State) (w : W32) (a : GReg) (lv : Level) (fault : Bool) : State :=
  if lv = .unit then s.revokes w ((s.g a).setWidth 32) (fun s => s.cancelBy a lv fault)
  else s.cancelBy a lv fault

/-- CANCEL (R409). -/
def execCancel (a : GReg) (lv : Level) (s : State) : Host.Outcome State Fault Refusal :=
  .next (s.cancelFrom (wordOf (.cancel a lv)) a lv false)

/-- CANCEL with FAULT (R409). -/
def execCancelFault (a : GReg) (lv : Level) (s : State) : Host.Outcome State Fault Refusal :=
  .next (s.cancelFrom (wordOf (.cancelFault a lv)) a lv true)

/-! ## The SCH_ page (R130, R135, R139) -/

/-- SCH_CANCEL_WRITE (R130, R139): a LEVEL of 5 to 7 is ignored. -/
def execSchCancelWrite (q : Nat) (v : W64) (s : State) : Host.Outcome State Fault Refusal :=
  .next (if (s.prt q).exist then
      s.cancel q (fld v 18 16) (BitVec.ofNat 32 (fld v 63 32)) (fld v 11 0) (bitAt v 20)
    else s)

/-- Leaves a forwarding stub; the table keeps the 64 most recent (R136). -/
def Prt.addStub (p : Prt) (x : Stub) : Prt :=
  { p with stubs := (p.stubs ++ [x]).drop (p.stubs.length - 63) }

/-- The SITE word of the core a word names after R83, in this package or in another, which alone knows its
relocations (log 42). -/
def State.coreWord (s : State) (q : Nat) (w : W32) : Option W32 :=
  if sitePkg w = s.pkg then (s.coreOf q w).map (coreSite s.pkg)
  else match siteName w with
    | .slot t => if t % 16 = 0 then some w else none
    | _ => none

/-- EPSYNC (R135): the entry of the name is read again; when its core has changed, a stub leads from
the old core to the new one, of this package or of another. -/
def execEpsync (q : Nat) (name : W32) (s : State) : Host.Outcome State Fault Refusal :=
  .next (
    match s.epLook q name with
    | none => s
    | some (_, c, _) =>
      match s.coreWord q (BitVec.ofNat 32 c) with
      | none => s
      | some w =>
        let p := s.prt q
        let old := p.eps.look 0 name.toNat
        let p := { p with eps := p.eps.put 0 name.toNat (w.toNat + 1) }
        s.setPrt q (
          if old = 0 ∨ old = w.toNat + 1 then p
          else match s.coreOf q (BitVec.ofNat 32 (old - 1)) with
            | some k => p.addStub ⟨name, k, w⟩
            | none => p))

/-- EPDIR_WRITE (R139): ignored whole for an illegal LOG2N or a directory outside partition memory. -/
def execEpdirWrite (q : Nat) (v : W64) (s : State) : Host.Outcome State Fault Refusal :=
  let lg := fld v 4 0
  let base := fld v 51 12 * 4096
  .next (
    if !(s.prt q).exist ∨ (lg ≠ 0 ∧ (lg < 7 ∨ 16 < lg ∨ !s.inPrtMem q base (32 * 2 ^ lg))) then s
    else s.setPrt q { s.prt q with epdir := BitVec.ofNat 64 (base + lg) })

/-- The counter a SCH_CNTSEL word selects, when it selects one. -/
def selected (w : W32) : Option (Nat × Nat) :=
  let lvl := fld w 14 12
  let i := fld w 11 0
  if 1 ≤ lvl ∧ lvl ≤ 4 ∧ i < fileSize lvl then some (lvl, i) else none

/-- CNTVAL_READ (R117, R139): the selected counter's word leaves through the virtual function; a
resolved counter has been read from now on. -/
def execCntvalRead (vf : Nat) (s : State) : Host.Outcome State Fault Refusal :=
  let v : Vf := s.hif.vfs.look {} vf
  let q := v.prt
  .next (
    if !v.enable then s.emitOut (.cntval vf 0)
    else
      match selected ((s.prt q).cntsel.look 0 vf) with
      | none => s.emitOut (.cntval vf 0)
      | some (lvl, i) =>
        let c := s.cntr q lvl i
        let s := s.emitOut (.cntval vf c.word)
        if c.resolved then (s.setCntr q lvl i { c with read := true }).pokeReads q else s)

end Sys2Proof.Machine
end

