-- ==== Sys2Proof/Machine/Context.lean ====
section
/-!
DEFINITION. Context slots (09 R266 to R273): the commands of CTXCTL, the swap, spills and fills, and
the I-cache locks that go with a context (07 R203, R204).
-/

namespace Sys2Proof.Machine

open Sys2Proof

/-! ## I-cache locks (R203, R204) -/

def Cluster.lockedLines (c : Cluster) : List Nat := (c.icache.filter (fun x => x.locked)).map (·.line)

/-- Whether lines may be locked besides those that are: 0 OK, 1 CAPACITY, 2 SETFULL (R203). -/
def Cluster.lockCode (c : Cluster) (lines : List Nat) : Nat :=
  let all := (c.lockedLines ++ lines).eraseDups
  if 256 < all.length then 1
  else if all.any (fun l => decide (2 < (all.filter (fun x => setOf x == setOf l)).length)) then 2
  else 0

/-- Locks one line for a context, fetching it when it is not present. -/
def State.lockLine (s : State) (m q ctx line : Nat) : State :=
  let cl := s.clu m
  if cl.icache.any (fun x => x.line == line) then
    s.setClu m { cl with icache := cl.icache.map (fun (x : IcLine) =>
      if x.line = line then { x with locked := true, prt := q, ctx := ctx } else x) }
  else s.setClu m (cl.icFill ⟨line, s.homeLine m line, true, q, ctx⟩)

/-- Consecutive lines as ranges: first line and number of lines. -/
def lineRanges (l : List Nat) : List (Nat × Nat) :=
  (l.filter (fun x => !l.any (fun y => y + 1 == x))).eraseDups.map (fun a =>
    (a, ((List.range l.length).takeWhile (fun i => l.contains (a + i))).length))

/-- The locks of a context are dropped and its ranges recorded (R204). -/
def Cluster.dropLocks (c : Cluster) (q ctx : Nat) : Cluster :=
  let mine (x : IcLine) : Bool := x.locked && x.prt == q && x.ctx == ctx
  { c with
    icSaved := c.icSaved ++ (lineRanges ((c.icache.filter mine).map (·.line))).map (fun x => (q, ctx, x.1, x.2))
    icache := c.icache.map (fun (x : IcLine) => if mine x then { x with locked := false } else x) }

/-- A line leaves the instruction cache. -/
def State.dropLine (s : State) (m line : Nat) : State :=
  let cl := s.clu m
  s.setClu m { cl with icache := cl.icache.filter (fun x => x.line != line) }

/-- The recorded ranges of a context are fetched and locked again; one that does not fit counts in LOST. -/
def State.relock (s : State) (m q ctx : Nat) : State :=
  let cl := s.clu m
  let mine (e : Nat × Nat × Nat × Nat) : Bool := e.1 == q && e.2.1 == ctx
  let s := s.setClu m { cl with icSaved := cl.icSaved.filter (fun e => !mine e) }
  (cl.icSaved.filter mine).foldl (fun s e =>
    let lines := (List.range e.2.2.2).map (e.2.2.1 + ·)
    if (s.clu m).lockCode lines = 0 then lines.foldl (fun s l => (s.dropLine m l).lockLine m q ctx l) s
    else
      let c := s.clu m
      s.setClu m { c with icLost := Nat.min 0xFFFF (c.icLost + 1) }) s

/-! ## What may act again -/

/-- The units of a partition that may act once it runs again: after RESUME of Tocsin, a swap, an
island's return or a COMMIT. -/
def State.wakePrt (s : State) (q : Nat) : State :=
  let p := s.prt q
  let s := s.hif.vfs.foldl (fun s e =>
    if vfBound e.2 q && e.2.head != e.2.tail then s.post (.jobRecordTake e.1) else s) s
  let s := p.cnt.jobs.foldl (fun s e => if s.phaseDue q e.1 then s.post (.phaseStart q e.1) else s) s
  let s := p.graphRun.foldl (fun s e =>
    if (p.cntr 2 e.1).running && decide (e.2.next < e.2.nlaunch) then s.post (.launchRecordRead q e.1)
    else s) s
  let s := s.post .schedulerDecision
  let held := !p.pending.isEmpty || p.launchRun.any (fun e => !e.2.left.isEmpty)
  let s := (s.coresOf q).foldl (fun s c =>
    if !held && (s.core c).queue.isEmpty then s else s.post (.taskDispatch c)) s
  let ms := (s.cluOwn.filter (fun e => e.2.heldBy q)).map (·.1)
  let s := ms.foldl (fun s m =>
    let s := if (s.clu m).queues.any (fun k => !k.2.isEmpty) then
      s.pokes [.kStepGrant m, .kStepDone m, .drainRowStart m, .drainRowWrite m] else s
    (s.clu m).walks.foldl (fun s _ => s.post (.pageWalkDone m)) s) s
  let s := p.shoots.foldl (fun s h => h.wait.foldl (fun s a => s.post (.shootdownAck q a)) s) s
  let s := (s.msgs.filter (fun m => m.prt == q && m.ret == 0)).foldl (fun s m => s.post (.messageDelivery m.id)) s
  let s := (s.acmds.filter (fun c => c.prt == q)).foldl State.pokeCmd s
  let s := (s.loads.filter (fun l => l.prt == q)).foldl (fun s l => s.post (.configLoadComplete l.port)) s
  let s := (s.regions.filter (fun e => e.1 / 4096 == q)).foldl (fun s e =>
    let sl := e.1 % 4096
    let s := if e.2.loaded then s.wakeRegion q sl else s
    let s := if e.2.arming then s.post (.regionArm q sl) else s
    if e.2.reload then s.post (.regionReload q sl) else s) s
  s.pokeCtx q

/-- Lines of the partition that lie in another slice than the new hash gives them (R98). -/
def State.strayBlocks (s : State) (z : Resize) : List Nat :=
  ((s.l2.filter (fun y => y.prt == z.prt && y.slice != s.sliceOf y.prt y.die y.blk)).map (·.blk)).eraseDups

/-- The events that may take the running resize on (R89). -/
def State.pokeResize (s : State) : State :=
  match s.resize with
  | none => s
  | some z =>
    match z.step with
    | 1 => s.poke .resizePropose
    | 2 => s.poke .resizeGuard
    | 3 => s.poke .resizeDrain
    | 4 => s.pokes (z.regions.map (fun e => .regionMove e.1) ++ z.cores.map .coreMove ++
        [.hbmSweepPage, .resizeMigrate])
    | 5 => s.pokes ((s.strayBlocks z).map .rehashSweepLine ++ [.resizeRehash])
    | 6 => s.poke .resizeScrub
    | _ => s.poke .resizeCommit

/-- Everything of the package may act again. -/
def State.wakeAll (s : State) : State :=
  (s.prts.foldl (fun s e => if e.2.exist then s.wakePrt e.1 else s) s).pokeResize

/-! ## Shares of a context slot (R196, R267, R271) -/

/-- The tile bytes of a slot: first byte and length. -/
def Prt.tileWord (p : Prt) (x : Nat) : Nat × Nat :=
  let w := if x = 0 then p.mtpw0 else p.mtpw1
  (1024 * fld w 14 8, 1024 * fld w 6 0)

/-- A home address in a share of slot `x` of the partition, by core or tile and place in the share:
`2^20 * core + offset`, or `2^40 + 2^17 * site + offset`. -/
def State.shareKey (s : State) (q x a : Nat) : Option Nat :=
  if isPool a then
    let c := (a - poolWin) / 0x40000
    let off := (a - poolWin) % 0x40000
    let w := s.pw c x
    if s.ownsCluster q (c / 8) ∧ 1024 * w.base ≤ off ∧ off < w.stop then
      some (2 ^ 20 * c + (off - 1024 * w.base))
    else none
  else if isTile a then
    let t := tileOfAddr a
    let off := (a - tileWin) % 0x10000
    let (lo, n) := (s.prt q).tileWord x
    match siteBlock t with
    | some b =>
      if s.ownsBlock q b ∧ lo ≤ off ∧ off < lo + n then some (2 ^ 40 + 2 ^ 17 * t + (off - lo)) else none
    | none => none
  else none

/-- The home address of a place in a share. -/
def State.shareAddr (s : State) (q x key : Nat) : Nat :=
  if key < 2 ^ 40 then poolBase (key / 2 ^ 20) + 1024 * (s.pw (key / 2 ^ 20) x).base + key % 2 ^ 20
  else
    let k := key - 2 ^ 40
    tileAddr (k / 2 ^ 17) + ((s.prt q).tileWord x).1 + k % 2 ^ 17

/-- The bytes and full bits of the slot's shares, by place. -/
def State.shareCells (s : State) (q x : Nat) : List Host.Cell × Tbl FullBit :=
  (s.mem.filterMap (fun c => (s.shareKey q x c.1).map (fun k => (k, c.2))),
   s.full.filterMap (fun e => (s.shareKey q x (8 * e.1)).map (fun k => (k, e.2))))

/-- The slot's shares are zeroed. -/
def State.zeroShares (s : State) (q x : Nat) : State :=
  { s with mem := s.mem.filter (fun c => (s.shareKey q x c.1).isNone)
           poison := s.poison.filter (fun a => (s.shareKey q x a).isNone)
           full := s.full.filter (fun e => (s.shareKey q x (8 * e.1)).isNone) }

/-- Saved bytes and full bits go back to their places. -/
def State.putShares (s : State) (q x : Nat) (cells : List Host.Cell) (full : Tbl FullBit) : State :=
  { s with
    mem := cells.foldl (fun m c => Memory.set m (s.shareAddr q x c.1) c.2) s.mem
    full := full.foldl (fun (t : Tbl FullBit) e =>
      t.put .unset (s.shareAddr q x e.1 / 8) e.2) s.full }

/-- Shares as a spill records them: the pool word of each owned core, and the tile word of each
owned block under key 4096 plus its number. -/
def State.shareWords (s : State) (q x : Nat) : Tbl W64 :=
  let p := s.prt q
  let t := (s.coresOf q).foldl (fun (t : Tbl W64) c => t.put 0 c ((s.core c).poolpw x)) []
  (s.blkOwn.filter (fun e => e.2.heldBy q)).foldl (fun (t : Tbl W64) e =>
    t.put 0 (4096 + e.1) (if x = 0 then p.mtpw0 else p.mtpw1)) t

/-- Bytes of the pool share a partition word gives. -/
def poolShare (w : W64) : Nat :=
  let p := poolWord w
  if p.valid then 1024 * (p.rsize + p.scrkb + p.acckb) else 0

/-- Some share of the slot is smaller than the image records (R269). -/
def State.shareShort (s : State) (q x : Nat) (words : Tbl W64) : Bool :=
  words.any (fun e =>
    if e.1 < 4096 then
      decide ((if s.ownsCluster q (e.1 / 8) then poolShare ((s.core e.1).poolpw x) else 0) < poolShare e.2)
    else
      decide ((if s.ownsBlock q (e.1 - 4096) then ((s.prt q).tileWord x).2 else 0) < 1024 * fld e.2 6 0))

/-- Bytes of a slot's spill image (R271). -/
def State.spillBytes (s : State) (q x : Nat) : Nat :=
  let cs := s.coresOf q
  let nb := (s.blkOwn.filter (fun e => e.2.heldBy q)).length
  cs.foldl (fun n c => n + poolShare ((s.core c).poolpw x)) 0 +
    ((s.prt q).tileWord x).2 * 16 * nb + 65536 * nb + 4096 * cs.length + 8192 * (cs.length / 8)

/-! ## Register carve-outs (R195, R197) -/

/-- The key of the thread whose registers lie in slot `i` of the carve-out of context slot `x`. -/
def State.slotKey (s : State) (c x i : Nat) : Nat :=
  let a := match s.cluOwner (c / 8) with | some q => (s.prt q).ctxActive | none => 0
  if x = a then 16 * c + i else outKey + 16 * c + i

/-- A register byte of the carve-out: 512 bytes of g registers, then 1,024 of v registers. -/
def Thread.carveByte (t : Thread) (o : Nat) : Byte :=
  if o < 512 then BitVec.ofNat 8 ((t.g.look 0 (o / 8)).toNat / 256 ^ (o % 8))
  else BitVec.ofNat 8 ((t.v.look 0 ((o - 512) / 32)).toNat / 256 ^ ((o - 512) % 32))

/-- Writes one register byte; the place of g0 holds nothing. -/
def Thread.setCarveByte (t : Thread) (o : Nat) (b : Byte) : Thread :=
  let upd (x i : Nat) : Nat := x - x / 256 ^ i % 256 * 256 ^ i + b.toNat * 256 ^ i
  if o < 8 then t
  else if o < 512 then
    { t with g := t.g.put 0 (o / 8) (BitVec.ofNat 64 (upd (t.g.look 0 (o / 8)).toNat (o % 8))) }
  else
    let k := (o - 512) / 32
    { t with v := t.v.put 0 k (BitVec.ofNat 256 (upd (t.v.look 0 k).toNat ((o - 512) % 32))) }

/-- The slot and place of pool offset `off` in a carve-out of core `c`: context, slot, byte. -/
def State.carveAt (s : State) (c off : Nat) : Option (Nat × Nat × Nat) :=
  [0, 1].findSome? (fun x =>
    let w := s.pw c x
    let lo := 1024 * w.base
    if w.valid ∧ lo ≤ off ∧ off < lo + 1536 * w.slots then
      some (x, (off - lo) / 1536, (off - lo) % 1536)
    else none)

/-- The bytes of the carve-out are left in the pool: the registers of its slots leave the threads. -/
def State.carveOut (s : State) (c x : Nat) : State :=
  let w := s.pw c x
  (List.range w.slots).foldl (fun s i =>
    let a := poolBase c + 1024 * w.base + 1536 * i
    let k := s.slotKey c x i
    let t := s.thread k
    let mem := t.g.foldl (fun m (e : Nat × W64) => Memory.writeList m (a + 8 * e.1) (leBytes 8 e.2.toNat))
      (Memory.zero s.mem a (a + 1536))
    let mem := t.v.foldl (fun m (e : Nat × V256) =>
      Memory.writeList m (a + 512 + 32 * e.1) (leBytes 32 e.2.toNat)) mem
    { s with mem := mem }.setThread k { t with g := [], v := [] }) s

/-- The registers of the slots are the bytes that lie in the carve-out. -/
def State.carveIn (s : State) (c x : Nat) : State :=
  let w := s.pw c x
  (List.range w.slots).foldl (fun s i =>
    let a := poolBase c + 1024 * w.base + 1536 * i
    let k := s.slotKey c x i
    let t := (s.mem.filter (fun e => decide (a ≤ e.1) && decide (e.1 < a + 1536))).foldl
      (fun (t : Thread) e => t.setCarveByte (e.1 - a) e.2) (s.thread k)
    { s with mem := Memory.zero s.mem a (a + 1536) }.setThread k t) s

/-! ## Commands that hold up a spill or fill (R271) -/

/-- Virtual ranges a running command still reads or writes on this package. -/
def State.cmdSpans (s : State) (c : ACmd) : List (Nat × Nat) :=
  let here (bit : Nat) (hi lo : Nat) : Bool := !bitAt c.aux1 bit || fld c.aux1 hi lo == s.pkg
  match c.op with
  | 0 =>
    let n := c.len.toNat - c.done
    (if here 24 23 16 then [((c.src.toNat + c.done) % 2 ^ 64, n)] else []) ++
    (if here 8 7 0 then [((c.dst.toNat + c.done) % 2 ^ 64, n)] else [])
  | 1 | 2 =>
    let e := 2 ^ fld c.aux1 2 0
    let w := if bitAt c.aux1 3 then 8 else 4
    let n := c.len.toNat - c.done
    let (dense, table) := if c.op = 1 then (c.dst, c.src) else (c.src, c.dst)
    [((c.aux0.toNat + c.done * w) % 2 ^ 64, n * w), ((dense.toNat + c.done * e) % 2 ^ 64, n * e)] ++
      (List.range n).filterMap (fun i =>
        match s.gatherIdx c (c.done + i) with
        | .ok k => some ((table.toNat + k * e) % 2 ^ 64, e)
        | .error _ => none)
  | 3 =>
    let e := (collFmt c).width / 8
    [(c.src.toNat, c.len.toNat * e), (c.dst.toNat, c.len.toNat * e)]
  | _ => []

/-- The same of a matrix command or drain. -/
def mxSpans (c : MxCmd) : List (Nat × Nat) :=
  if c.drain then
    let n := (fld c.dword 17 12 + 1) * 8
    (List.range (drainRows c)).map (fun i => ((c.dst.toNat + i * fld c.dword 55 32) % 2 ^ 64, n))
  else
    let k := fld c.shape 47 16
    let n := match mxFmt (fld c.shape 51 48) with
      | some .b4 => k / 32 * 17
      | some f => k * opBytes f
      | none => 0
    (List.range (fld c.shape 5 0 + 1)).map (fun i => ((c.aBase.toNat + i * c.aStride.toNat) % 2 ^ 64, n)) ++
    (List.range (fld c.shape 13 8 + 1)).map (fun i => ((c.bBase.toNat + i * c.bStride.toNat) % 2 ^ 64, n))

/-- A virtual range of an agent has a byte in the slot's shares. -/
def State.inShares (s : State) (q x : Nat) (a : Agent) (r : Nat × Nat) : Bool :=
  (piecesOf r.1 r.2).any (fun p =>
    match s.agentPiece a {} p.1 p.2 with
    | .ok part _ => (List.range part.n).any (fun i => (s.shareKey q x (part.pa + i)).isSome)
    | _ => false)

/-- A command of the running context has a source or destination in the shares of slot `x`. -/
def State.sharesBusy (s : State) (q x : Nat) : Bool :=
  let run := (s.prt q).ctxActive
  s.acmds.any (fun c => c.prt == q && c.ctx == run && !c.ended &&
    (s.cmdSpans c).any (s.inShares q x c.agent)) ||
  s.clusters.any (fun e => e.2.queues.any (fun k => k.2.any (fun c => c.prt == q && c.ctx == run &&
    (mxSpans c).any (s.inShares q x c.agent))))

/-! ## Moving a context's units -/

/-- Every unit of the partition's context `a` now belongs to context `b`. -/
def State.setCtx (s : State) (q a b : Nat) : State :=
  let f (p c : Nat) : Nat := if p = q ∧ c = a then b else c
  let pks (l : List Packet) : List Packet := l.map (fun (k : Packet) => { k with ctx := f k.prt k.ctx })
  { s with
    threads := s.threads.map (fun (e : Nat × Thread) => (e.1, { e.2 with ctx := f e.2.prt e.2.ctx }))
    cores := s.cores.map (fun (e : Nat × Core) => (e.1, { e.2 with queue := pks e.2.queue }))
    acmds := s.acmds.map (fun (c : ACmd) => { c with ctx := f c.prt c.ctx })
    clusters := s.clusters.map (fun (e : Nat × Cluster) => (e.1, { e.2 with
      icSaved := e.2.icSaved.map (fun (r : Nat × Nat × Nat × Nat) => (r.1, f r.1 r.2.1, r.2.2))
      queues := e.2.queues.map (fun (k : Nat × List MxCmd) =>
        (k.1, k.2.map (fun (c : MxCmd) => { c with ctx := f c.prt c.ctx }))) }))
    regions := s.regions.map (fun (e : Nat × Region) =>
      (e.1, { e.2 with ctx := f (e.1 / 4096) e.2.ctx }))
    loads := s.loads.map (fun (l : CfgLoad) => { l with ctx := f l.prt l.ctx })
    prts := s.prts.map (fun (e : Nat × Prt) => (e.1, { e.2 with
      pending := pks e.2.pending
      jobRun := e.2.jobRun.map (fun (r : Nat × JobRun) => (r.1, { r.2 with ctx := f e.1 r.2.ctx }))
      launchRun := e.2.launchRun.map (fun (r : Nat × LaunchRun) =>
        (r.1, { r.2 with ctx := f e.1 r.2.ctx })) })) }

/-- Renames the threads of a partition's context from one range of keys to another. -/
def State.moveThreads (s : State) (q ctx base base' : Nat) : State :=
  s.rename (fun t =>
    let th := s.thread t
    if th.st ≠ .empty ∧ th.prt = q ∧ th.ctx = ctx ∧ base ≤ t ∧ t < base + 65536 then t - base + base'
    else t)

/-- Thread keys of a spilled context. -/
def spillKey (id : Nat) : Nat := 65536 * (2 + id)

/-- Stops the threads of a context at their instruction boundaries (R268): replies land, waiters
leave their homes and their instructions issue again (R337), walks are asked for again. -/
def State.stopThreads (s : State) (q ctx : Nat) : State :=
  (s.threadsOf q (fun th => th.ctx == ctx)).foldl (fun s t =>
    let s := (s.performAll t).withdraw t
    let th := s.thread t
    let s := { s with clusters := s.clusters.map (fun (e : Nat × Cluster) => (e.1, { e.2 with
      walks := e.2.walks.map (fun (w : Walk) => { w with who := w.who.filter (fun x => x.1 != t) }) })) }
    s.setThread t (if th.atHome ∨ th.st = .walk ∨ th.filled then
      { th with st := .ready, atHome := false, filled := false } else th)) s

/-! ## The commands (R269) -/

def State.setCtxState (s : State) (q st status : Nat) : State :=
  s.setPrt q { s.prt q with ctxState := st, ctxStatus := status }

/-- A scan-out of a region of the partition after a page fault is in progress (R265, R273). -/
def State.scanning (s : State) (q : Nat) : Bool :=
  s.regions.any (fun e => e.1 / 4096 == q && e.2.clock == 2 && e.2.savedAt.isNone)

/-- A command waits in WAITING: a resize of the partition is queued or running, or a region of it is
being scanned out (R269, R273). -/
def State.ctxHeldUp (s : State) (q : Nat) : Bool :=
  (match s.resize with | some z => z.prt == q | none => false) || s.resizeQ.any (fun z => z.prt == q) ||
    s.scanning q

/-- The spilled context whose image the partition's memory holds at `a`: bytes that have been changed are
the image of none (log 19). -/
def State.imageAt (s : State) (q a : Nat) : Option Spill :=
  (s.prt q).spills.find? (fun e => decide (s.prtBytes q a (e.img.length / 64) = e.img))

/-- A command starts, or is refused. Refusals of FILL take the order NOSLOT, BADADDR, NOSPACE; an
image of the slot that runs has no free slot to go to (log 19). -/
def State.ctxStart (s : State) (q cmd : Nat) : State :=
  let p := s.prt q
  let x := 1 - p.ctxActive
  let a := fld p.ctxSpill 51 12 * 4096
  match cmd with
  | 1 => (s.setCtxState q 1 0).post (.ctxSwapDone q)
  | 2 =>
    if s.inPrtMem q a (s.spillBytes q x) then (s.setCtxState q 2 0).post (.ctxSpillDone q)
    else s.setCtxState q 0 4
  | _ =>
    if bitAt p.ctxHeld x then s.setCtxState q 0 2
    else
      match s.imageAt q a with
      | none => s.setCtxState q 0 4
      | some e =>
        if e.slot ≠ x then s.setCtxState q 0 2
        else if !s.inPrtMem q a 4096 then s.setCtxState q 0 4
        else if s.shareShort q x e.words then s.setCtxState q 0 3
        else (s.setCtxState q 3 0).post (.ctxFillDone q)

/-- A write of CMD: 1 SWAP, 2 SPILL, 3 FILL; any other code has no action. -/
def State.ctxCmd (s : State) (q cmd : Nat) : State :=
  let p := s.prt q
  if !p.exist ∨ cmd = 0 ∨ 3 < cmd then s
  else if p.ctxState ≠ 0 then s.setPrt q { p with ctxStatus := 1 }
  else if s.ctxHeldUp q then s.setPrt q { p with ctxState := 4, ctxStatus := 0, ctxWait := cmd }
  else s.ctxStart q cmd

/-- A waiting command starts once nothing holds it up. -/
def State.ctxWake (s : State) (q : Nat) : State :=
  let p := s.prt q
  if p.ctxState ≠ 4 ∨ s.ctxHeldUp q then s
  else (s.setPrt q { p with ctxState := 0, ctxWait := 0 }).ctxStart q p.ctxWait

/-- CTX_SWAP (R269, R270). -/
def execCtxSwap (q : Nat) (s : State) : Host.Outcome State Fault Refusal := .next (s.ctxCmd q 1)
/-- CTX_SPILL (R269, R271). -/
def execCtxSpill (q : Nat) (s : State) : Host.Outcome State Fault Refusal := .next (s.ctxCmd q 2)
/-- CTX_FILL (R269, R271). -/
def execCtxFill (q : Nat) (s : State) : Host.Outcome State Fault Refusal := .next (s.ctxCmd q 3)

/-- The running context of a partition is exchanged with the other (R266, R270). -/
def State.swap (s : State) (q : Nat) : State :=
  let x := (s.prt q).ctxActive
  let y := 1 - x
  let ms := (s.cluOwn.filter (fun e => e.2.heldBy q)).map (·.1)
  -- the running K step of each tile ends
  let s := ms.foldl (fun s m =>
    match s.mxGranted m with
    | some (_, c) => if c.prt = q ∧ c.ctx = x then s.queueDone m else s
    | none => s) s
  let s := s.stopThreads q x
  -- the running context's regions have every memory request replied
  let s := (s.regions.filter (fun e => e.1 / 4096 == q && e.2.ctx == x && e.2.loaded)).foldl (fun s e =>
    let s := s.landRequests q (e.1 % 4096)
    -- and a fabric-mode tile's running K step ends
    (s.region q (e.1 % 4096)).mxs.foldl (fun s f => s.fabStepEnd q (e.1 % 4096) f.cluster) s) s
  let s := ms.foldl (fun s m => (s.setClu m ((s.clu m).dropLocks q x)).relock m q y) s
  let s := (s.coresOf q).foldl (fun s c =>
    let k := s.core c
    s.setCore c { k with tlb := k.tlbOut, tlbOut := k.tlb }) s
  let s := s.rename (fun t =>
    let th := s.thread t
    if th.st = .empty ∨ th.prt ≠ q then t
    else if th.ctx = x ∧ t < outKey then t + outKey
    else if th.ctx = y ∧ outKey ≤ t ∧ t < 2 * outKey then t - outKey
    else t)
  let p := s.prt q
  s.setPrt q { p with ctxActive := y, ctxState := 0, ctxHeld := p.ctxHeld ||| BitVec.ofNat 2 (2 ^ y) }

/-- CTX_SWAP_DONE (R270): the slots are exchanged, the restored units run and STATE is IDLE. In
STATE WAITING, the command that waits starts once nothing holds it up (R103, R273). A swap, spill or fill
stands still while the package is halted, and until a scan-out that has begun ends (R273). -/
def execCtxSwapDone (q : Nat) (s : State) : Host.Outcome State Fault Refusal :=
  .next (
    match (s.prt q).ctxState with
    | 1 => if s.cfgPending q ∨ s.scanning q ∨ !s.prtRuns (some q) then s else (s.swap q).wakePrt q
    | 4 => s.ctxWake q
    | _ => s)

/-- The entries of a context slot leave the fetch TLBs of the partition's tiles. -/
def State.dropTileTlb (s : State) (q x : Nat) : State :=
  ((s.cluOwn.filter (fun e => e.2.heldBy q)).map (·.1)).foldl (fun s m =>
    let c := s.clu m
    s.setClu m { c with ftlb := c.ftlb.filter (fun e => e.slot != x) }) s

/-- The extents of a context's regions are discarded (R249). -/
def State.noExtents (s : State) (q x : Nat) : State :=
  { s with regions := s.regions.map (fun (e : Nat × Region) =>
      if e.1 / 4096 = q ∧ e.2.ctx = x then
        (e.1, { e.2 with
          sites := e.2.sites.map (fun (y : Nat × Site) => (y.1, { y.2 with extents := [], shadowExt := [] }))
          gens := e.2.gens.map (fun (y : Nat × Gen) => (y.1, { y.2 with extents := [], shadowExt := [] })) })
      else e) }

/-- CTX_SPILL_DONE (R269, R271): the inactive slot's context leaves for its image, its shares are
zero and its HELD bit is clear. The image's bytes are free values (log 19). -/
def execCtxSpillDone (q : Nat) (s : State) : Host.Outcome State Fault Refusal :=
  let x := 1 - (s.prt q).ctxActive
  .next (
    if (s.prt q).ctxState ≠ 2 ∨ s.sharesBusy q x ∨ s.scanning q ∨ !s.prtRuns (some q) then s
    else
      let (id, s) := s.newId
      let n := s.spillBytes q x
      let (img, s) := s.freeBytes n
      let a := fld (s.prt q).ctxSpill 51 12 * 4096
      let (cells, full) := s.shareCells q x
      let e : Spill := { img := img, slot := x, words := s.shareWords q x
                         mtpw := if x = 0 then (s.prt q).mtpw0 else (s.prt q).mtpw1
                         cells := cells, full := full, id := id }
      let s := ((s.zeroShares q x).moveThreads q x outKey (spillKey id)).setCtx q x (2 + id)
      let s := ((s.coresOf q).foldl (fun s c => s.setCore c { s.core c with tlbOut := [] }) s).dropTileTlb q x
      let s := s.prtStore q a (n / 64) img
      let p := s.prt q
      s.setPrt q { p with
        spills := p.spills ++ [e], ctxState := 0, ctxSpilled := true
        ctxHeld := if x = 0 then p.ctxHeld &&& 2 else p.ctxHeld &&& 1 })

/-- CTX_FILL_DONE (R249, R269, R271): the inactive slot holds the context of the image, without the TLB
entries and extents it had. -/
def execCtxFillDone (q : Nat) (s : State) : Host.Outcome State Fault Refusal :=
  let p := s.prt q
  let x := 1 - p.ctxActive
  .next (
    if p.ctxState ≠ 3 ∨ s.sharesBusy q x ∨ s.scanning q ∨ !s.prtRuns (some q) then s
    else
      match s.imageAt q (fld p.ctxSpill 51 12 * 4096) with
      | none => s.setCtxState q 0 4
      | some e =>
        let s := (s.zeroShares q x).putShares q x e.cells e.full
        let s := ((s.moveThreads q (2 + e.id) (spillKey e.id) outKey).setCtx q (2 + e.id) x).noExtents q x
        let p := s.prt q
        s.setPrt q { p with
          spills := p.spills.filter (fun z => z.id != e.id), ctxState := 0, ctxSpilled := false
          ctxHeld := p.ctxHeld ||| BitVec.ofNat 2 (2 ^ x) })

end Sys2Proof.Machine
end

