-- ==== Sys2Proof/Machine/Control.lean ====
section
/-!
DEFINITION. Control transfer and the end of a thread (12 R326 to R329; 14 R412).
-/

namespace Sys2Proof.Machine

open Sys2Proof

/-- A word offset (R294). -/
def wordOff (w x : Nat) : W64 := sext64 w x <<< 2

/-- BR (R326): taken when the predicate equals the sense. -/
def execBr (p : PReg) (sense : Bool) (off : BitVec 22) (s : State) : Host.Outcome State Fault Refusal :=
  .next (if s.p p = sense then s.goto (s.thr.pc + wordOff 22 off.toNat) else s.adv)

/-- JMP (R326). -/
def execJmp (off : BitVec 26) (s : State) : Host.Outcome State Fault Refusal :=
  .next (s.goto (s.thr.pc + wordOff 26 off.toNat))

/-- JAL (R326): writes g55, which is never an h register (R294). -/
def execJal (off : BitVec 26) (s : State) : Host.Outcome State Fault Refusal :=
  let th := s.thr
  .next ((s.setThr { th with g := th.g.put 0 55 (th.pc + 4) }).goto (th.pc + wordOff 26 off.toNat))

/-- JR (R327): the target is read before the link is written; its bits [1:0] are ignored. -/
def execJr (a b : GReg) (s : State) : Host.Outcome State Fault Refusal :=
  let t := s.g a
  .next ((s.setG b (s.thr.pc + 4)).goto (t &&& ~~~3))

/-- EXIT (R328): every access the thread issued is performed, then the thread ends DONE and its slot
is EMPTY. -/
def execExit (s : State) : Host.Outcome State Fault Refusal := .next (s.endThread s.tid .done 0)

/-- YIELD (R328): no state changes but pc. -/
def execYield (s : State) : Host.Outcome State Fault Refusal := .next s.adv

/-- TRAP (R329): raises BREAK, TVAL the immediate. -/
def execTrap (imm : BitVec 14) (s : State) : Host.Outcome State Fault Refusal :=
  .next (s.takeTrap (wordOf (.trap imm)) cBREAK (sext64 14 imm.toNat) 0)

/-- SVC (R412): raises SVC, TVAL the immediate. -/
def execSvc (imm : BitVec 14) (s : State) : Host.Outcome State Fault Refusal :=
  .next (s.takeTrap (wordOf (.svc imm)) cSVC (sext64 14 imm.toNat) 0)

end Sys2Proof.Machine
end

