-- ==== Sys2Proof/Machine/Mmu.lean ====
section
/-!
DEFINITION. Replies and page walks (07 R192, 09 R246, R250), shoot-downs (R248 to R251), tier
migration (R252, R253).
-/

namespace Sys2Proof.Machine

open Sys2Proof

/-! ## Replies and walks -/

/-- MEMORY_REPLY (R192, R232): an outstanding relaxed access is performed and its register written;
a thread that waits for it looks again at its turn. -/
def execMemoryReply (tid idx : Nat) (s : State) : Host.Outcome State Fault Refusal :=
  .next (s.performAt tid idx)

/-- The walk's answer reaches one waiting thread: a TLB fill, after which a data access is outstanding and
a fetch is made again (R192); or the fault its turn will raise. -/
def State.walkAnswer (s : State) (w : Walk) (r : WalkRes) (t : Nat) (fetch : Bool) : State :=
  let th := s.thread t
  match r with
  | .leaf l =>
    let b := pageBits l.size
    let e : TlbEntry := { vpage := w.va * 4096 / 2 ^ b, size := l.size, ppage := l.addr / 2 ^ b
                          attr := l.attr, asid := w.asid, gen := (s.prt w.prt).genIssued
                          slot := t % 16 }
    let s := s.setCore (t / 16) ((s.core (t / 16)).tlbFill e)
    if th.st ≠ .walk then s
    else if fetch then s.setThread t { th with st := .ready, fills := th.fills ++ [e] }
    else s.setThread t { th with st := .memory, poll := true, filled := true, fills := th.fills ++ [e] }
  | .fault b =>
    if th.st = .walk then s.setThread t { th with st := .ready, wfault := th.wfault ++ [(w.va, b)] } else s

/-- The walk's replies can reach its threads: the package does not hold them (R73), and the tables it reads
have their clocks (R20). -/
def State.walkRuns (s : State) (m : Nat) (w : Walk) : Bool :=
  s.prtRuns (some w.prt) && s.walkReaches (clusterDie m) w.prt w.root (w.va * 4096)

/-- PAGE_WALK_DONE (R246): one of the up to 8 walks in progress completes, fills the TLBs that asked
and wakes their threads. The tables are read as they stand now, so a shoot-down that came first has
won (R250). -/
def execPageWalkDone (m : Nat) (s : State) : Host.Outcome State Fault Refusal :=
  let cl := s.clu m
  .next (
    match cl.walks.filter (s.walkRuns m) with
    | [] => s
    | w0 :: rest =>
      let (ch, s) := s.choice
      let w := (w0 :: rest).getD (ch % Nat.min 8 (rest.length + 1)) w0
      let s := s.setClu m { cl with walks := cl.walks.erase w }
      let r := s.walk (clusterDie m) w.prt w.root (w.va * 4096) ch
      w.who.foldl (fun s e => s.walkAnswer w r e.1 e.2.1) s)

/-! ## Shoot-down (R248 to R251) -/

/-- Agents of a shoot-down: cores by number, walkers, fetch TLBs, regions by ring slot. -/
def walkerAgent (m : Nat) : Nat := 4096 + m
def fetchAgent (m : Nat) : Nat := 8192 + m
def regionAgent (sl : Nat) : Nat := 16384 + sl

def State.agents (s : State) (q : Nat) : List Nat :=
  let ms := (s.cluOwn.filter (fun e => e.2.heldBy q)).map (·.1)
  s.coresOf q ++ ms.map walkerAgent ++ ms.map fetchAgent ++
    (s.regions.filter (fun e => e.1 / 4096 == q && e.2.loaded)).map (fun e => regionAgent (e.1 % 4096))

/-- The shoot-down covers a virtual page number of 4 KiB of an address space. -/
def Shoot.covers (h : Shoot) (asid : W16) (page : Nat) : Bool :=
  (h.allAsid || h.asid == asid) &&
    (h.allVa || (decide (h.first ≤ page) && decide (page < h.first + h.pages)))

/-- It covers some page of an entry. -/
def Shoot.coversTlb (h : Shoot) (e : TlbEntry) : Bool :=
  let n := 2 ^ (pageBits e.size - 12)
  (h.allAsid || h.asid == e.asid) &&
    (h.allVa || (h.pages != 0 && decide (h.first < e.vpage * n + n) && decide (e.vpage * n < h.first + h.pages)))

def Shoot.coversExtent (h : Shoot) (asid : W16) (e : Extent) : Bool :=
  (h.allAsid || h.asid == asid) &&
    (h.allVa || (h.pages != 0 && decide (h.first < e.vpage + e.pages) && decide (e.vpage < h.first + h.pages)))

/-- At most 4 shoot-downs of a partition are outstanding (R248). -/
def maxShoots : Nat := 4

/-- Starts a shoot-down under the next generation; every agent is asked. Pages are those of the 56 bits
that are translated (R241). -/
def State.startShoot (s : State) (q : Nat) (ctl : W64) (first : Nat) (tid : Option (Nat × Nat)) :
    W16 × State :=
  let p := s.prt q
  let gen := p.genIssued + 1
  let ags := s.agents q
  let h : Shoot := { gen := gen, asid := BitVec.ofNat 16 (fld ctl 63 48), allAsid := bitAt ctl 22
                     allVa := bitAt ctl 21, first := first % 2 ^ 44, pages := fld ctl 19 0, wait := ags
                     tid := tid }
  let s := s.setPrt q { p with genIssued := gen, shoots := p.shoots ++ [h] }
  (gen, ags.foldl (fun s a => s.post (.shootdownAck q a)) s)

/-- SHOOTDOWN_COMPLETE (R248): shoot-downs complete in generation order. -/
def State.completeShoots (q : Nat) : Nat → State → State
  | 0, s => s
  | n + 1, s =>
    let p := s.prt q
    match p.shoots with
    | h :: r =>
      if h.wait.isEmpty then
        let s := s.setPrt q { p with genDone := h.gen, shoots := r }
        let s :=
          match h.tid with
          | some (t, d) =>
            if (s.thread t).st = .memory then
              (s.replyReg t ((s.thread t).gDest (BitVec.ofNat 6 d)) (h.gen.setWidth 256)).replyGo t
            else s
          | none => s
        let s := p.mig.foldl (fun s e =>
          if e.2.run ∧ e.2.size ≤ e.2.w ∧ (e.2.inv = some h.gen ∨ e.2.inv = none) then
            s.post (.migComplete q e.1) else s) s
        State.completeShoots q n s
      else s
    | [] => s

/-- The acknowledgement of a core's TLB: entries go, matching accesses are performed, full-empty
waiters of covered pages are withdrawn and issue again (R249, R337). -/
def State.ackCore (s : State) (c : Nat) (h : Shoot) : State :=
  let k := s.core c
  let s := s.setCore c
    { k with tlb := k.tlb.filter (fun e => !h.coversTlb e)
             tlbOut := k.tlbOut.filter (fun e => !h.coversTlb e) }
  (s.threads.map (·.1)).foldl (fun s t =>
    if slotOf t / 16 = c ∧ (h.allAsid ∨ (s.thread t).asid = h.asid) then
      let s := s.setThread t { s.thread t with fills := (s.thread t).fills.filter (fun e => !h.coversTlb e) }
      let s := s.performAll t
      let mine := s.waiters.filter (fun w => w.tid == t && h.covers (s.thread t).asid (w.va % 2 ^ 56 / 4096))
      mine.foldl (fun s w => s.unserved w)
        { s with waiters := s.waiters.filter (fun w => !mine.contains w) }
    else s) s

/-- The acknowledgement of a region's units (R249): requests translated by a matching extent are
performed, matching extents go, and a unit of a running region refills the one that covers its next
address. Units of a region that stands still refill at its restore. -/
def State.ackRegion (s : State) (q sl : Nat) (h : Shoot) : State :=
  let r := s.region q sl
  if !(h.allAsid || h.asid == r.asid) then s
  else
    let s := r.sites.foldl (fun s e =>
      s.fillLines q sl e.1 (fun l => h.covers r.asid (vpageOf (128 * l))) e.2.miss.length) s
    let r := s.region q sl
    let runs := s.regionRuns q r
    let again (d : Nat) (k : AccKind) (next : Option Nat) (l : List Extent) : List Extent :=
      if !runs then dropExtents (h.coversExtent r.asid) l
      else
        let kept := l.filter (fun e => !h.coversExtent r.asid e)
        let lost := l.filter (h.coversExtent r.asid)
        match next with
        | some va =>
          if lost.any (fun e => e.has (vpageOf va)) then
            match s.walkExtent d q r.root k va with
            | .ok e => addExtent kept e
            | .error _ => kept
          else kept
        | none => kept
    s.setRegion q sl (r.mapExtents again Site.nextVa Gen.nextVa)

/-- The acknowledgement of a tile's fetch unit: at once; lines it has fetched are used (R208). -/
def State.ackFetch (s : State) (m : Nat) (h : Shoot) : State :=
  let cl := s.clu m
  s.setClu m { cl with ftlb := cl.ftlb.filter (fun e => !h.coversTlb e) }

/-- The die a shoot-down comes from: that of the TLBINV's core. One of PF0 or of a migration reaches both. -/
def Shoot.die (h : Shoot) : Nat := match h.tid with | some (t, _) => clusterDie (slotOf t / 128) | none => 9

/-- The die of an agent of a shoot-down. -/
def State.agentDie (s : State) (q agent : Nat) : Nat :=
  if agent < 4096 then clusterDie (agent / 8)
  else if 16384 ≤ agent then (s.region q (agent - 16384)).x / 368
  else clusterDie (agent % 4096)

/-- SHOOTDOWN_ACK (R249): the agent acknowledges the oldest shoot-down it has not acknowledged. -/
def execShootdownAck (q agent : Nat) (s : State) : Host.Outcome State Fault Refusal :=
  let p := s.prt q
  .next (
    match p.shoots.find? (fun h => h.wait.contains agent) with
    | none => s
    | some h =>
      -- Across dies it waits for the bridge's clock (R20, R30).
      if !s.bridged (h.die) (s.agentDie q agent) then s
      else
      let s := s.setPrt q { p with shoots := p.shoots.map (fun x =>
        if x.gen = h.gen then { x with wait := x.wait.filter (fun a => a != agent) } else x) }
      let s :=
        if agent < 4096 then s.ackCore agent h
        else if 16384 ≤ agent then s.ackRegion q (agent - 16384) h
        else if 8192 ≤ agent then s.ackFetch (agent - 8192) h
        else s
      State.completeShoots q (p.shoots.length + 1) s)

/-- MMU_INVCTL_GO (R248, R274): a write of MMU_INVCTL; GO starts a shoot-down unless 4 are
outstanding. -/
def execMmuInvctlGo (q : Nat) (v : W64) (s : State) : Host.Outcome State Fault Refusal :=
  let p := s.prt q
  let s := s.setPrt q { p with invCtl := v &&& 0xFFFF0000006FFFFF }
  .next (if bitAt v 20 ∧ p.shoots.length < maxShoots ∧ p.exist then
    (s.startShoot q v (fld p.invAddr 63 12) none).2 else s)

/-! ## Tier migration (R252, R253) -/

/-- The page-table root of an address space of the partition: that of a running job with its ASID. -/
def State.rootOf (s : State) (q : Nat) (asid : W16) : Option Nat :=
  let p := s.prt q
  (p.jobRun.find? (fun e => (p.cntr 4 e.1).running && e.2.asid == asid)).map (fun e => e.2.root)

/-- The tier of a partition address: 1 HBM4, 2 DDR-5, 0 neither. -/
def State.tier (s : State) (q pa n : Nat) : Nat :=
  let p := s.prt q
  if pa + n ≤ p.hbmCap then 1
  else if prtDdrWin ≤ pa ∧ pa + n ≤ prtDdrWin + p.ddrCap then 2
  else 0

def Prt.migSlot (p : Prt) (i : Nat) : Mig := p.mig.look {} i
def Prt.setMig (p : Prt) (i : Nat) (m : Mig) : Prt := { p with mig := p.mig.put {} i m }

/-- The refusal reason of R253, or the leaf and its address. -/
def State.migCheck (s : State) (q i : Nat) (m : Mig) : Except Nat (Leaf × Nat) :=
  if m.run then .error 1
  else
    match s.rootOf q m.asid with
    | none => .error 2
    | some root =>
      let va := m.va.toNat
      if !canonical va then .error 2
      else
        match s.walk 9 q root va 0, s.leafAddr 9 q (va % 2 ^ 56) 4 root with
        | .leaf l, some at' =>
          if 2 ≤ l.size then .error 3
          else
            let n := 2 ^ pageBits l.size
            let dst := m.dst.toNat
            let ts := s.tier q l.addr n
            let td := s.tier q dst n
            if dst % n ≠ 0 ∨ td = 0 ∨ ts = 0 ∨ td = ts then .error 4
            else if (s.prt q).mig.any (fun e => e.1 != i && e.2.run &&
                (rangesMeet2 dst n e.2.src e.2.size || rangesMeet2 dst n e.2.rdst e.2.size)) then
              .error 5
            else .ok (l, at')
        | .leaf _, none => .error 3
        | .fault _, _ => .error 2
where
  rangesMeet2 (a n b k : Nat) : Bool := decide (a < b + k) && decide (b < a + n)

/-- MIG_START (R252, R253): a write of MIGCTL; START walks the page and opens a redirect, or refuses
with STATE REFUSED and a reason. The move of a running slot runs on, on the values it started with, and
ends with STATE DONE (log 21). -/
def execMigStart (q i : Nat) (v : W64) (s : State) : Host.Outcome State Fault Refusal :=
  let p := s.prt q
  let m := { p.migSlot i with asid := BitVec.ofNat 16 (fld v 63 48) }
  .next (
    if !bitAt v 0 then s.setPrt q (p.setMig i m)
    else
      match s.migCheck q i m with
      | .error r => s.setPrt q (p.setMig i { m with state := 3, reason := r })
      | .ok (l, at') =>
        (s.setPrt q (p.setMig i { m with
          state := 1, reason := 0, w := 0, src := l.addr, size := 2 ^ pageBits l.size, leaf := at', inv := none
          run := true, rva := m.va.toNat, rdst := m.dst.toNat, rasid := m.asid })).post
          (.migGranuleCopy q i))

/-- Copies bytes, full bits and uncorrectable errors of an aligned range between homes, and takes
word waiters and cached instruction lines along (R252, R97). -/
def State.moveBytes (s : State) (src dst n : Nat) : State :=
  let l := Memory.readList s.mem src n
  let bad := s.poison.filter (fun p => decide (src ≤ p) && decide (p < src + n))
  let s := (s.flushRange src (src + n)).flushRange dst (dst + n)
  let s := s.writeBytes dst l
  let s := (wordsOf src n).foldl (fun s w =>
    { s with full := match s.full.look .unset (w / 8) with
        | .unset => s.full.put .unset ((dst + w - src) / 8) (if s.fullAt w then .full else .empty)
        | f => s.full.put .unset ((dst + w - src) / 8) f }) s
  let inSrc (l : Nat) : Bool := decide (src ≤ 128 * l) && decide (128 * l < src + n)
  let inDst (l : Nat) : Bool := decide (dst ≤ 128 * l) && decide (128 * l < dst + n)
  let mv (l : Nat) : Nat := if inSrc l then dst / 128 + (l - src / 128) else l
  { s with
    poison := s.poison ++ bad.map (fun p => dst + (p - src))
    clusters := if n < 128 then s.clusters else s.clusters.map (fun (e : Nat × Cluster) => (e.1, { e.2 with
      icache := (e.2.icache.filter (fun x => inSrc x.line || !inDst x.line)).map
        (fun (x : IcLine) => { x with line := mv x.line })
      icSaved := e.2.icSaved.map (fun r => (r.1, r.2.1, mv r.2.2.1, r.2.2.2)) }))
    waiters := s.waiters.map (fun w =>
      if src ≤ w.addr ∧ w.addr < src + n then
        { w with addr := dst + (w.addr - src), part := { w.part with pa := dst + (w.part.pa - src) } }
      else w) }

/-- MIG_GRANULE_COPY (R252): one 64-byte granule moves past its drain point. -/
def execMigGranuleCopy (q i : Nat) (s : State) : Host.Outcome State Fault Refusal :=
  let p := s.prt q
  let m := p.migSlot i
  .next (
    if !m.run ∨ m.size ≤ m.w then s
    else
      match s.memHome q (m.src + m.w), s.memHome q (m.rdst + m.w) with
      | some a, some b =>
        let s := (s.performPrt q).moveBytes a b 64
        let w := m.w + 64
        (s.setPrt q ((s.prt q).setMig i { m with w := w })).post
          (if w < m.size then .migGranuleCopy q i else .migComplete q i)
      | _, _ => s)

/-- Rewrites a leaf's ADDR, in each of the 16 entries of a 64 KiB page. -/
def State.rewriteLeaf (s : State) (q : Nat) (m : Mig) : State :=
  let n := m.size / 4096
  let a0 := m.leaf - m.leaf % (8 * n)
  (List.range n).foldl (fun s k =>
    let a := a0 + 8 * k
    let e := s.readPte 9 q a
    match s.memHome q a with
    | some h => s.deviceStore h (leBytes 8 (e - pteAddr e + m.rdst))
    | none => s) s

/-- MIG_COMPLETE (R252 steps 4 to 6): the leaf is rewritten and the page shot down; once that
shoot-down is complete the redirect closes and the slot reads DONE. -/
def execMigComplete (q i : Nat) (s : State) : Host.Outcome State Fault Refusal :=
  let p := s.prt q
  let m := p.migSlot i
  .next (
    if !m.run ∨ m.w < m.size then s
    else
      match m.inv with
      | none =>
        if maxShoots ≤ p.shoots.length then s
        else
          let s := s.rewriteLeaf q m
          let ctl := BitVec.ofNat 64 (m.rasid.toNat * 2 ^ 48 + m.size / 4096)
          let (gen, s) := s.startShoot q ctl (m.rva / 4096 / (m.size / 4096) * (m.size / 4096)) none
          let p := s.prt q
          let s := s.setPrt q (p.setMig i { p.migSlot i with inv := some gen })
          State.completeShoots q (p.shoots.length + 1) s
      | some gen =>
        if ((s.prt q).genDone - gen).toNat < 2 ^ 15 then
          s.setPrt q (p.setMig i { m with state := 2, inv := none, run := false })
        else s)

end Sys2Proof.Machine
end

