-- ==== Sys2Proof/Machine/System.lean ====
section
/-!
DEFINITION. The system group (14 R410 to R420): system registers, the writes of R197, R263, R267 and
R419 that may be refused, TRET, I-cache control, TLBINV, SNAP, BRK, HINT and WAITI.
-/

namespace Sys2Proof.Machine

open Sys2Proof

/-- The state an event's meaning leaves; `s` where it leaves none. -/
def nextOr (o : Host.Outcome State Fault Refusal) (s : State) : State :=
  match o with
  | .next s => s
  | _ => s

/-! ## Register words -/

/-- CTXCTL (R269). -/
def Prt.ctxctl (p : Prt) : Nat :=
  p.ctxState * 2 ^ 28 + p.ctxStatus * 2 ^ 24 + b2n p.ctxSpilled * 2 ^ 10 + p.ctxHeld.toNat * 2 ^ 8 +
    p.ctxActive * 2 ^ 7

/-- FRPTR (R263). -/
def Prt.frptr (p : Prt) : Nat := p.frCons.toNat * 2 ^ 32 + p.frLost.toNat * 2 ^ 16 + p.frProd.toNat

/-- MIGVA, MIGDST, MIGCTL, MIGSTAT of a slot (R274), by number. -/
def Mig.word (m : Mig) (k : Nat) : Nat :=
  match k with
  | 0 => m.va.toNat
  | 1 => m.dst.toNat
  | 2 => m.asid.toNat * 2 ^ 48
  | _ => m.w % 2 ^ 32 * 2 ^ 32 + m.state * 16 + m.reason

/-- RQDESC and RQPTR (R419). -/
def RecvQ.desc (r : RecvQ) : Nat := b2n r.enable * 2 ^ 63 + r.base * 2 ^ 32 + r.cap
def RecvQ.ptr (r : RecvQ) : Nat := r.tail * 2 ^ 16 + r.head

/-- UISTAT and TSTAT (R419, R258). -/
def Thread.uistat (t : Thread) : Nat := t.uiPend.length * 2 ^ 8 + t.uiRlx.toNat * 16 + b2n t.uiin
def Thread.tstat (t : Thread) : Nat := t.tRlx.toNat * 16 + b2n t.intrap * 8 + b2n t.prev

/-- CTXINFO (R419). -/
def Thread.ctxinfo (t : Thread) : Nat :=
  t.asid.toNat * 2 ^ 48 + t.prt * 2 ^ 24 + t.ctx % 2 * 2 ^ 16 + t.lslot % 4096

/-- The core POOLSEL selects, when the partition owns it (R419). -/
def State.selCore (s : State) (q : Nat) (sel : W64) : Option Nat :=
  match s.coreOf q (BitVec.ofNat 32 sel.toNat) with
  | some c => if s.ownsCluster q (c / 8) then some c else none
  | none => none

/-- The value of a system register (R418) as thread `t` of a core reads it, with partition `q` and
context slot `x`. Write-only fields read zero. -/
def State.sysReg (s : State) (t q x n : Nat) : W64 :=
  let th := s.thread t
  let c := slotOf t / 16
  let p := s.prt q
  if 0x10 ≤ n ∧ n ≤ 0x13 then BitVec.ofNat 64 (fld th.ft (16 * (n - 0x10) + 15) (16 * (n - 0x10)))
  else if 0x14 ≤ n ∧ n ≤ 0x17 then th.sc.look 0 (n - 0x14)
  else if 0x20 ≤ n ∧ n < 0x30 then BitVec.ofNat 64 ((s.core c).rq.look {} (rqIdx x (n - 0x20))).desc
  else if 0x30 ≤ n ∧ n < 0x40 then BitVec.ofNat 64 ((s.core c).rq.look {} (rqIdx x (n - 0x30))).ptr
  else if 0x120 ≤ n ∧ n < 0x130 then
    BitVec.ofNat 64 ((p.migSlot ((n - 0x120) / 4)).word ((n - 0x120) % 4))
  else
    match n with
    | 0x000 => th.fflags.setWidth 64
    | 0x001 => th.mscope.setWidth 64
    | 0x002 => th.uivec
    | 0x003 => th.uiepc
    | 0x004 => th.uicause
    | 0x005 => BitVec.ofNat 64 th.uistat
    | 0x006 => th.mxhpc
    | 0x007 => th.snvec
    | 0x008 => (s.core c).cycle
    | 0x009 => BitVec.ofNat 64 th.ctxinfo
    | 0x100 => p.tvec x
    | 0x101 => th.tcause
    | 0x102 => th.tval
    | 0x103 => th.tepc
    | 0x104 => th.tscratch
    | 0x105 => BitVec.ofNat 64 th.tstat
    | 0x110 => p.frbase
    | 0x111 => BitVec.ofNat 64 p.frptr
    | 0x112 => p.frnote
    | 0x113 => p.fsave
    | 0x118 => p.mtpw0
    | 0x119 => p.mtpw1
    | 0x11C => BitVec.ofNat 64 p.ctxctl
    | 0x11D => p.ctxSpill
    | 0x130 => th.poolsel
    | 0x131 =>
      match s.selCore q th.poolsel with
      | some k => (s.core k).poolpw (fld th.poolsel 32 32)
      | none => 0
    | 0x132 =>
      match s.selCore q th.poolsel with
      | some k => ((s.clu (k / 8)).mxweight).setWidth 64
      | none => 0
    | 0x138 => p.dbgctl
    | _ => 0

/-! ## Writes that may be refused whole -/

/-- The context slot has a live thread on the core, a locked granule there, or a queued matrix
command (R197). -/
def State.poolBusy (s : State) (c x : Nat) : Bool :=
  s.threads.any (fun e => slotOf e.1 / 16 == c && decide (e.2.st ≠ .empty) && e.2.ctx == x) ||
    ((s.clu (c / 8)).queues.look [] (c % 8)).any (fun m => m.ctx == x) ||
    s.regions.any (fun e => e.2.loaded && e.2.armed && e.2.ctx == x && e.2.mxs.any (fun f =>
      f.cluster == c / 8 && !f.ws.isEmpty && fld (f.ws.getD 0 0) 16 14 == c % 8))

/-- R197: the word may be written. -/
def State.poolOk (s : State) (c x : Nat) (v : W64) : Bool :=
  let p := poolWord v
  let o := poolWord ((s.core c).poolpw (1 - x))
  decide (p.base + p.rsize + p.scrkb + p.acckb ≤ 240) && decide (p.acckb % 2 = 0) &&
    decide (p.slots ≤ 16) && decide (p.drslots ≤ 2) && decide (p.drslots ≤ p.slots) &&
    !(p.valid && o.valid && decide (1024 * p.base < o.stop) && decide (1024 * o.base < p.stop)) &&
    !s.poolBusy c x

/-- POOLPW_WRITE (R197, R214): accepted, clearing PWREFUSED, or refused whole, setting it. An accepted
write changes no byte of the pool. -/
def execPoolpwWrite (c x : Nat) (v : W64) (s : State) : Host.Outcome State Fault Refusal :=
  let v := v &&& 0x00000FFFFFFC01FF
  let k := s.core c
  .next (
    if s.poolOk c x v then
      let s := s.carveOut c x
      let s := s.setCore c (if x = 0 then { k with poolpw0 := v, pwRefused := false }
        else { k with poolpw1 := v, pwRefused := false })
      let s := s.carveIn c x
      if k.queue.isEmpty then s else s.post (.taskDispatch c)
    else s.setCore c { k with pwRefused := true })

/-- MTPW_WRITE (R267): refused whole when the shares overlap, when the share runs past 64 KiB, or
when the slot has a loaded region. -/
def execMtpwWrite (q x : Nat) (v : W64) (s : State) : Host.Outcome State Fault Refusal :=
  let v := v &&& 0x7F7F
  let p := s.prt q
  let (lo, n) := (fld v 14 8, fld v 6 0)
  let w := if x = 0 then p.mtpw1 else p.mtpw0
  let (lo', n') := (fld w 14 8, fld w 6 0)
  .next (
    if 64 < lo + n ∨ (lo < lo' + n' ∧ lo' < lo + n ∧ 0 < n ∧ 0 < n') ∨
        s.regions.any (fun e => e.1 / 4096 == q && e.2.loaded && e.2.ctx == x) then s
    else s.setPrt q (if x = 0 then { p with mtpw0 := v } else { p with mtpw1 := v }))

/-- FRBASE_WRITE (R263): LOG2N 6 to 12, or 0; any other value ignores the write whole. -/
def execFrbaseWrite (q : Nat) (v : W64) (s : State) : Host.Outcome State Fault Refusal :=
  let lg := fld v 4 0
  .next (if lg = 0 ∨ (6 ≤ lg ∧ lg ≤ 12) then
    s.setPrt q { s.prt q with frbase := v &&& 0x000FFFFFFFFFF01F } else s)

/-- RQDESC_WRITE (R419): ignored whole when CAP is 0 with ENABLE 1 or the ring runs past SCRKB; else
HEAD and TAIL are zero and the queue's messages are gone. DESIGN CHOICE (log 61): the map calls BASE
16-byte aligned and gives bits [35:32] no fate; they are stored as the RW bits of the field that they
are (R5), and the ring begins at the byte they give. -/
def execRqdescWrite (c x n : Nat) (v : W64) (s : State) : Host.Outcome State Fault Refusal :=
  let k := s.core c
  let cap := fld v 11 0
  let base := fld v 49 32
  .next (
    if (cap = 0 ∧ bitAt v 63) ∨ 1024 * (s.pw c x).scrkb < base + 16 * (cap + 1) then s
    else
      let r : RecvQ := { enable := bitAt v 63, base := base, cap := cap, head := 0, tail := 0 }
      s.setCore c { k with rq := k.rq.put {} (rqIdx x n) r })

/-! ## MFS and MTS (R411, R418) -/

/-- Registers whose read or write is at supervisor privilege (R418). -/
def sysSup (n : Nat) (write : Bool) : Bool :=
  decide (0x100 ≤ n) || (write && decide (0x20 ≤ n) && decide (n < 0x30))

/-- MFS (R411). -/
def execMfs (d : GReg) (num : BitVec 12) (s : State) : Host.Outcome State Fault Refusal :=
  let w := wordOf (.mfs d num)
  let n := num.toNat
  let th := s.thr
  .next (
    if !sysAssigned n then s.illegal w
    else if sysSup n false ∧ !th.sup then s.privileged w
    else s.fin d (s.sysReg s.tid th.prt th.ctx n))

/-- What a write of a thread's own register stores; RO and RZ fields keep their value. -/
def Thread.writeSys (t : Thread) (n : Nat) (v : W64) : Thread :=
  match n with
  | 0x000 => { t with fflags := v.setWidth 5 }
  | 0x001 => { t with mscope := v.setWidth 3 }
  | 0x002 => { t with uivec := v &&& ~~~2 }
  | 0x003 => { t with uiepc := v &&& ~~~3 }
  | 0x005 => { t with uiRlx := BitVec.ofNat 4 (fld v 7 4) }
  | 0x006 => { t with mxhpc := v &&& ~~~3 }
  | 0x007 => { t with snvec := v &&& ~~~2 }
  | 0x102 => { t with tval := v }
  | 0x103 => { t with tepc := v }
  | 0x104 => { t with tscratch := v }
  | 0x105 => { t with tRlx := BitVec.ofNat 4 (fld v 7 4), prev := bitAt v 0 }
  | 0x130 => { t with poolsel := v &&& 0x1FFFFFFFF }
  | _ => t

/-- MIGVA and MIGDST of a slot, which store what is written while the slot runs too (R5, R274). -/
def Mig.write (m : Mig) (k : Nat) (v : W64) : Mig :=
  match k with
  | 0 => { m with va := v &&& ~~~0xFFF }
  | 1 => { m with dst := v &&& 0x000FFFFFFFFFF000 }
  | _ => m

/-- A partition, context, core or cluster register is written by thread `tid` of partition `q`. -/
def State.writeShared (s : State) (q x n : Nat) (v : W64) : State :=
  let p := s.prt q
  let c := slotOf s.tid / 16
  if 0x20 ≤ n ∧ n < 0x30 then nextOr (execRqdescWrite c x (n - 0x20) v s) s
  else if 0x120 ≤ n ∧ n < 0x130 then
    let i := (n - 0x120) / 4
    let k := (n - 0x120) % 4
    if k = 2 then nextOr (execMigStart q i v s) s
    else s.setPrt q (p.setMig i ((p.migSlot i).write k v))
  else
    match n with
    | 0x100 => s.setPrt q (if x = 0 then { p with tvec0 := v &&& ~~~3 } else { p with tvec1 := v &&& ~~~3 })
    | 0x110 => nextOr (execFrbaseWrite q v s) s
    | 0x111 => s.setPrt q { p with frCons := BitVec.ofNat 16 (fld v 47 32) }
    | 0x112 => s.setPrt q { p with frnote := v &&& 0xC0000000FFFFFFFF }
    | 0x113 => s.setPrt q { p with fsave := v &&& 0x000FFFFFFFF00FFF }
    | 0x114 => nextOr (execFrackResume q v s) s
    | 0x118 => nextOr (execMtpwWrite q 0 v s) s
    | 0x119 => nextOr (execMtpwWrite q 1 v s) s
    | 0x11C => s.ctxCmd q (fld v 2 0)
    | 0x11D => s.setPrt q { p with ctxSpill := v &&& 0x000FFFFFFFFFF000 }
    | 0x131 =>
      let sel := s.thr.poolsel
      match s.selCore q sel with
      | some k => nextOr (execPoolpwWrite k (fld sel 32 32) v s) s
      | none => s
    | 0x132 =>
      match s.selCore q s.thr.poolsel with
      | some k => (s.setClu (k / 8) { s.clu (k / 8) with mxweight := v.setWidth 32 }).post (.kStepGrant (k / 8))
      | none => s
    | 0x138 => s.setPrt q { p with dbgctl := v &&& 3 }
    | _ => s

/-- MTS (R411). -/
def execMts (a : GReg) (num : BitVec 12) (s : State) : Host.Outcome State Fault Refusal :=
  let w := wordOf (.mts a num)
  let n := num.toNat
  let th := s.thr
  let v := s.g a
  .next (
    if !sysAssigned n ∨ sysReadOnlyIll n then s.illegal w
    else if sysSup n true ∧ !th.sup then s.privileged w
    else ((s.setThr (th.writeSys n v)).writeShared th.prt th.ctx n v).adv)

/-- TRET (R256, R413): ILL with INTRAP 0. -/
def execTret (s : State) : Host.Outcome State Fault Refusal :=
  .next (
    if !s.thr.intrap then s.illegal (wordOf .tret)
    else if !s.thr.sup then s.privileged (wordOf .tret)
    else s.trapReturn)

/-! ## I-cache control (R202 to R204, R414) -/

/-- The 128-byte lines of a byte range, by virtual address. -/
def rangeLines (va n : Nat) : List Nat :=
  if n = 0 then []
  else (List.range ((va % 128 + n + 127) / 128)).map (fun i => (va / 128 + i) * 128 % 2 ^ 64)

/-- ILOCK's check of the page of a line (R203). -/
def lockKind : AccKind := { ex := true, noUser := true }

/-- The line number at a line's home, as a fetch unit finds it. -/
def State.lineAt (s : State) (va : Nat) : PieceRes :=
  if localWin ≤ va then .fault cACCESS lockKind.detail va
  else s.agentPiece ⟨s.thr.prt, s.thr.root, false, none⟩ lockKind va 128

/-- ILOCK (R203, R414): every line of the range is locked, or none. -/
def execIlock (d a : GReg) (s : State) : Host.Outcome State Fault Refusal :=
  let w := wordOf (.ilock d a)
  let th := s.thr
  let m := s.tid / 128
  .next (
    if !th.sup then s.privileged w
    else
      let rs := (rangeLines (s.g a).toNat (s.g d).toNat).map (fun va => s.lineAt va)
      match firstFault rs with
      | some (c, det, v) => s.takeTrap w c (BitVec.ofNat 64 v) det
      | none =>
        let lines := (partsOf rs).map (fun p => p.1.pa / 128)
        let code := (s.clu m).lockCode lines
        let s := if code = 0 then lines.foldl (fun s l => s.lockLine m th.prt th.ctx l) s else s
        s.fin d (BitVec.ofNat 64 code))

/-- IUNLOCK (R414): the lines of the range the context has locked are released and counted. -/
def execIunlock (d a : GReg) (s : State) : Host.Outcome State Fault Refusal :=
  let th := s.thr
  let m := s.tid / 128
  .next (
    if !th.sup then s.privileged (wordOf (.iunlock d a))
    else
      let lines := (partsOf ((rangeLines (s.g a).toNat (s.g d).toNat).map (fun va => s.lineAt va))).map
        (fun p => p.1.pa / 128)
      let cl := s.clu m
      let hit (x : IcLine) : Bool :=
        x.locked && x.prt == th.prt && x.ctx == th.ctx && lines.contains x.line
      let s := s.setClu m { cl with icache := cl.icache.map (fun (x : IcLine) =>
        if hit x then { x with locked := false } else x) }
      s.fin d (BitVec.ofNat 64 (cl.icache.filter hit).length))

/-- IFLUSH (R202, R414): unlocked lines of the partition go, locked lines are refetched in place. -/
def execIflush (s : State) : Host.Outcome State Fault Refusal :=
  let m := s.tid / 128
  let cl := s.clu m
  let keep := cl.icache.filter (fun x => x.locked || x.prt != s.thr.prt)
  .next ((s.setClu m { cl with icache := keep.map (fun (x : IcLine) =>
    if x.prt = s.thr.prt then { x with data := s.homeLine m x.line } else x) }).adv)

/-! ## TLBINV, SNAP, BRK, HINT, WAITI -/

/-- TLBINV (R415, R248): accesses of the thread are performed, then a shoot-down of its partition
starts and the thread waits in MEMORY for its generation; with 4 outstanding it waits to start. -/
def execTlbinv (d a : GReg) (s : State) : Host.Outcome State Fault Refusal :=
  let q := s.thr.prt
  .next (
    if !s.thr.sup then s.privileged (wordOf (.tlbinv d a))
    else if maxShoots ≤ (s.prt q).shoots.length then s.waitIn .memory true
    else
      let (ctl, va) := (s.g d, s.g a)
      let s := (s.release 4).waitIn .memory false
      let s := (s.startShoot q ctl (fld va 63 12) (some (s.tid, d.toNat))).2
      State.completeShoots q ((s.prt q).shoots.length + 1) s)

/-- SNAP (R416, R69). -/
def execSnap (d : GReg) (s : State) : Host.Outcome State Fault Refusal :=
  let on := bitAt (s.prt s.thr.prt).dbgctl 1 && s.dbg.srcSnap
  .next (
    if on then (s.clapperAt 1 (some (clusterDie (s.tid / 128)))).fin d (if s.dbg.arm then 1 else 0)
    else s.fin d 0)

/-- BRK (R416): Tocsin with CAUSE BRK when BRKEN is 1, else as YIELD. -/
def execBrk (s : State) : Host.Outcome State Fault Refusal :=
  .next (if bitAt (s.prt s.thr.prt).dbgctl 0 then (s.tocsinAt 1 (some (clusterDie (s.tid / 128)))).adv else s.adv)

/-- HINT (R416): no architectural effect for any n. -/
def execHint (_n : BitVec 6) (s : State) : Host.Outcome State Fault Refusal := .next s.adv

/-- WAITI (R417): waits BLOCKED for an event after its issue, then writes the events since. -/
def execWaiti (d : GReg) (s : State) : Host.Outcome State Fault Refusal :=
  let th := s.thr
  .next (
    if !th.sup then s.privileged (wordOf (.waiti d))
    else if !th.wiWait then (s.setThr { th with wiWait := true, wi := 0 }).waitIn .blocked true
    else if th.wi = 0 then s.waitIn .blocked true
    else (s.setThr { th with wiWait := false, wi := 0 }).fin d (th.wi.setWidth 64))

end Sys2Proof.Machine
end

