-- ==== Sys2Proof/Machine/Debug.lean ====
section
/-!
DEFINITION. Clapper, event comparators and Tocsin as the host and other packages drive them
(03 R69 to R75).
-/

namespace Sys2Proof.Machine

open Sys2Proof

/-- CLAPPER_FIRE (R69). -/
def execClapperFire (s : State) : Host.Outcome State Fault Refusal := .next (s.clapper 0)

/-- CLAPPER_ARM (R69): a write of SNP_CTL; ARM 1 arms and clears LATCHED, and FIRE triggers. -/
def execClapperArm (v : W32) (s : State) : Host.Outcome State Fault Refusal :=
  let d := { s.dbg with
    clapProp := bitAt v 7, srcTocsin := bitAt v 3, srcEvent := bitAt v 2, srcSnap := bitAt v 1
    arm := bitAt v 0, latched := if bitAt v 0 then false else s.dbg.latched }
  let s := { s with dbg := d }
  .next (if bitAt v 8 then s.clapper 0 else s)

/-- REMOTE_CLAPPER_TRIGGER (R69). -/
def execRemoteClapperTrigger (s : State) : Host.Outcome State Fault Refusal := .next (s.clapper 4)

/-- DBG_EVT_WRITE (R71): ACTION 3 and SCOPE 3 ignore the write whole. -/
def execDbgEvtWrite (n : Nat) (v : W32) (s : State) : Host.Outcome State Fault Refusal :=
  .next (
    if fld v 30 29 = 3 ∨ fld v 23 22 = 3 then s
    else
      let e : Evt := s.dbg.evts.look {} n
      { s with dbg := { s.dbg with evts := s.dbg.evts.put {} n { e with ctl := v &&& 0xE0C0FFFF } } })

/-- TOCSIN_HALT (R75). -/
def execTocsinHalt (s : State) : Host.Outcome State Fault Refusal := .next (s.tocsin 0)

/-- TOCSIN_HALTED (R72): every clock and rotation has stopped. -/
def execTocsinHalted (s : State) : Host.Outcome State Fault Refusal :=
  .next (if s.dbg.toc = .halting then
    { s with dbg := { s.dbg with toc := .halted } }.irq pf0 2 else s)

/-- TOCSIN_STEP (R75): the partitions of DBG_STEPMASK run for STEPS cycles. -/
def execTocsinStep (s : State) : Host.Outcome State Fault Refusal :=
  .next (if s.dbg.toc = .halted ∧ !s.dbg.fatal ∧ s.dbg.steps ≠ 0 then
    ({ s with dbg := { s.dbg with toc := .stepping } }.takeHeldReplies).wakeAll else s)

/-- TOCSIN_STEP_END (R75, R57): the steps are over and STATE reaches HALTED. -/
def execTocsinStepEnd (s : State) : Host.Outcome State Fault Refusal :=
  .next (if s.dbg.toc = .stepping then
    { s with dbg := { s.dbg with toc := .halted } }.irq pf0 2 else s)

/-- RESUME (R75): only in HALTED with FATAL clear; with PROPAGATE it goes to linked packages (R74). -/
def State.resume (s : State) : State :=
  if s.dbg.toc = .halted ∧ !s.dbg.fatal then
    let s := ({ s with dbg := { s.dbg with toc := .running } }.takeHeldReplies).wakeAll
    if s.dbg.tocProp then s.propagate (.tocsin true) else s
  else s

/-- TOCSIN_RESUME (R75). -/
def execTocsinResume (s : State) : Host.Outcome State Fault Refusal := .next s.resume

/-- REMOTE_TOCSIN (R72, R74). -/
def execRemoteTocsin (resume : Bool) (s : State) : Host.Outcome State Fault Refusal :=
  .next (if resume then s.resume else s.tocsin 3)

/-- A write of DBG_TOCSIN (R74): PROPAGATE, STEPS and a command. -/
def State.writeTocsin (s : State) (v : W32) : State :=
  let s := { s with dbg := { s.dbg with tocProp := bitAt v 23, steps := fld v 15 0 } }
  match fld v 19 18 with
  | 1 => nextOr (execTocsinHalt s) s
  | 2 => nextOr (execTocsinStep s) s
  | 3 => nextOr (execTocsinResume s) s
  | _ => s

end Sys2Proof.Machine
end

