-- ==== Sys2Proof/Machine/FabricCtl.lean ====
section
/-!
DEFINITION. Fabric control and stream instructions (14 R385, R397 to R404).
-/

namespace Sys2Proof.Machine

open Sys2Proof

/-! ## Loads (R398 to R400) -/

/-- The issuing thread's load of an image. -/
def State.threadLoad (s : State) (slot : Nat) (shadow : Bool) (image : W64) (origin : W32) (d : GReg) :
    State :=
  let th := s.thr
  let l : CfgLoad :=
    { port := leadPort origin, prt := th.prt, ctx := th.ctx, asid := th.asid, root := th.root
      slot := slot, shadow := shadow, image := image, user := !th.sup, origin := origin
      waiter := some (s.tid, d.toNat), sched := false }
  (s.waitIn .memory false).startLoad l

/-- The launch of a ring slot holds a region, or one is on its way (R398). -/
def State.hasRegion (s : State) (q sl : Nat) : Bool :=
  (s.region q sl).loaded || s.loads.any (fun l => l.prt == q && l.slot == sl && !l.shadow)

/-- CFGLOAD (R398): the load status goes to g[c] when the load ends. -/
def execCfgload (a b c : GReg) (s : State) : Host.Outcome State Fault Refusal :=
  let th := s.thr
  .next (
    if 4096 ≤ th.lslot then s.fin c (loadWord 0 0 1 th.lslot)
    else if s.hasRegion th.prt th.lslot then s.fin c (loadWord 0 0 2 th.lslot)
    else s.revokes (wordOf (.cfgload a b c)) ((s.g b).setWidth 32) fun s =>
      s.threadLoad th.lslot false (s.g a) (s.relocate th.prt ((s.g b).setWidth 32)) c)

/-- CFGARM (R399): 0 armed, 1 no loaded region or its last load failed, 2 already armed. -/
def execCfgarm (a c : GReg) (s : State) : Host.Outcome State Fault Refusal :=
  let sl := fld (s.g a) 11 0
  let r := s.region s.thr.prt sl
  .next (
    if r.loaded ∧ (r.armed ∨ r.arming) then s.fin c 2
    else if !r.loaded ∨ r.loadst ≠ 0 then s.fin c 1
    else (s.waitIn .memory false).askArm s.thr.prt sl (some (s.tid, c.toNat)))

/-- CFGSHADOW (R400): a slot with no armed region gives NOSHADOW. -/
def execCfgshadow (a b c : GReg) (s : State) : Host.Outcome State Fault Refusal :=
  let sl := fld (s.g b) 11 0
  let r := s.region s.thr.prt sl
  .next (s.threadLoad sl true (s.g a) (fabSite s.pkg (siteAt r.x r.y) 0) c)

/-! ## ROLL (R401) -/

/-- The source unit a local site word names (R185): a site, or a generator by its key. -/
def Region.source (r : Region) (w : W32) : Option (Nat × Option Nat) :=
  match r.rect.loc w with
  | none => none
  | some (i, sub) =>
    let c := (r.site i).cfg
    if isSeamSite i then
      (if sub ≤ 3 ∧ (r.gen (4 * i + sub)).isLoad then some (i, some (4 * i + sub)) else none)
    else if sub = 0 ∧ ((c.kind = 1 ∧ c.copyOf.isNone ∧ c.usedPorts.isEmpty) ∨ c.readsMemory) then some (i, none)
    else none

/-- The named sources emit ROLL behind their D. -/
def Region.askRoll (r : Region) (us : List (Nat × Option Nat)) : Region :=
  us.foldl (fun (r : Region) u =>
    match u.2 with
    | some k => r.setGen k { r.gen k with rollReq := true }
    | none => r.setSite u.1 { r.site u.1 with rollReq := true }) r

def State.rollStart (s : State) (q sl : Nat) (ws : List W32) (d : GReg) : State :=
  let r := s.region q sl
  let us := ws.map r.source
  if !r.armed ∨ (!r.hasShadow ∧ !r.rolling) then s.fin d 1
  else if us.any Option.isNone then s.fin d 2
  else if r.rolling then s.fin d 3
  else
    let r := r.rollIssue.askRoll (us.filterMap id)
    let r := { r with rollWait := some (s.tid, d.toNat) }
    (s.waitIn .memory false).afterSwap q sl r

/-- ROLL (R401): 0 OK once every named site has taken its ROLL, 1 NOSHADOW, 2 BADSITE, 3 ROLLING. It waits until
COMMIT of a resize of the region's blocks (R420). -/
def execRoll (a b c : GReg) (s : State) : Host.Outcome State Fault Refusal :=
  let w := wordOf (.roll a b c)
  let sl := fld (s.g a) 11 0
  let va := (s.g b).toNat
  .next (if s.reshaped s.thr.prt sl then s.waitIn .memory true else s.readRecord w va 4 (fun l s =>
    let n := leNat l
    let r := s.region s.thr.prt sl
    if n < 1 ∨ 64 < n then s.fin c (if !r.armed ∨ (!r.hasShadow ∧ !r.rolling) then 1 else 2)
    else s.readRecord w ((va + 4) % 2 ^ 64) (4 * n) (fun l s =>
      s.rollStart s.thr.prt sl ((List.range n).map (fun i => BitVec.ofNat 32 (leNat ((l.drop (4 * i)).take 4)))) c)))

/-! ## CFGPATCH (R402) -/

/-- CFGPATCH (R402): the unit's least recently used extent is filled to cover g[a]: 0 OK, 1 no such
unit of an armed region, 2 the page is not present or refused. It waits as ROLL does (R420). -/
def execCfgpatch (a b c : GReg) (s : State) : Host.Outcome State Fault Refusal :=
  let q := s.thr.prt
  let sl := fld (s.g b) 43 32
  let r := s.region q sl
  let va := (s.g a).toNat
  .next (
    if s.reshaped q sl then s.waitIn .memory true
    else
    match (if r.onFab && r.armed then r.rect.loc ((s.g b).setWidth 32) else none) with
    | none => s.fin c 1
    | some (i, sub) =>
      if isSeamSite i then
        let g := r.gen (4 * i + sub)
        if 3 < sub ∨ g.ws.isEmpty then s.fin c 1
        else
          match s.walkExtent (siteDie i) q r.root g.need va with
          | .ok e => (s.setRegion q sl (r.setGen (4 * i + sub) { g with extents := addExtent g.extents e })).fin c 0
          | .error _ => s.fin c 2
      else
        let x := r.site i
        if sub ≠ 0 ∨ x.cfg.kind ≠ 3 then s.fin c 1
        else
          match s.walkExtent (siteDie i) q r.root x.cfg.need va with
          | .ok e => (s.setRegion q sl (r.setSite i { x with extents := addExtent x.extents e })).fin c 0
          | .error _ => s.fin c 2)

/-! ## Tokens from and to threads (R403, R385) -/

/-- The site and subsite a SITE word names after R83, of an armed region of the thread's partition. -/
def State.streamSite (s : State) (w : W32) : Option (Nat × Nat × Nat × Region) :=
  let q := s.thr.prt
  let w := s.relocate q w
  if sitePkg w ≠ s.pkg then none
  else
    match siteName w with
    | .fabric i sub =>
      match s.regionAt i with
      | some (p, sl, r) => if p = q ∧ r.loaded then some (i, sub, sl, r) else none
      | none => none
    | _ => none

/-- The FIFO tile a SITE word names: SUB 0, the site itself (R28). -/
def State.fifoSite (s : State) (w : W32) : Option (Nat × Nat × Region) :=
  match s.streamSite w with
  | some (i, _, sl, r) => if (r.site i).cfg.role = 2 ∧ fld w 6 0 = 0 then some (i, sl, r) else none
  | none => none

/-- R142, R403: the tag a thread gives a token is ill formed. -/
def badTag (t : Token) : Bool :=
  fld t.tag 2 0 != 0 || (!t.isStop && t.level != 0) || (!t.isValue && t.lanes != 0)

def tokenArg (x p : W64) : Token := ⟨p, BitVec.ofNat 12 (fld x 43 32)⟩

/-- An injection: the region is not quiescent (R176). -/
def Region.inject (r : Region) : Region := { r with quiescent := false }

/-- QPUT (R403, R237): released at PACKAGE scope; 0 appended, 1 FULL, 2 NOSITE, 3 BADTAG. -/
def execQput (a b c : GReg) (s : State) : Host.Outcome State Fault Refusal :=
  let x := s.g a
  let t := tokenArg x (s.g b)
  .next (s.revokes (wordOf (.qput a b c)) (x.setWidth 32) fun s =>
    let s := s.release 4
    let q := s.thr.prt
    match s.fifoSite (x.setWidth 32) with
    | none => s.fin c 2
    | some (i, sl, r) =>
      let y := r.site i
      if !r.armed then s.fin c 2
      else if badTag t then s.fin c 3
      else if y.fifoFull then s.fin c 1
      else
        let (s, y) := s.fifoPut q r.ctx i y t
        (s.putSite q sl i r.inject y).fin c 0)

/-- QTAKE (R403): the payload goes to g[c], the tag and the status 0 OK, 1 EMPTY, 2 NOSITE to g[b];
an acquire at PACKAGE scope. -/
def execQtake (a b c : GReg) (s : State) : Host.Outcome State Fault Refusal :=
  let x := s.g a
  let q := s.thr.prt
  let out (s : State) (p : W64) (tag st : Nat) : State :=
    ((s.setG c p).setG b (BitVec.ofNat 64 (tag + st * 2 ^ 12))).adv
  .next (s.revokes (wordOf (.qtake a b c)) (x.setWidth 32) fun s =>
    match s.fifoSite (x.setWidth 32) with
    | none => out s 0 0 2
    | some (i, sl, r) =>
      let y := r.site i
      if !r.armed then out s 0 0 2
      else if y.fifoEmpty then out (s.acquire 4) 0 0 1
      else
        let t := s.fifoHead q r.ctx i y
        let y := { y with head := y.fifoNext y.head, flagX := y.flagX && !t.isRoll }
        out ((s.putSite q sl i r y).acquire 4) t.payload t.tag.toNat 0)

/-- QWAIT (R385): returns the pointer word once it differs from g[b]; all ones with no FIFO tile. -/
def execQwait (a b c : GReg) (s : State) : Host.Outcome State Fault Refusal :=
  .next (s.revokes (wordOf (.qwait a b c)) ((s.g a).setWidth 32) fun s =>
    match s.fifoSite ((s.g a).setWidth 32) with
    | none => s.fin c 0xFFFFFFFFFFFFFFFF
    | some (i, _, r) =>
      let y := r.site i
      let w := y.head + y.tail * 2 ^ 16
      if w ≠ fld (s.g b) 27 0 then s.fin c (BitVec.ofNat 64 w)
      else s.waitIn .blocked true)

/-- CTOK (R403): a token enters an input port of a compute element: 0 placed, 1 FULL, 2 NOSITE,
3 BADTAG. -/
def execCtok (a b c : GReg) (s : State) : Host.Outcome State Fault Refusal :=
  let x := s.g a
  let t := tokenArg x (s.g b)
  .next (s.revokes (wordOf (.ctok a b c)) (x.setWidth 32) fun s =>
    let s := s.release 4
    match s.streamSite (x.setWidth 32) with
    | none => s.fin c 2
    | some (i, sub, sl, r) =>
      let y := r.site i
      if !r.armed ∨ y.cfg.kind ≠ 1 ∨ y.cfg.copyOf.isSome ∨ !y.cfg.usedPorts.contains (sub - 1) ∨ sub < 1 ∨
          3 < sub then s.fin c 2
      else if badTag t ∨ t.isRoll then s.fin c 3
      else if bufCap (sub + 3) ≤ (y.buf (sub + 3)).length then s.fin c 1
      else (s.putSite s.thr.prt sl i r.inject (y.push (sub + 3) t)).fin c 0)

/-! ## Escape replies (R404) -/

/-- The site a reply word names by its escape port, before R83. -/
def replyName (x : W64) : Option Nat :=
  let port : W32 := BitVec.ofNat 32 (fld x 63 32)
  match siteName port with
  | .escPort seam =>
    (siteBlock seam).map (fun blk => blockSite blk + fld x 13 6 % 16 * 128 + fld x 13 6 / 16)
  | _ => none

/-- The ESC element a reply word names, after R83: the port word must be its escape port, on a block
of the partition. -/
def State.replySite (s : State) (x : W64) : Option Nat :=
  let q := s.thr.prt
  let port : W32 := BitVec.ofNat 32 (fld x 63 32)
  let l := fld x 13 6
  match siteName port with
  | .escPort seam =>
    if sitePkg port ≠ s.pkg ∨ fld x 15 14 ≠ 0 then none
    else
      match siteBlock seam with
      | none => none
      | some blk =>
        let i := blockSite blk + l % 16 * 128 + l / 16
        let w := s.relocate q (fabSite s.pkg i 0)
        if escPortWord s.pkg i ≠ port then none
        else
          match siteName w with
          | .fabric k _ =>
            match siteBlock k with
            | some n => if s.holdsBlock q n then some k else none
            | none => none
          | _ => none
  | _ => none

/-- Answers the ticket of a reply word with tokens made from the parked one, or traps TICKET (R404). -/
def State.escReply (s : State) (w : W32) (x : W64) (toks : Token → List Token) : State :=
  if (replyName x).any (fun i => s.siteRevoked s.thr.prt (fabSite s.pkg i 0)) then
    s.takeTrap w cREVOKED (((replyName x).map (fun i => fabSite s.pkg i 0)).getD 0 |>.setWidth 64) 0
  else
  let s := s.release 4
  let q := s.thr.prt
  let ctx := s.thr.ctx
  let k := fld x 5 0
  let gen := fld x 31 16
  let bad : State := s.takeTrap w cTICKET x 0
  match s.replySite x with
  | none => bad
  | some i =>
    let parked (r : Region) : Bool :=
      let t := (r.site i).tickets.look {} k
      r.loaded && r.ctx == ctx && r.has i && t.st == 1 && t.gen == gen
    match s.regions.find? (fun e => e.1 / 4096 == q && parked e.2) with
    | none => bad
    | some (key, r) =>
      let y := r.site i
      match y.answer k gen (toks (y.tickets.look {} k).tok) with
      | none => bad
      | some y =>
        let s := s.putRegion q (key % 4096) (r.setSite i y)
        let s := s.poke (.escapeTokenLeave i)
        let mine : Bool := match s.thr.held with
          | some h => h.prt == q && h.slot == key % 4096 && h.site == i && h.ticket == k && h.gen == gen
          | none => false
        (if mine then s.setThr { s.thr with held := none } else s).adv

/-- EREPLY (R404, R170): no word re-emits the parked token; one or two words emit value tokens with
the parked token's tag. -/
def execEreply (a b c : GReg) (k : Fin 3) (s : State) : Host.Outcome State Fault Refusal :=
  let x := s.g a
  let y := s.g b
  let z := s.g c
  .next (s.escReply (wordOf (.ereply a b c k)) x (fun t =>
    let t := t.plain
    match k.val with
    | 0 => [t]
    | 1 => [{ t with payload := y }]
    | _ => [{ t with payload := y }, { t with payload := z }]))

/-- EDROP (R404): the ticket is answered with no token. -/
def execEdrop (a : GReg) (s : State) : Host.Outcome State Fault Refusal :=
  .next (s.escReply (wordOf (.edrop a)) (s.g a) (fun _ => []))

end Sys2Proof.Machine
end

