-- ==== Sys2Proof/Machine/Links.lean ====
section
/-!
DEFINITION. Peal links: registers, training, flits, replay, routes and what a flit does where it is
delivered (02 R36 to R46; 14 R382, R392, R394; 05 R137).
-/

namespace Sys2Proof.Machine

open Sys2Proof

/-! ## Registers (R43, R46) -/

/-- LNK_PKGID_WRITE (R46): only the first write counts. -/
def execLnkPkgidWrite (v : W32) (s : State) : Host.Outcome State Fault Refusal :=
  .next (if s.lnk.lock then s
    else { s with lnk := { s.lnk with pkgid := fld v 7 0, lock := true } })

/-- LINK_CLR (R46). -/
def execLinkClr (n : Nat) (s : State) : Host.Outcome State Fault Refusal :=
  .next (s.setLink n { s.link n with replays := 0, drops := 0 })

/-- LNK_PRT_RT_WRITE (R43): an entry that names a link outside the partition's mask is refused whole
and sets REFUSED. A LINK is named with VALID, an ALT with ALT_VALID (log 25). -/
def execLnkPrtRtWrite (q cls dst : Nat) (v : W32) (s : State) : Host.Outcome State Fault Refusal :=
  let p := s.prt q
  let k := rtKey cls dst
  let bad := (bitAt v 9 && !bitAt p.linkMask (fld v 3 0)) || (bitAt v 8 && !bitAt p.linkMask (fld v 7 4))
  let e : W32 := if bad then p.rt.look 0 k ||| 0x80000000 else v &&& 0x3FF
  .next (s.setPrt q { p with rt := p.rt.put 0 k e })

/-- LNK_LINKMASK_WRITE (R43): entries that name a cleared link read VALID 0 from now on. -/
def execLnkLinkmaskWrite (q : Nat) (v : W32) (s : State) : Host.Outcome State Fault Refusal :=
  let p := s.prt q
  let mask := BitVec.ofNat 16 v.toNat
  let names (e : W32) : Bool :=
    (bitAt e 9 && !bitAt mask (fld e 3 0)) || (bitAt e 8 && !bitAt mask (fld e 7 4))
  .next (s.setPrt q { p with linkMask := mask, rt := p.rt.foldl (fun (t : Tbl W32) e =>
    t.put 0 e.1 (if names e.2 then e.2 &&& ~~~0x200 else e.2)) [] })

/-- LNK_DOMAIN_WRITE (R46): VALID 1 with DOMAIN 0 is ignored whole. -/
def execLnkDomainWrite (q : Nat) (v : W32) (s : State) : Host.Outcome State Fault Refusal :=
  .next (if bitAt v 31 ∧ fld v 11 0 = 0 then s
    else s.setPrt q { s.prt q with domValid := bitAt v 31, domain := BitVec.ofNat 12 v.toNat })

/-! ## Link state (R36, R39, R44) -/

/-- The island of a link has its clock (R19, R20, R36). -/
def State.linkPower (s : State) (n : Nat) : Bool := s.clockOn (20 * (n / 8) + 17)

/-- A link leaves UP (R58). -/
def State.leftUp (s : State) (n : Nat) : State := if (s.link n).up then s.hifError 2 else s

/-- The live alternate of the entry a flit was queued by (R44). -/
def State.alternate (s : State) (x : Queued) : Option Nat :=
  if bitAt x.entry 8 && (s.link (fld x.entry 7 4)).up then some (fld x.entry 7 4) else none

/-- A moved flit stands behind those queued before it and ahead of every newer one (R44, R45). -/
def insertQueued (x : Queued) : List Queued → List Queued
  | [] => [x]
  | y :: r => if x.ord < y.ord then x :: y :: r else y :: insertQueued x r

/-- The link goes down (R44): flits held for replay and those that wait go to the live alternate of the
entry they were queued by, or are dropped as under R42. -/
def State.dropLink (s : State) (n : Nat) (st : LinkSt) : State :=
  let s := s.leftUp n
  let l := s.link n
  let s := s.setLink n { enable := l.enable, st := st, peer := l.peer, replays := l.replays, drops := l.drops }
  (l.hold ++ l.out).foldl (fun s x =>
    match s.alternate x with
    | some m =>
      let o := s.link m
      (s.setLink m { o with out := insertQueued { x with tries := 0 } o.out }).post (.flitTransmit m)
    | none => s.dropNoroute (some n) x.flit) s

/-- LINK_ENABLE (R46): a write of LNK_LINK_CTL; ENABLE 1 trains the link, ENABLE 0 holds it DOWN. -/
def execLinkEnable (n : Nat) (v : W32) (s : State) : Host.Outcome State Fault Refusal :=
  let s := if bitAt v 1 then nextOr (execLinkClr n s) s else s
  let l := s.link n
  .next (
    if bitAt v 0 then
      if l.enable then s
      else s.setLink n { l with enable := true, st := if s.linkPower n then .training else .down }
    else (s.setLink n { l with enable := false }).dropLink n .down)

/-- LINK_TRAIN_DONE (R36, R46): UP8, UP4, or DUPID for a peer with this package's number. Flits held
for replay are resent first (R39). -/
def execLinkTrainDone (n lanes peer : Nat) (s : State) : Host.Outcome State Fault Refusal :=
  let l := s.link n
  .next (
    if l.st ≠ .training ∨ !s.linkPower n then s
    else if peer = s.pkg then (s.dropLink n .dupid).setLink n { (s.dropLink n .dupid).link n with peer := 0 }
    else
      let s := s.setLink n
        { l with st := if lanes = 8 then .up8 else .up4, peer := peer
                 replays := Nat.min 0xFFFF (l.replays + l.hold.length) }
      (l.hold.foldl (fun s x => s.emitOut (.flit n x.flit)) s).post (.flitTransmit n))

/-- LINK_DOWN (R44, R58): the link leaves UP; an enabled link trains again. -/
def execLinkDown (n : Nat) (s : State) : Host.Outcome State Fault Refusal :=
  .next (s.dropLink n (if (s.link n).enable then .training else .down))

/-- LINK_RETRAIN (R39): the link trains again and keeps the flits it holds, whose replays count anew. -/
def execLinkRetrain (n : Nat) (s : State) : Host.Outcome State Fault Refusal :=
  let l := s.link n
  .next (if l.up then (s.leftUp n).setLink n { l with st := .training, hold := l.hold.map (fun (x : Queued) => { x with tries := 0 }) } else s)

/-! ## Sending (R37, R39, R40) -/

def Link.cr (l : Link) : FClass → Nat
  | .bulk => l.cr0 | .lowLatency => l.cr1 | .control => l.cr2 | .collective => l.cr3

/-- Credits of a class, at most its receive buffer (R40). -/
def Link.setCr (l : Link) (c : FClass) (x : Nat) : Link :=
  match c with
  | .bulk => { l with cr0 := Nat.min 128 x }
  | .lowLatency => { l with cr1 := Nat.min 64 x }
  | .control => { l with cr2 := Nat.min 16 x }
  | .collective => { l with cr3 := Nat.min 128 x }

/-- Two flits with the same SRC, DST, CLASS and DOMAIN, queued by the same entry: no route change lies
between them (R45). -/
def Queued.sameFlow (x y : Queued) : Bool :=
  x.flit.src == y.flit.src && x.flit.dst == y.flit.dst && x.flit.cls == y.flit.cls && x.flit.tag == y.flit.tag &&
    x.entry == y.entry

/-- An older flit of the same flow has not got across another link: this one waits for it, so that order
holds across a failover and back (R45). -/
def State.overtakes (s : State) (n : Nat) (x : Queued) : Bool :=
  s.lnk.links.any (fun e => e.1 != n && (e.2.hold ++ e.2.out).any (fun y => decide (y.ord < x.ord) && x.sameFlow y))

/-- A flit may leave by the link: its class has credits (R40) and it overtakes none. -/
def State.mayLeave (s : State) (n : Nat) (x : Queued) : Bool :=
  decide (0 < (s.link n).cr x.flit.cls) && !s.overtakes n x

/-- The weight of a participant (R38, R40, R82). -/
def State.linkWeight (s : State) (k : Nat) : Nat :=
  if k = 256 then 1
  else
    let w := (s.prt (k % 64)).weight
    match k / 64 with | 0 => fld w 15 8 | 1 => fld w 23 16 | _ => fld w 31 24

/-- The participant served next and its count: the present one while its weight lasts, else the next
in turn; weight 0 only when no other waits (R82). A participant waits with a flit whose class has
credits: a stalled class blocks no other (R40). -/
def State.linkPick (s : State) (n : Nat) : Option (Nat × Nat) :=
  let l := s.link n
  let ready (k : Nat) : Bool := l.out.any (fun x => decide (x.flit.cls ≠ .control) && x.part == k && s.mayLeave n x)
  if ready l.rrClass ∧ 0 < l.rrCount ∧ l.rrCount < s.linkWeight l.rrClass then
    some (l.rrClass, l.rrCount + 1)
  else
    let order := (List.range 257).map (fun i => (l.rrClass + 1 + i) % 257)
    match order.find? (fun k => decide (0 < s.linkWeight k) && ready k) with
    | some k => some (k, 1)
    | none => (order.find? ready).map (fun k => (k, 1))

/-- The flit goes out under the next sequence number and is held until acknowledged. -/
def State.transmit (s : State) (n : Nat) (x : Queued) : State :=
  let l := s.link n
  let f := x.flit
  let g := { f with seq := l.nextSeq, ack := (l.expect + 1023) % 1024, ackv := true, nak := false }
  let l := l.setCr f.cls (l.cr f.cls - 1)
  let s := s.setLink n
    { l with out := l.out.erase x, hold := l.hold ++ [{ x with flit := g, tries := 0 }]
             nextSeq := (l.nextSeq + 1) % 1024 }
  (s.emitOut (.flit n g)).post (.flitTransmit n)

/-- FLIT_TRANSMIT (R40): CONTROL first, then the weighted round robin, each class by its credits; at
most 512 flits are held (R39). -/
def execFlitTransmit (n : Nat) (s : State) : Host.Outcome State Fault Refusal :=
  let l := s.link n
  .next (
    if !l.up ∨ 512 ≤ l.hold.length ∨ !s.linkPower n then s
    else
      match l.out.find? (fun x => decide (x.flit.cls = .control) && s.mayLeave n x) with
      | some x => s.transmit n x
      | none =>
        match s.linkPick n with
        | none => s
        | some (k, c) =>
          match l.out.find? (fun x => decide (x.flit.cls ≠ .control) && x.part == k && s.mayLeave n x) with
          | none => s
          | some x => (s.setLink n { l with rrClass := k, rrCount := c }).transmit n x)

/-! ## Requests of other packages and their replies (R45, R392) -/

/-- The waiting SEND of request `req` ends: delivered, or with a trap of a cause and a name. -/
def State.sendEnds (s : State) (req : Nat) (trap : Option (Nat × W32)) : State :=
  match s.lnk.reqs.find? (fun r => r.id == req && r.cmd.isNone) with
  | some r =>
    let s := { s with lnk := { s.lnk with reqs := s.lnk.reqs.filter (fun x => x.id != req) } }
    if (s.thread r.tid).st ≠ .memory then s
    else match trap with
      | some (cause, name) => s.sendFails r.tid cause name
      | none => s.replyGo r.tid
  | none => s

/-- The part of an engine command that waits for request `req` is done (R392): the data of a remote
source are written, or the fault of the other package ends the command. -/
def State.remoteDone (s : State) (req : Nat) (data : List Byte) (cause : Nat) : State :=
  match s.lnk.reqs.find? (fun r => r.id == req) with
  | none => s
  | some r =>
    let s := { s with lnk := { s.lnk with reqs := s.lnk.reqs.filter (fun x => x.id != req) } }
    match r.cmd.bind s.acmd with
    | none => s
    | some c =>
      let n := c.partLen
      if cause ≠ 0 then
        let a := if bitAt c.aux1 24 then c.src else c.dst
        s.faultCmd c (cause, a + BitVec.ofNat 64 c.done)
      else if bitAt c.aux1 24 then
        match s.engineWrite c.agent ((c.dst.toNat + c.done) % 2 ^ 64) (data.take n) with
        | .error e => s.faultCmd { c with wait := false } e
        | .ok s => s.partDone c (c.done + n) c.len.toNat
      else s.partDone c (c.done + n) c.len.toNat

/-- ROUTE_NOTICE (R42, R382): the request completes with NOROUTE, or its SEND traps STALE. -/
def execRouteNotice (req : Nat) (s : State) : Host.Outcome State Fault Refusal :=
  .next (
    match s.lnk.reqs.find? (fun r => r.id == req) with
    | none => s
    | some r =>
      match r.cmd with
      | some id =>
        let s := { s with lnk := { s.lnk with reqs := s.lnk.reqs.filter (fun x => x.id != req) } }
        (match s.acmd id with | some c => s.endCmd c 4 0 0 | none => s)
      | none =>
        let th := s.thread r.tid
        s.sendEnds req (some (cSTALE,
          match decode th.word with | .ok (.send a _ _) => (th.readG a).setWidth 32 | _ => 0)))

/-- Answers a request of package `src` in a domain. -/
def State.answer (s : State) (src domain req : Nat) (data : List Byte) (cause : Nat) : State :=
  let cls : FClass := if data.isEmpty then .lowLatency else .bulk
  s.sendFlit none (mkFlit s.pkg src domain cls (.reply req data cause))

/-- REMOTE_MEMORY_REQUEST (R45, R392): a request is performed in the same ASID of its domain's local
partition, at user privilege, and answered, once the clocks it needs run (R20); a reply completes the request
it answers. -/
def execRemoteMemoryRequest (src domain : Nat) (p : Payload) (s : State) :
    Host.Outcome State Fault Refusal :=
  let agent (asid : W16) : Option Agent :=
    (s.domainPrt domain).bind (fun q => (s.rootOf q asid).map (fun root => ⟨q, root, true, none⟩))
  .next (
    match p with
    | .write asid va data req =>
      match agent asid with
      | none => s.answer src domain req [] cPAGE
      | some a =>
        match s.engineWrite a va data with
        | .error e => if e.1 = cWAIT then s.post (.remoteMemoryRequest src domain p) else s.answer src domain req [] e.1
        | .ok s => s.answer src domain req [] 0
    | .read asid va len req =>
      match agent asid with
      | none => s.answer src domain req [] cPAGE
      | some a =>
        match s.agentRead a va len with
        | .error e => if e.1 = cWAIT then s.post (.remoteMemoryRequest src domain p) else s.answer src domain req [] e.1
        | .ok l => s.answer src domain req l 0
    | .reply req data cause => s.remoteDone req data cause
    | _ => s)

/-! ## Delivery at the destination (R28, R38, R42) -/

/-- A message of another package (R136, R382): one with an invalid SITE word is dropped and counted. -/
def State.receiveMsg (s : State) (n q : Nat) (f : Flit) (name core : W32) (w0 w1 : W64) (sender : W32)
    (req hops : Nat) : State :=
  match s.coreOf q core with
  | some c =>
    s.sendMsg { id := 0, prt := q, name := name, w0 := w0, w1 := w1, core := c, hops := hops
                sender := none, site := sender, asid := 0, root := 0, remote := some (f.src, req), ret := 0 }
  | none =>
    if siteName (s.relocate q core) = .nothing then s.dropNoroute (some n) f
    else s.sendFrom q f.src .lowLatency (.returned name req false)

/-- What a DATA flit does at its destination; a domain without a local partition drops it. -/
def State.deliverFlit (s : State) (n : Nat) (f : Flit) : State :=
  let d := fld f.tag 11 0
  match f.payload with
  | .clapper => nextOr (execRemoteClapperTrigger s) s
  | .tocsin r => nextOr (execRemoteTocsin r s) s
  | .notice (some req) => nextOr (execRouteNotice req s) s
  | .notice none => s
  | p =>
    match s.domainPrt d with
    | none => if d = 0 then s else s.dropNoroute (some n) f
    | some q =>
      match p with
      | .message name core w0 w1 sender req hops => s.receiveMsg n q f name core w0 w1 sender req hops
      | .returned name req full =>
        s.sendEnds req (some (if full then cQOVF else cSTALE, name))
      | .delivered req => s.sendEnds req none
      | .gangAck tag m => nextOr (execGangAckReceive q tag m s) s
      | .gangCancel tag => nextOr (execGangCancelReceive q tag s) s
      | .coll gtag nn len op fmt red rank total data sender dst _ =>
        s.collFlit q gtag nn len op fmt red rank total data sender dst
      | .collAbort gtag rank sender dst sent => s.collAbort q gtag rank sender dst sent
      | p => nextOr (execRemoteMemoryRequest f.src d p s) s

/-! ## The wire form (R37) -/

/-- The header of a flit. -/
def flitHeader (f : Flit) : W64 :=
  let ty := match f.type with | .idle => 0 | .data => 1 | .credit => 2 | .retrain => 3 | .reserved c => c % 16
  let bit (b : Bool) (i : Nat) : Nat := if b then 2 ^ i else 0
  BitVec.ofNat 64 (f.seq % 1024 * 2 ^ 54 + f.ack % 1024 * 2 ^ 44 + bit f.ackv 43 + bit f.nak 42 +
    classNo f.cls * 2 ^ 40 + f.dst % 256 * 2 ^ 32 + f.src % 256 * 2 ^ 24 + ty * 2 ^ 20 + f.hops % 16 * 2 ^ 16 +
    f.credits % 256 * 2 ^ 8 + classNo f.crClass * 2 ^ 6 + f.len % 64)

/-- One bit of the CRC-32 of IEEE 802.3, least significant bit first. -/
def crcBit (c : W32) : W32 := if c.getLsbD 0 then (c >>> 1) ^^^ 0xEDB88320 else c >>> 1

/-- CRC-32 of IEEE 802.3 over a list of bytes: all ones first, complemented at the end. -/
def crc32 (l : List Byte) : W32 :=
  ~~~(l.foldl (fun (c : W32) b =>
    (List.range 8).foldl (fun (c : W32) _ => crcBit c) (c ^^^ b.setWidth 32)) 0xFFFFFFFF)

/-- The 256 bytes of a flit: header, tag, payload, CRC, parity. -/
def flitBytes (f : Flit) : List Byte :=
  let l := leBytes 8 (flitHeader f).toNat ++ leBytes 4 f.tag.toNat ++ (List.range 228).map (Config.payloadByte f.payload)
  let l := l ++ leBytes 4 (crc32 l).toNat
  l ++ (Config.rsParity l ++ List.replicate 12 0).take 12

/-! ## Receiving (R39) -/

/-- A flit without data: an acknowledgement, a NAK or returned credits. -/
def State.emitCtl (s : State) (n : Nat) (nak : Bool) (credits : Nat) (c : FClass) : State :=
  let l := s.link n
  s.emitOut (.flit n { seq := l.nextSeq, ack := (l.expect + 1023) % 1024, ackv := true, nak := nak
                       cls := c, dst := l.peer, src := s.pkg, type := if credits = 0 then .idle else .credit
                       hops := 15, credits := credits, crClass := c, len := 0, tag := 0, payload := .empty })

/-- Flits up to the acknowledged one are released. -/
def Link.acked (l : Link) (ack : Nat) : Link :=
  if l.hold.any (fun x => x.flit.seq == ack) then
    { l with hold := (l.hold.dropWhile (fun x => x.flit.seq != ack)).drop 1 }
  else l

/-- An acknowledgement: the flits it releases, and those of other links that waited for them (R45). -/
def State.ackLink (s : State) (n ack : Nat) : State :=
  let s := s.setLink n ((s.link n).acked ack)
  s.lnk.links.foldl (fun s e => if e.1 ≠ n ∧ !e.2.out.isEmpty then s.post (.flitTransmit e.1) else s) s

/-- A NAK: what is held is sent again in its order; a flit replayed for the eighth time retrains the link. -/
def State.replay (s : State) (n : Nat) : State :=
  let l := s.link n
  if l.hold.isEmpty then s
  else
    let l := { l with hold := l.hold.map (fun (x : Queued) => { x with tries := x.tries + 1 })
                      replays := Nat.min 0xFFFF (l.replays + l.hold.length) }
    let s := l.hold.foldl (fun s x => s.emitOut (.flit n x.flit)) (s.setLink n l)
    if l.hold.any (fun x => decide (8 ≤ x.tries)) then nextOr (execLinkRetrain n s) s else s

/-- The form of a flit is right (R39). -/
def flitFormed (f : Flit) : Bool :=
  (match f.type with | .reserved _ => false | _ => true) && decide (f.len ≤ 57) &&
    decide (fld f.tag 31 12 = 0)

/-- FLIT_RECEIVE (R39, R42): a flit that fails a check, its sequence number among them, is lost and
answered NAK; acknowledgements and credits are taken; a DATA flit is delivered here or goes on with
one hop fewer. Only DATA flits take a sequence number; another flit carries the next one (log 25). A
flit whose hops are spent is dropped as one without a route (R42, R382). The credit of a flit goes back as
soon as it is received, before it is delivered or goes on (log 48). -/
def execFlitReceive (n : Nat) (f : Flit) (crcOk : Bool) (s : State) :
    Host.Outcome State Fault Refusal :=
  let l := s.link n
  .next (
    if !l.up ∨ !s.linkPower n then s
    else if !crcOk ∨ !flitFormed f ∨ f.seq ≠ l.expect then s.emitCtl n true 0 .control
    else
      let s := if f.ackv then s.ackLink n f.ack else s
      let l := s.link n
      let l := if 0 < f.credits then l.setCr f.crClass (l.cr f.crClass + f.credits) else l
      let s := (s.setLink n l).post (.flitTransmit n)
      let s := if f.nak then s.replay n else s
      match f.type with
      | .retrain => nextOr (execLinkRetrain n s) s
      | .data =>
        let l := s.link n
        if !l.up then s
        else
          let s := s.setLink n { l with expect := (l.expect + 1) % 1024 }
          let s := s.emitCtl n false 1 f.cls
          if f.dst = s.pkg then s.deliverFlit n f
          else if f.hops ≤ 1 then s.dropNoroute (some n) f
          else s.sendFlit (some n) { f with hops := f.hops - 1 }
      | _ => s)

end Sys2Proof.Machine
end

