-- ==== Sys2Proof/Machine/Host.lean ====
section
/-!
DEFINITION. The host's side: virtual functions and doorbells (03 R50 to R56), function-level resets
(R59), errors (R58), CXL (R60, R61), BAR2 (R49; 08 R216, R220), firmware and attestation (R62 to R66).
-/

namespace Sys2Proof.Machine

open Sys2Proof

def State.vf (s : State) (v : Nat) : Vf := s.hif.vfs.look {} v
def State.setVf (s : State) (v : Nat) (x : Vf) : State :=
  { s with hif := { s.hif with vfs := s.hif.vfs.put {} v x } }

/-! ## Power of storage and ports (R19, R20) -/

/-- Host port A or B runs: it lies in island 16 of its die (R19). Register accesses do not need it, since
PF0 must be able to bring the island back (log 56). -/
def State.hostPort (s : State) (port : Nat) : Bool := s.clockOn (20 * port + 16)

/-! ## Virtual functions (R50 to R55) -/

def Vf.base (v : Vf) : Nat := fld v.jqbase 51 12 * 4096
def Vf.size (v : Vf) : Nat := fld v.jqsize 16 0

/-- R53: sizes a ring may have. -/
def ringSizes : List Nat := [16, 32, 64, 128, 256, 512, 1024, 2048, 4096, 8192, 16384, 32768, 65536]

/-- R51, R53: the function may be bound to the partition with its present ring. -/
def State.bindOk (s : State) (q : Nat) (v : Vf) : Bool :=
  (s.prt q).exist && ringSizes.contains v.size && s.inPrtMem q v.base 1

/-- VF_BIND_WRITE (R50, R51, R53): ignored whole when it changes PORT or PRTID of a binding in force,
or sets ENABLE for a partition or a ring that may not be bound. -/
def execVfBindWrite (n : Nat) (w : W32) (s : State) : Host.Outcome State Fault Refusal :=
  let v := s.vf n
  let (en, port, q) := (bitAt w 31, bitAt w 8, fld w 5 0)
  .next (
    if (v.enable ∧ (port ≠ v.port ∨ q ≠ v.prt)) ∨ (en ∧ !s.bindOk q v) then s
    else
      let s := s.setVf n { v with enable := en, port := port, prt := q }
      if en ∧ v.head ≠ v.tail then s.post (.jobRecordTake n) else s)

/-- DOORBELL (R50, R54, R55): on the port a binding does not select, nothing; through an unbound
function, which is live on both ports since no binding selects one (DESIGN CHOICE, log 58), or with TAIL at
or beyond the size, refused and counted; else TAIL is replaced. -/
def execDoorbell (n port : Nat) (w : W32) (s : State) : Host.Outcome State Fault Refusal :=
  let v := s.vf n
  .next (
    if (v.enable ∧ b2n v.port ≠ port) ∨ !s.hostPort port then s
    else if !v.enable ∨ v.size ≤ fld w 15 0 then s.setVf n { v with baddb := Nat.min 255 (v.baddb + 1) }
    else (s.setVf n { v with tail := fld w 15 0 }).post (.jobRecordTake n))

/-! ## Function-level resets (R59) -/

/-- Cancels every unresolved job of a partition that satisfies `f`. -/
def State.resetJobs (s : State) (q : Nat) (f : JobRun → Bool) : State :=
  (s.prt q).cnt.jobs.foldl (fun s e =>
    if e.2.running && f ((s.prt q).jobRun.look {} e.1) then s.cancelLevel q 4 e.1 .cancelled rFLR else s) s

/-- VF_FLR (R59). -/
def execVfFlr (n : Nat) (s : State) : Host.Outcome State Fault Refusal :=
  let s := s.prts.foldl (fun s e => s.resetJobs e.1 (fun r => r.vf == n)) s
  .next (s.setVf n { s.vf n with head := 0, tail := 0, baddb := 0, badrec := 0 })

/-- Every task queue and pending buffer is empty; a queued escape's ticket is freed (R59, log 32). -/
def State.dropQueues (s : State) : State :=
  let pks := s.cores.flatMap (fun (e : Nat × Core) => e.2.queue) ++
    s.prts.flatMap (fun (e : Nat × Prt) => e.2.pending)
  let s := { s with
    cores := s.cores.map (fun (e : Nat × Core) => (e.1, { e.2 with queue := [] }))
    prts := s.prts.map (fun (e : Nat × Prt) => (e.1, { e.2 with pending := [] })) }
  pks.foldl (fun s pk =>
    let s := match pk.held with | some h => s.freeTicket h | none => s
    s.unitEnd pk.prt pk.lslot .cancelled rFLR) s

/-- Clears the bindings that satisfy `f`. -/
def State.clearBinds (s : State) (f : Vf → Bool) : State :=
  { s with hif := { s.hif with vfs := s.hif.vfs.foldl (fun (t : Tbl Vf) e =>
      t.put {} e.1 (if f e.2 then { e.2 with enable := false, port := false, prt := 0 } else e.2)) [] } }

/-- PF0_FLR (R59): every job is cancelled, every binding cleared, the scheduler's queues reset. -/
def execPf0Flr (s : State) : Host.Outcome State Fault Refusal :=
  let s := s.prts.foldl (fun s e => s.resetJobs e.1 (fun _ => true)) s
  .next (s.dropQueues.clearBinds (fun _ => true))

/-- PF1_FLR (R59). -/
def execPf1Flr (s : State) : Host.Outcome State Fault Refusal := .next (s.clearBinds (fun v => v.port))

/-! ## Errors (R58) -/

def MemKind.bit : MemKind → Nat | .hbm => 5 | .ddr => 4 | .sram => 3

/-- MEMORY_UNCORRECTABLE_ERROR (R58): the bit, the first address since the three bits were clear, and
an error that readers of the location meet (R254). -/
def execMemoryUncorrectableError (k : MemKind) (a : Nat) (s : State) : Host.Outcome State Fault Refusal :=
  let s := if fld s.hif.errStat 5 3 = 0 then { s with hif := { s.hif with errAddr := a % 2 ^ 52 } } else s
  let s := s.hifError (MemKind.bit k)
  .next (if s.poison.contains a then s else { s with poison := s.poison ++ [a] })

/-- CXLERR (R58). -/
def execCxlerr (s : State) : Host.Outcome State Fault Refusal := .next (s.hifError 1)

/-- FWFAIL (R58): the running firmware stops. -/
def execFwfail (s : State) : Host.Outcome State Fault Refusal :=
  .next ({ s with hif := { s.hif with fwRuns := false } }.hifError 0)

/-! ## CXL (R60, R61) -/

/-- The global memory windows (R216), as far as memory is fitted (R11). -/
def isGlobal (a : Nat) : Bool := isHbm a || isDdr a

/-- R60: the line lies in the host-visible range of HIF_HDM, whose limit is the first byte outside it
(log 57). -/
def State.inHdm (s : State) (a : Nat) : Bool :=
  isGlobal a && decide (fld s.hif.hdmBase 51 30 * 2 ^ 30 ≤ a) && decide (a < fld s.hif.hdmLimit 51 30 * 2 ^ 30)

/-- No device cache holds the line under a page that is not host-coherent: the host's access invalidates what
caches hold of it. -/
def State.coherentLine (s : State) (a : Nat) : Bool :=
  !s.l2.any (fun y => y.blk == a / 512 && !y.hc) && !s.copies.any (fun c => c.addr / 64 == a / 64 && !c.hc)

/-- A word as the host reads it without the device caches (R60). -/
def State.hostWord (s : State) (w : Nat) : W64 :=
  match s.copyAt hostLevel w with
  | some c => c.val
  | none => BitVec.ofNat 64 (s.readHome w 8)

/-- Back-invalidation of a 64-byte line (R60): no device cache keeps a word of it, and the home keeps its
grain unit no longer EXCLUSIVE; the host may hold the line from now on. -/
def State.backInvalidate (s : State) (a : Nat) : State :=
  let gone : BitVec 16 := BitVec.ofNat 16 (3 * 2 ^ (a % 512 / 32))
  { s with
    copies := s.copies.filter (fun c => !(c.addr / 64 == a / 64))
    l2 := s.l2.map (fun y =>
      if y.blk = a / 512 then
        { y with valid := y.valid &&& ~~~gone, excl := y.excl &&& ~~~unitSectors y.grain y.hc a }
      else y) }

/-- The host may hold the line from now on, until a device write takes it back (R60, R225). -/
def State.hostHolds (s : State) (a : Nat) : State :=
  if s.hif.lines.contains (a / 64) then s
  else { s with hif := { s.hif with lines := s.hif.lines ++ [a / 64] } }

/-- A home that holds the word's sector goes on serving what it holds when memory is written beneath it. -/
def State.keepBeneath (s : State) (w : Nat) : State :=
  [0, 1].foldl (fun s d =>
    if (s.copyAt (dieLevel d) w).isSome then s
    else match s.l2.find? (fun y => y.die == d && y.blk == w / 512 && y.valid.getLsbD (w % 512 / 32)) with
      | some y => { s with copies := s.copies ++ [
          { level := dieLevel d, addr := w, val := s.dieWord d w, reg := false, dirty := false, set := 0
            prt := y.prt, grain := y.grain, hc := y.hc }] }
      | none => s) s

/-- A host write without the device caches (R60): a word that a cache holds newer is replaced in memory
alone. -/
def State.hostPut (s : State) (w : Nat) (l : List Byte) : State :=
  match s.copyAt hostLevel w with
  | some c =>
    let old := leBytes 8 c.val.toNat
    let v : W64 := BitVec.ofNat 64 (leNat (l ++ old.drop l.length))
    { s with copies := s.copies.map (fun (x : Copy) => if x = c then { x with val := v } else x) }
  | none => (s.keepBeneath w).writeBytes w l

/-- HOST_CXL_MEM_REQUEST (R60, R61, R239): the host's access to a 64-byte line, performed before any device
access that waits: on memory alone, which may be older than a device write, where a cache holds the line
under a page that is not host-coherent; else coherent with the device caches. A migrating page's line is at
its present home (R252). Storage without its clock takes no write (log 56). -/
def execHostCxlMemRequest (write : Bool) (addr : Nat) (data : List Byte) (s : State) :
    Host.Outcome State Fault Refusal :=
  let line := addr / 64 * 64
  let a := s.redirectHome line
  let ws := (List.range 8).map (fun i => a + 8 * i)
  .next (
    if !s.inHdm line ∨ !s.hostPort 0 then s
    else if !write then
      (s.hostHolds a).emitOut (.hostRead line (
        if s.coherentLine a then Memory.readList s.mem a 64
        else ws.flatMap (fun w => leBytes 8 (s.hostWord w).toNat)))
    else if !s.homeClock a then s
    else
      let s := if s.coherentLine a then (s.backInvalidate a).writeBytes a (data.take 64)
        else ws.foldl (fun s w => s.hostPut w ((data.drop (w - a)).take 8)) s
      (s.hostHolds a).serveRange a 64)

/-- HOST_SNOOP (R61): a device copy of a line of host memory is given up at once. -/
def execHostSnoop (addr : Nat) (s : State) : Host.Outcome State Fault Refusal :=
  let a := hostWin + addr % 2 ^ 51 / 64 * 64
  .next (if !s.hostPort 0 then s
    else (s.flushRange a (a + 64)).emitOut (.snoopReply a (Memory.readList s.mem a 64)))

/-! ## BAR2 (R49, R216, R220) -/

/-- What a byte of an aperture shows. -/
inductive Bar2 where
  | mem (a : Nat)
  /-- A register byte of a thread slot's carve-out: thread key and place (R195). -/
  | reg (key o : Nat)
  /-- Readable, without a stated layout: L2, shadow storage, a task queue that holds packets (log 13). -/
  | free (a : Nat)
  | none
  deriving DecidableEq, Repr

/-- The last column of R216, for partition `q` of the aperture. -/
def State.bar2At (s : State) (q a : Nat) : Bar2 :=
  if a < prtDdrEnd then
    if (s.prt q).exist ∧ s.inPrtMem q a 1 then
      match s.memHome q a with
      | some h => .mem h
      | none => .none
    else .none
  else if isGlobal a then .mem (s.redirectHome a)
  else if isPool a then
    let c := (a - poolWin) / 0x40000
    let off := (a - poolWin) % 0x40000
    if 0x3C000 ≤ off ∧ !(s.core c).queue.isEmpty then .free a
    else if 0x3C000 ≤ off then .mem a
    else
      match s.carveAt c off with
      | some (x, i, o) => .reg (s.slotKey c x i) o
      | none => .mem a
  else if isTile a then .mem a
  else if l2Win ≤ a ∧ a < l2Win + 0x20000000 then
    -- A slice that has held nothing since its island had no power reads zero (R23, R80).
    if s.l2used.contains ((a - l2Win) / 0x200000) then .free a else .none
  else if shadowWin ≤ a ∧ a < shadowWin + 0x3000000 then .free a
  else .none

/-- A byte that the host reads. The storage of an island that is OFF lost its contents and shows zero, that of
one in RETAIN shows what it keeps (DESIGN CHOICE, log 56: R20 does not say what such a read returns). -/
def State.bar2Byte (s : State) (q a : Nat) : Byte :=
  match s.bar2At q a with
  | .mem h => s.byteAt h
  | .reg k o => (s.thread k).carveByte o
  | .free h => Config.freeByte h
  | .none => 0

/-- A write of a byte; storage without its clock takes none (R20, log 56). -/
def State.bar2Put (s : State) (q a : Nat) (b : Byte) : State :=
  match s.bar2At q a with
  | .mem h => if s.homeClock h then s.deviceWrite h [b] else s
  | .reg k o => if !s.homeClock a then s else s.setThread k ((s.thread k).setCarveByte o b)
  | _ => s

/-- HOST_BAR2_ACCESS (R49, R216, R220): an uncached access at the home of each byte; elsewhere it reads
zero and ignores writes. -/
def execHostBar2Access (pf : Nat) (write : Bool) (off n : Nat) (data : List Byte) (s : State) :
    Host.Outcome State Fault Refusal :=
  let r := if pf = 0 then s.hif.aper0 else s.hif.aper1
  let q := fld r 5 0
  let a := fld r 51 32 * 2 ^ 32 + off
  .next (
    if !s.hostPort pf then s
    else if write then
      let s := (data.foldl (fun (e : State × Nat) b => (e.1.bar2Put q e.2 b, e.2 + 1)) (s, a)).1
      (List.range ((a % 8 + data.length + 7) / 8)).foldl (fun s i =>
        match s.bar2At q (a / 8 * 8 + 8 * i) with
        | .mem h => s.serveRange (h / 8 * 8) 8
        | _ => s) s
    else s.emitOut (.bar2Read pf ((List.range n).map (fun i => s.bar2Byte q (a + i)))))

/-! ## Firmware (R62 to R64) -/

/-- STATUS of HIF_FW changes; the FW vector is raised when it leaves LOADING (R57). -/
def State.setFw (s : State) (st : Nat) : State :=
  let s' := { s with hif := { s.hif with fwStatus := st } }
  if s.hif.fwStatus = 1 ∧ st ≠ 1 then s'.irq pf0 3 else s'

/-- FW_START (R63): ignored while LOADING; else any staged image goes and a fetch begins. -/
def execFwStart (s : State) : Host.Outcome State Fault Refusal :=
  .next (
    if s.hif.fwStatus = 1 then s
    else { s with hif := { s.hif with staged := none, fetching := true } }.setFw 1)

/-- The fused minimum SVN. -/
def Hif.min (h : Hif) : Byte := h.minSvn.getD Config.minSvn

/-- FW_VERIFY_DONE (R63): the outcome of fetch and verification; an SVN below the minimum gives
ROLLBACK. -/
def execFwVerifyDone (r : FwResult) (hash : BitVec 512) (svn : Byte) (raises : Bool) (s : State) :
    Host.Outcome State Fault Refusal :=
  let s' := { s with hif := { s.hif with fetching := false } }
  .next (
    if !s.hif.fetching then s
    else
      match r with
      | .dmaErr => s'.setFw 5
      | .badSig => s'.setFw 3
      | .rollback => s'.setFw 4
      | .verified =>
        if svn.toNat < s.hif.min.toNat then s'.setFw 4
        else { s' with hif := { s'.hif with staged := some (hash, svn, raises) } }.setFw 2)

/-- Some partition holds an unresolved job. -/
def State.jobsOpen (s : State) : Bool := s.prts.any (fun e => e.2.cnt.jobs.any (fun c => c.2.running))

/-- FW_ACTIVATE (R63): refused unless an image is staged and no job is unresolved. -/
def execFwActivate (s : State) : Host.Outcome State Fault Refusal :=
  .next (
    if s.hif.staged.isNone ∨ s.jobsOpen then s.setFw 7
    else { s with hif := { s.hif with activating := s.hif.staged } }.post .fwActivateDone)

/-- Every island but the always-on islands restarts (R63): threads, regions, commands and caches are
gone, Peal links train again; partitions, registers and the contents of memory stay (log 10). -/
def State.restart (s : State) : State :=
  let s := s.lnk.links.foldl (fun s e => if e.2.up then nextOr (execLinkDown e.1 s) s else s) s
  { s with
    threads := s.threads.map (fun (e : Nat × Thread) =>
      (e.1, { g := e.2.g, v := e.2.v, prt := e.2.prt, ctx := e.2.ctx, life := e.2.life }))
    cores := s.cores.map (fun (e : Nat × Core) =>
      (e.1, { e.2 with queue := [], tlb := [], tlbOut := [], recvWait := [] }))
    clusters := s.clusters.map (fun (e : Nat × Cluster) =>
      (e.1, { e.2 with queues := [], icache := [], icSaved := [], walks := [], epCache := [], ftlb := [], pins := [] }))
    acmds := [], copies := [], l2 := [], l2used := [], waiters := [], trans := [], loads := [], msgs := []
    regions := s.regions.map (fun (e : Nat × Region) =>
      (e.1, { wins := e.2.wins, ended := true, everArmed := e.2.everArmed, ctx := e.2.ctx }))
    circFree := 1024
    cfg := { s.cfg with ports := [] }
    prts := s.prts.map (fun (e : Nat × Prt) => (e.1, { e.2 with pending := [], saved := [] })) }

/-- FW_ACTIVATE_DONE (R63, R64, R65): the staged image runs, the minimum SVN rises if the image so
marks itself, and STATUS is ACTIVE. -/
def execFwActivateDone (s : State) : Host.Outcome State Fault Refusal :=
  .next (
    match s.hif.activating with
    | none => s
    | some (hash, svn, raises) =>
      let s := s.restart
      { s with hif := { s.hif with
          activating := none, staged := none, svn := some svn
          minSvn := if raises ∧ s.hif.min.toNat < svn.toNat then some svn else s.hif.minSvn
          fwRuns := true, runHash := some hash, rewHash := Config.tableHash hash } }.setFw 6)

/-! ## Attestation (R66) -/

/-- The value of a measurement; none for an index that is not reported. R66 does not list 0, 254 and 255: they
are not reported either (DESIGN CHOICE, log 64). -/
def Hif.measure (h : Hif) (i : Nat) : Option (BitVec 512) :=
  match i with
  | 1 => some (Config.measurement 1 0)
  | 2 => some (Config.measurement 2 (h.runHash.getD 0))
  | 3 => some (Config.measurement 3 (h.min.setWidth 512))
  | 4 => some h.rewHash
  | 5 => some (Config.measurement 5 0)
  | _ => none

/-- The answer to a request: ML-DSA-87 and SHA3-512 alone, the chain of slot 0, a measurement; an SPDM
error for an index that is not reported, or a slot that holds nothing. -/
def Hif.spdm (h : Hif) : SpdmReq → SpdmAns
  | .algorithms => .algorithms ["ML-DSA-87"] ["SHA3-512"]
  | .certificate i => if i = 0 then .certificate (Config.certChain (h.runHash.getD 0)) else .error
  | .measurement i => match h.measure i with | some v => .measurement v | none => .error

/-- SPDM_REQUEST (R66), over the mailbox of PF0 or PF1. -/
def execSpdmRequest (pf : Nat) (r : SpdmReq) (s : State) : Host.Outcome State Fault Refusal :=
  .next (s.emitOut (.spdm pf (s.hif.spdm r)))

/-- IDE_KM (R47, R66): within a secure session, the key of a port's stream is replaced. -/
def execIdeKm (port stream : Nat) (key : BitVec 256) (s : State) : Host.Outcome State Fault Refusal :=
  .next { s with hif := { s.hif with
    ide := s.hif.ide.filter (fun e => !(e.1 == port && e.2.1 == stream)) ++ [(port, stream, key)] } }

end Sys2Proof.Machine
end

