-- ==== Sys2Proof/Machine/Integer.lean ====
section
/-!
DEFINITION. Integer, immediate, bit-field, address and predicate instructions (12 R315 to R325).
-/

namespace Sys2Proof.Machine

open Sys2Proof

/-! ## Shared computations -/

/-- g[d] := f(g[a], g[b]), then the next instruction. -/
def State.int2 (s : State) (d a b : GReg) (f : W64 → W64 → W64) : State :=
  s.fin d (f (s.g a) (s.g b))

def State.int1 (s : State) (d a : GReg) (f : W64 → W64) : State := s.fin d (f (s.g a))

/-- Bits [127:64] of a signed product. -/
def mulHigh (a b : W64) : W64 := BitVec.ofInt 64 (a.toInt * b.toInt / 2 ^ 64)

/-- R316: a zero divisor gives all ones; −2^63 over −1 gives −2^63. -/
def divSigned (a b : W64) : W64 :=
  if b = 0 then BitVec.allOnes 64 else BitVec.ofInt 64 (a.toInt.tdiv b.toInt)
def divUnsigned (a b : W64) : W64 := if b = 0 then BitVec.allOnes 64 else a / b
/-- R316: a zero divisor gives the dividend; the remainder takes the dividend's sign. -/
def remSigned (a b : W64) : W64 := if b = 0 then a else BitVec.ofInt 64 (a.toInt.tmod b.toInt)
def remUnsigned (a b : W64) : W64 := if b = 0 then a else a % b

/-- Shifts use only bits [5:0] of the count (R315). -/
def shAmt (b : W64) : Nat := b.toNat % 64

/-- Trailing zero bits of the low bits, counted over `n` positions. -/
def ctzN (x : Nat) : Nat → Nat
  | 0 => 0
  | n + 1 => if x % 2 = 1 then 0 else 1 + ctzN (x / 2) n
def popN (x : Nat) : Nat → Nat
  | 0 => 0
  | n + 1 => x % 2 + popN (x / 2) n
/-- Bit i of the result is bit n − 1 − i of x. -/
def revN (x : Nat) : Nat → Nat
  | 0 => 0
  | n + 1 => x % 2 * 2 ^ n + revN (x / 2) n
def clz64 (x : W64) : Nat := if x = 0 then 64 else 63 - Nat.log2 x.toNat

def simm (i : BitVec 14) : W64 := sext64 14 i.toNat
def zimm (i : BitVec 14) : W64 := i.setWidth 64

/-- R321: bits [pos+width−1 : pos] of x. -/
def extField (x : W64) (width pos : Nat) : W64 := BitVec.ofNat 64 (x.toNat / 2 ^ pos % 2 ^ width)
/-- R321: x with bits [pos+width−1 : pos] taken from y's low bits. -/
def insField (x y : W64) (width pos : Nat) : W64 :=
  let m := (2 ^ width - 1) * 2 ^ pos
  (x &&& ~~~(BitVec.ofNat 64 m)) ||| BitVec.ofNat 64 (y.toNat % 2 ^ width * 2 ^ pos)

/-! ## Register operations (R315, R316, R317) -/

/-- ADD (R315): wrapping sum. -/
def execAdd (d a b : GReg) (s : State) : Host.Outcome State Fault Refusal :=
  .next (s.int2 d a b (fun a b => a + b))

/-- SUB (R315): wrapping difference. -/
def execSub (d a b : GReg) (s : State) : Host.Outcome State Fault Refusal :=
  .next (s.int2 d a b (fun a b => a - b))

/-- ADDS (R315): signed saturating sum. -/
def execAdds (d a b : GReg) (s : State) : Host.Outcome State Fault Refusal :=
  .next (s.int2 d a b (fun a b => BitVec.ofInt 64 (satS (a.toInt + b.toInt) 64)))

/-- SUBS (R315): signed saturating difference. -/
def execSubs (d a b : GReg) (s : State) : Host.Outcome State Fault Refusal :=
  .next (s.int2 d a b (fun a b => BitVec.ofInt 64 (satS (a.toInt - b.toInt) 64)))

/-- MUL (R315): low half of the product. -/
def execMul (d a b : GReg) (s : State) : Host.Outcome State Fault Refusal :=
  .next (s.int2 d a b (fun a b => a * b))

/-- MULH (R315): high half of the signed product. -/
def execMulh (d a b : GReg) (s : State) : Host.Outcome State Fault Refusal :=
  .next (s.int2 d a b (fun a b => mulHigh a b))

/-- MULHN (R315): high half of the unsigned product. -/
def execMulhn (d a b : GReg) (s : State) : Host.Outcome State Fault Refusal :=
  .next (s.int2 d a b (fun a b => BitVec.ofNat 64 (a.toNat * b.toNat / 2 ^ 64)))

/-- DIV (R316): signed quotient. -/
def execDiv (d a b : GReg) (s : State) : Host.Outcome State Fault Refusal :=
  .next (s.int2 d a b (fun a b => divSigned a b))

/-- DIVN (R316): unsigned quotient. -/
def execDivn (d a b : GReg) (s : State) : Host.Outcome State Fault Refusal :=
  .next (s.int2 d a b (fun a b => divUnsigned a b))

/-- REM (R316): signed remainder. -/
def execRem (d a b : GReg) (s : State) : Host.Outcome State Fault Refusal :=
  .next (s.int2 d a b (fun a b => remSigned a b))

/-- REMN (R316): unsigned remainder. -/
def execRemn (d a b : GReg) (s : State) : Host.Outcome State Fault Refusal :=
  .next (s.int2 d a b (fun a b => remUnsigned a b))

/-- AND (R315): bitwise AND. -/
def execAnd (d a b : GReg) (s : State) : Host.Outcome State Fault Refusal :=
  .next (s.int2 d a b (fun a b => a &&& b))

/-- OR (R315): bitwise OR. -/
def execOr (d a b : GReg) (s : State) : Host.Outcome State Fault Refusal :=
  .next (s.int2 d a b (fun a b => a ||| b))

/-- XOR (R315): bitwise exclusive OR. -/
def execXor (d a b : GReg) (s : State) : Host.Outcome State Fault Refusal :=
  .next (s.int2 d a b (fun a b => a ^^^ b))

/-- SHL (R315): left shift. -/
def execShl (d a b : GReg) (s : State) : Host.Outcome State Fault Refusal :=
  .next (s.int2 d a b (fun a b => a <<< shAmt b))

/-- SHR (R315): right shift, zero fill. -/
def execShr (d a b : GReg) (s : State) : Host.Outcome State Fault Refusal :=
  .next (s.int2 d a b (fun a b => a >>> shAmt b))

/-- SRA (R315): right shift, sign fill. -/
def execSra (d a b : GReg) (s : State) : Host.Outcome State Fault Refusal :=
  .next (s.int2 d a b (fun a b => a.sshiftRight (shAmt b)))

/-- MIN (R315): signed minimum. -/
def execMin (d a b : GReg) (s : State) : Host.Outcome State Fault Refusal :=
  .next (s.int2 d a b (fun a b => if a.slt b then a else b))

/-- MAX (R315): signed maximum. -/
def execMax (d a b : GReg) (s : State) : Host.Outcome State Fault Refusal :=
  .next (s.int2 d a b (fun a b => if a.slt b then b else a))

/-- MINN (R315): unsigned minimum. -/
def execMinn (d a b : GReg) (s : State) : Host.Outcome State Fault Refusal :=
  .next (s.int2 d a b (fun a b => if a.ult b then a else b))

/-- MAXN (R315): unsigned maximum. -/
def execMaxn (d a b : GReg) (s : State) : Host.Outcome State Fault Refusal :=
  .next (s.int2 d a b (fun a b => if a.ult b then b else a))

/-- CLZ (R315): leading zero bits; 64 for zero. -/
def execClz (d a : GReg) (s : State) : Host.Outcome State Fault Refusal :=
  .next (s.int1 d a (fun a => BitVec.ofNat 64 (clz64 a)))

/-- CTZ (R315): trailing zero bits; 64 for zero. -/
def execCtz (d a : GReg) (s : State) : Host.Outcome State Fault Refusal :=
  .next (s.int1 d a (fun a => BitVec.ofNat 64 (ctzN a.toNat 64)))

/-- POPC (R315): one bits. -/
def execPopc (d a : GReg) (s : State) : Host.Outcome State Fault Refusal :=
  .next (s.int1 d a (fun a => BitVec.ofNat 64 (popN a.toNat 64)))

/-- BREV (R315): bits reversed. -/
def execBrev (d a : GReg) (s : State) : Host.Outcome State Fault Refusal :=
  .next (s.int1 d a (fun a => BitVec.ofNat 64 (revN a.toNat 64)))

/-- SEL (R317): g[a] when predicate n is true, else g[b]. -/
def execSel (d : GReg) (n : PReg) (a b : GReg) (s : State) : Host.Outcome State Fault Refusal :=
  .next (s.fin d (if s.p n then s.g a else s.g b))

/-! ## Immediates (R318 to R321) -/

/-- ADDI (R318). -/
def execAddi (d a : GReg) (imm : BitVec 14) (s : State) : Host.Outcome State Fault Refusal :=
  .next (s.int1 d a (fun a => a + simm imm))

/-- ANDI (R318). -/
def execAndi (d a : GReg) (imm : BitVec 14) (s : State) : Host.Outcome State Fault Refusal :=
  .next (s.int1 d a (fun a => a &&& zimm imm))

/-- ORI (R318). -/
def execOri (d a : GReg) (imm : BitVec 14) (s : State) : Host.Outcome State Fault Refusal :=
  .next (s.int1 d a (fun a => a ||| zimm imm))

/-- XORI (R318). -/
def execXori (d a : GReg) (imm : BitVec 14) (s : State) : Host.Outcome State Fault Refusal :=
  .next (s.int1 d a (fun a => a ^^^ zimm imm))

/-- SHLI (R318). -/
def execShli (d a : GReg) (sh : BitVec 6) (s : State) : Host.Outcome State Fault Refusal :=
  .next (s.int1 d a (fun a => a <<< sh.toNat))

/-- SHRI (R318). -/
def execShri (d a : GReg) (sh : BitVec 6) (s : State) : Host.Outcome State Fault Refusal :=
  .next (s.int1 d a (fun a => a >>> sh.toNat))

/-- SRAI (R318). -/
def execSrai (d a : GReg) (sh : BitVec 6) (s : State) : Host.Outcome State Fault Refusal :=
  .next (s.int1 d a (fun a => a.sshiftRight sh.toNat))

/-- CMPI (R324): the immediate is sign-extended but for LTN and GEN. -/
def execCmpi (p : PReg) (cc : Cond) (a : GReg) (imm : BitVec 14) (s : State) :
    Host.Outcome State Fault Refusal :=
  let y := match cc with | .ltn | .gen => zimm imm | _ => simm imm
  .next (s.setP p (condHolds cc (s.g a) y)).adv

/-- LIH (R319): adds the signed chunk at bit 14(k + 1). -/
def execLih (d : GReg) (k : BitVec 2) (imm : BitVec 14) (s : State) : Host.Outcome State Fault Refusal :=
  .next (s.fin d (s.g d + (simm imm <<< (14 * (k.toNat + 1)))))

/-- ADDPC (R320). -/
def execAddpc (d : GReg) (imm : BitVec 14) (s : State) : Host.Outcome State Fault Refusal :=
  .next (s.fin d (s.thr.pc + simm imm))

/-- EXT (R321): the field of width1 + 1 bits at pos, zero-extended. -/
def execExt (d a : GReg) (width1 pos : BitVec 6) (s : State) : Host.Outcome State Fault Refusal :=
  .next (s.fin d (extField (s.g a) (width1.toNat + 1) pos.toNat))

/-- INS (R321): the other bits of g[d] stay. -/
def execIns (d a : GReg) (width1 pos : BitVec 6) (s : State) : Host.Outcome State Fault Refusal :=
  .next (s.fin d (insField (s.g d) (s.g a) (width1.toNat + 1) pos.toNat))

/-! ## Addresses and predicates (R322 to R325) -/

/-- LEA (R322). -/
def execLea (d a b : GReg) (sc : BitVec 2) (s : State) : Host.Outcome State Fault Refusal :=
  .next (s.fin d (s.g a + (s.g b <<< sc.toNat)))

/-- SITE (R323): field a zero names the executing slot; else R83 translates the word. -/
def execSite (d a : GReg) (s : State) : Host.Outcome State Fault Refusal :=
  let w :=
    if a = 0 then slotSite s.pkg s.tid
    else s.relocate s.thr.prt (BitVec.ofNat 32 (s.g a).toNat)
  .next (s.fin d (w.setWidth 64))

/-- CMP (R324). -/
def execCmp (p : PReg) (cc : Cond) (a b : GReg) (s : State) : Host.Outcome State Fault Refusal :=
  .next (s.setP p (condHolds cc (s.g a) (s.g b))).adv

/-- PLOG (R325): p[d] := tt[2 p[a] + p[b]]. -/
def execPlog (p a b : PReg) (tt : BitVec 4) (s : State) : Host.Outcome State Fault Refusal :=
  .next (s.setP p (tableBit tt (s.p a) (s.p b))).adv

end Sys2Proof.Machine
end

