-- ==== Sys2Proof/Machine/Power.lean ====
section
/-!
DEFINITION. Reset, power islands, the thermal limiter and the die bridge (01 R19 to R25, 02 R31, R36,
04 R80).
-/

namespace Sys2Proof.Machine

open Sys2Proof

def State.island (s : State) (n : Nat) : Island := s.pwr.isl.look {} n
def State.setIsland (s : State) (n : Nat) (x : Island) : State :=
  { s with pwr := { s.pwr with isl := s.pwr.isl.put {} n x } }

/-- FUNDAMENTAL_RESET (R5, R80): every register at its reset value, every resource FREE, no partition.
The fused minimum SVN (R63) is no register and stays (log 5); host memory is not the package's. -/
def execFundamentalReset (s : State) : Host.Outcome State Fault Refusal :=
  .next { State.reset with
    fresh := s.fresh, idNext := s.idNext, outbox := s.outbox, mem := s.mem.filter (fun c => isHost c.1)
    hif := { minSvn := s.hif.minSvn } }

/-! ## Island state and frequency (R20 to R23) -/

/-- Owners of the resources in an island (R19): blocks, clusters, channel groups; the seam columns of
a die follow its blocks. -/
def State.islandOwners (s : State) (n : Nat) : List Owner :=
  ((s.blkOwn.filter (fun e => blockIsland e.1 == n || (n % 20 == 18 && e.1 / 136 == n / 20))) ++
    (s.cluOwn.filter (fun e => clusterIsland e.1 == n)) ++
    (s.hbmOwn.filter (fun e => groupIsland e.1 == n))).map (·.2)

/-- A resource of the island is OWNED or SCRUBBING, or a partition holds DDR-5 units on one of its
channels (R21, R82, R103). -/
def State.islandOwned (s : State) (n : Nat) : Bool :=
  (s.islandOwners n).any (fun o => decide (o.st ≠ .free)) ||
    (n % 20 == 16 && ddrOnline.any (fun c => channelDie c == n / 20) &&
      s.prts.any (fun e => !e.2.ddrUnits.isEmpty))

/-- The ERR code of a write (R21): 1 BADFREQ, 2 BADSTATE, 3 OWNED, 4 FIXED, 0 accepted. Of several cases at
once, the first in R21's list (log 49). -/
def State.islErr (s : State) (n state freq : Nat) : Nat :=
  if freq < 30 ∨ 90 < freq then 1
  else if state = 3 then 2
  else if state ≠ 0 ∧ s.islandOwned n then 3
  else if n % 20 = 19 ∧ (state ≠ 0 ∨ freq ≠ 90) then 4
  else 0

/-- The frequency an island runs at: the lower of FREQ and the limiter's value, with THROT (R25). -/
def Island.settle (x : Island) : Island :=
  let f := Nat.min x.freq x.lim
  { x with freqNow := f, throt := decide (f < x.freq) }

/-- An accepted write takes effect: the register holds it and a transition begins. -/
def State.islAccept (s : State) (n state freq : Nat) : State :=
  let x := s.island n
  let x := { x with freq := freq, state := state, err := 0 }
  if state ≠ x.stNow ∨ Nat.min freq x.lim ≠ x.freqNow then
    (s.setIsland n { x with busy := true }).post (.islandTransitionDone n)
  else s.setIsland n x.settle

/-- PWR_ISL_CTL_WRITE (R21): refused whole with an ERR code, queued while BUSY, or accepted. A write is
checked when it is made, and a queued one again when it is applied (log 49). After a thermal shutdown it does
nothing (R25). -/
def execPwrIslCtlWrite (n : Nat) (v : W32) (s : State) : Host.Outcome State Fault Refusal :=
  let (state, freq) := (fld v 9 8, fld v 6 0)
  let x := s.island n
  let e := s.islErr n state freq
  .next (
    if bitAt s.pwr.trip 63 then s
    else if e ≠ 0 then s.setIsland n { x with err := e }
    else if x.busy then s.setIsland n { x with queued := some (state, freq), err := 0 }
    else s.islAccept n state freq)

/-- A range of DRAM whose contents are lost: bytes and full bits are as unwritten (R20, log 3, log 4). -/
def State.loseRange (s : State) (lo hi : Nat) : State :=
  { s.zeroRange lo hi with
    zeroed := s.zeroed.flatMap (fun z =>
      [(z.1, Nat.min z.2.1 (lo / 8), z.2.2), (Nat.max z.1 (hi / 8), z.2.1, z.2.2)].filter (fun y =>
        decide (y.1 < y.2.1))) }

/-- The contents of the DDR-5 channels of a die are lost (R19, R20). -/
def State.loseDdr (s : State) (d : Nat) : State :=
  let its (a : Nat) : Bool := decide (ddrWin ≤ a) && decide (a < poolWin) && memDie a == d
  { s with
    mem := s.mem.filter (fun c => !its c.1)
    poison := s.poison.filter (fun p => !its p)
    full := s.full.filter (fun e => !its (8 * e.1))
    zeroed := s.zeroed.map (fun z => if ddrWin / 8 ≤ z.1 then (z.1, z.2.1, z.2.2.filter (· != d)) else z) }

/-- SRAM of an island reads zero (R23): memory tiles and pools. -/
def State.clearSram (s : State) (n : Nat) : State :=
  if n % 20 < 8 then
    (List.range 272).foldl (fun s b =>
      if blockIsland b = n then
        (List.range 16).foldl (fun s t =>
          let a := tileAddr (tileSite b t)
          s.zeroRange a (a + 0x10000)) s
      else s) s
  else if n % 20 < 16 then
    (List.range 256).foldl (fun s m =>
      if clusterIsland m = n then s.zeroRange (poolBase (8 * m)) (poolBase (8 * m + 8)) else s) s
  else s

/-- The Peal links of a die (R36). -/
def dieLinks (d : Nat) : List Nat := List.range' (8 * d) 8

/-- Power is removed from an island: its state is lost and its SRAM reads zero when power returns; its
links go down (R20, R23, R36, R44). -/
def State.powerOff (s : State) (n : Nat) : State :=
  let i := n % 20
  let s := s.clearSram n
  if i < 8 then
    { s with trans := s.trans.filter (fun e => blockIsland (136 * (e.1 / 368) + e.1 % 368 / 22) != n) }
  else if i < 16 then
    let its (m : Nat) : Bool := clusterIsland m == n
    { s with
      copies := s.copies.filter (fun c => !(decide (c.level < 256) && its c.level))
      l2 := s.l2.filter (fun y => !its y.slice)
      l2used := s.l2used.filter (fun m => !its m)
      cores := s.cores.filter (fun e => !its (e.1 / 8))
      clusters := s.clusters.filter (fun e => !its e.1)
      threads := s.threads.filter (fun e => !(decide (e.1 < 65536) && its (e.1 / 128))) }
  else if i = 18 then
    { s with cfg := { s.cfg with ports := s.cfg.ports.filter (fun e => e.1 / 256 != n / 20) } }
  else
    let s := (List.range 96).foldl (fun s g =>
      if groupIsland g = n then s.loseRange (hbmWin + hbmGroup * g) (hbmWin + hbmGroup * (g + 1)) else s) s
    let s := if i = 16 then s.loseDdr (n / 20) else s
    if i = 17 then (dieLinks (n / 20)).foldl (fun s l => s.dropLink l .down) s else s

/-- Power returns to an island: its SRAM reads zero (R23), and the links that are enabled train (R46). -/
def State.powerOn (s : State) (n : Nat) : State :=
  let s := s.clearSram n
  if n % 20 = 17 then
    (dieLinks (n / 20)).foldl (fun s l =>
      let x := s.link l
      if x.enable ∧ x.st = .down then s.setLink l { x with st := .training } else s) s
  else s

/-- ISLAND_TRANSITION_DONE (R21 to R23): the island is in its new state at its new frequency; the
latest queued write is then applied, when it is checked again (log 49). -/
def execIslandTransitionDone (n : Nat) (s : State) : Host.Outcome State Fault Refusal :=
  let x := s.island n
  .next (
    if !x.busy then s
    else
      let s := if x.state = 2 ∧ x.stNow ≠ 2 then s.powerOff n
        else if x.stNow = 2 ∧ x.state ≠ 2 then s.powerOn n else s
      let s := s.setIsland n { x.settle with stNow := x.state, busy := false, queued := none }
      let s := s.wakeAll
      match x.queued with
      | none => s
      | some (state, freq) =>
        let e := s.islErr n state freq
        if e ≠ 0 then s.setIsland n { s.island n with err := e } else s.islAccept n state freq)

/-! ## The thermal limiter (R25) -/

/-- The limiter's value moves by 25 MHz: down while it is hot, else up toward FREQ. -/
def Island.limit (x : Island) : Island :=
  ({ x with lim := if x.hot then Nat.min x.lim x.freqNow - 1
                   else if x.lim < x.freq then x.lim + 1 else 90 } : Island).settle

/-- THERMAL_THROTTLE (R25): TEMP reaches 100 °C and the limiter begins to lower the frequency. -/
def execThermalThrottle (n temp : Nat) (s : State) : Host.Outcome State Fault Refusal :=
  let x := { s.island n with temp := some (BitVec.ofNat 8 temp) }
  .next (s.setIsland n (if 100 ≤ temp then ({ x with hot := true } : Island).limit else x))

/-- LIMITER_STEP (R25): every 10 µs a step down until TEMP falls below 97 °C, then up toward FREQ. -/
def execLimiterStep (n temp : Nat) (s : State) : Host.Outcome State Fault Refusal :=
  let x := s.island n
  let hot := if temp < 97 then false else x.hot || decide (100 ≤ temp)
  .next (s.setIsland n
    ({ x with temp := some (BitVec.ofNat 8 temp), hot := hot } : Island).limit)

/-- THERMAL_SHUTDOWN (R25, R58): a sensor reaches 110 °C: Tocsin with the fatal cause, THERMAL, the
TRIP word, and no power in any island but the always-on ones: every link leaves UP. -/
def execThermalShutdown (n : Nat) (s : State) : Host.Outcome State Fault Refusal :=
  let s := (s.hifError 6).tocsin 4
  let s := s.lnk.links.foldl (fun s e => s.leftUp e.1) s
  let isl := (List.range 40).foldl (fun (t : Tbl Island) i =>
    if i % 20 = 19 then t
    else
      let x : Island := t.look {} i
      t.put {} i { x with stNow := 2, busy := false, queued := none }) s.pwr.isl
  let snap := { s.snap with pwr := { s.snap.pwr with trip := BitVec.ofNat 64 (2 ^ 63 + n % 64) } }
  .next { s with
    pwr := { isl := isl, trip := BitVec.ofNat 64 (2 ^ 63 + n % 64) }
    snap := snap
    threads := [], cores := [], clusters := [], acmds := [], full := [], zeroed := [], poison := []
    mem := s.mem.filter (fun c => isHost c.1)
    copies := [], l2 := [], l2used := [], waiters := [], regions := [], trans := [], loads := [], msgs := []
    cfg := { s.cfg with ports := [] }
    lnk := { s.lnk with links := s.lnk.links.map (fun (e : Nat × Link) =>
      (e.1, { e.2 with st := .down, out := [], hold := [] })) } }

/-! ## The die bridge (R31) -/

/-- BRIDGE_REPLAY (R31): a beat that is not acknowledged is sent again; programs see delay only. -/
def execBridgeReplay (s : State) : Host.Outcome State Fault Refusal :=
  .next { s with lnk := { s.lnk with bridgeReplays := s.lnk.bridgeReplays + 1 } }

/-- BRIDGE (R31, R58): a beat fails after 16 replays: the fatal event, Tocsin and the ERROR vector. -/
def execBridge (s : State) : Host.Outcome State Fault Refusal :=
  .next (({ s with lnk := { s.lnk with bridgeReplays := 0 } }.hifError 7).tocsin 4)

end Sys2Proof.Machine
end

