-- ==== Sys2Proof/Machine/Resize.lean ====
section
/-!
DEFINITION. Partitions and their resize (04 R78 to R113): the commands, the checks of PROPOSE, the
seven steps, moving regions, cores and HBM4 pages, the resize record.
-/

namespace Sys2Proof.Machine

open Sys2Proof

/-! ## Shapes -/

/-- The bitmap of a list of numbers. -/
def bitmap (n : Nat) (l : List Nat) : BitVec n := BitVec.ofNat n (l.eraseDups.foldl (fun x i => x + 2 ^ i) 0)

def bitList {n : Nat} (x : BitVec n) : List Nat := (List.range n).filter (bitAt x)

/-- R79: blocks adjacent to a block. -/
def blockNear (n : Nat) : List Nat :=
  let (d, b, k) := (n / 136, n % 136 / 17, n % 17)
  (if k = 0 then [] else [n - 1]) ++ (if k = 16 then [] else [n + 1]) ++
    (if b = 0 then [] else [n - 17]) ++ (if b = 7 then [] else [n + 17]) ++
    (if d = 0 ∧ k = 16 then [136 + 17 * b] else []) ++ (if d = 1 ∧ k = 0 then [17 * b + 16] else [])

/-- Blocks of `l` reached from those of `seen` in `n` steps. -/
def reach (l : List Nat) : Nat → List Nat → List Nat
  | 0, seen => seen
  | n + 1, seen => reach l n (l.filter (fun b => seen.contains b || (blockNear b).any seen.contains))

/-- R79: the set is empty or 4-connected. -/
def connected (l : List Nat) : Bool := (reach l l.length (l.take 1)).length == l.length

/-- R81: the list that follows `old` with the groups of a bitmap: an append or a tail removal. -/
def newGroups (old : List Nat) (bm : BitVec 96) : Option (List Nat) :=
  let l := bitList bm
  if old.all l.contains then some (old ++ l.filter (fun g => !old.contains g))
  else
    let t := old.take l.length
    if t.length = l.length ∧ t.all l.contains then some t else none

/-- DDR-5 tier units that no partition holds (R82). -/
def State.ddrFree (s : State) : List Nat :=
  (List.range (Nat.min 2048 ddrGiB)).filter (fun u => !s.prts.any (fun e => e.2.ddrUnits.contains u))

def State.blocksOf (s : State) (q : Nat) : List Nat := (s.blkOwn.filter (fun e => e.2.heldBy q)).map (·.1)
def State.clustersOf (s : State) (q : Nat) : List Nat := (s.cluOwn.filter (fun e => e.2.heldBy q)).map (·.1)

/-- Resources the resize takes away. -/
def State.goneBlocks (s : State) (z : Resize) : List Nat := (s.blocksOf z.prt).filter (fun b => !bitAt z.blk b)
def State.goneClusters (s : State) (z : Resize) : List Nat := (s.clustersOf z.prt).filter (fun m => !bitAt z.clu m)
def State.goneGroups (s : State) (z : Resize) : List Nat :=
  (s.prt z.prt).groups.filter (fun g => !z.groups.contains g)
def State.goneCores (s : State) (z : Resize) : List Nat :=
  (s.goneClusters z).flatMap (fun m => (List.range 8).map (8 * m + ·))

/-! ## The resize record and the end of a command (R86, R88, R110) -/

/-- R110: the record is written when RECADDR is enabled and lies in partition memory. That of a DESTROY
is written while the partition still has its memory (log 54). -/
def State.rszRecord (s : State) (z : Resize) (status last : Nat) : State :=
  let p := s.prt z.prt
  let a := fld p.recaddr 51 6 * 64
  if bitAt p.recaddr 0 ∧ s.inPrtMem z.prt a 64 then
    match s.memHome z.prt a with
    | none => s
    | some h =>
      s.deviceStore h (leBytes 4 p.rszSeq.toNat ++ leBytes 1 status ++ leBytes 1 last ++ leBytes 1 z.origin ++
        leBytes 1 0 ++ (List.range 7).flatMap (fun i => leBytes 4 (z.durs.getD i 0)) ++ leBytes 2 z.nblk ++
        leBytes 2 z.ncore ++ leBytes 4 z.nthread ++ leBytes 4 (Nat.min 0xFFFFFFFF z.moved) ++
        leBytes 8 z.nbytes ++ leBytes 1 z.nreloc ++ leBytes 7 0)
  else s

/-- A command begins: PROPOSE in its turn. -/
def State.beginResize (s : State) (z : Resize) : State :=
  ({ s with resize := some z }.setPrt z.prt { s.prt z.prt with rszStep := 1, rszStatus := 13 }).poke .resizePropose

/-- The running command has ended; the next of the queue begins (R86), and a context command of the
partition that waited (R103). -/
def State.endResize (s : State) (z : Resize) (status last : Nat) : State :=
  let s := s.setPrt z.prt { s.prt z.prt with rszBusy := false, rszStep := 0, rszStatus := status }
  let s := (if status = 0 ∧ z.cmd = 3 then s else s.rszRecord z status last).report z.prt 3
  let s := { s with resize := none }
  let s := match s.resizeQ with
    | [] => s
    | n :: r => { s with resizeQ := r }.beginResize n
  s.ctxWake z.prt

/-! ## Starting (R85, R86) -/

/-- A write of CMD: refused with BUSY, queued with PENDING, or begun. -/
def State.resizeCmd (s : State) (q cmd : Nat) (sup : Bool) : State :=
  let p := s.prt q
  let origin := if sup then 2 else 1
  let gone := cmd == 3
  let z : Resize :=
    { prt := q, cmd := cmd, origin := origin, blk := if gone then 0 else p.propBlk
      clu := if gone then 0 else p.propClu, hbm := if gone then 0 else p.propHbm
      ddr := if gone then 0 else p.propDdr, relocs := if gone then [] else p.propReloc, step := 1
      groups := [], w := 0, grow := false, nblk := 0, ncore := 0, nthread := 0, nbytes := 0, nreloc := 0
      regions := [], cores := [], moved := 0, oldBlk := 0, oldClu := 0, durs := [] }
  if p.rszBusy ∨ p.ctxState = 1 then
    ((s.setPrt q { p with rszStatus := 1 }).rszRecord z 1 0).report q 3
  else
    let s := s.setPrt q { p with rszBusy := true, rszOrigin := origin, rszStatus := 12 }
    match s.resize with
    | some _ => { s with resizeQ := s.resizeQ ++ [z] }
    | none => s.beginResize z

/-- PRT_CREATE (R85, R86). -/
def execPrtCreate (q : Nat) (sup : Bool) (s : State) : Host.Outcome State Fault Refusal := .next (s.resizeCmd q 1 sup)
/-- PRT_RESIZE (R85, R86). -/
def execPrtResize (q : Nat) (sup : Bool) (s : State) : Host.Outcome State Fault Refusal := .next (s.resizeCmd q 2 sup)
/-- PRT_DESTROY (R85, R86). -/
def execPrtDestroy (q : Nat) (sup : Bool) (s : State) : Host.Outcome State Fault Refusal := .next (s.resizeCmd q 3 sup)

/-! ## PROPOSE (R87) -/

/-- TAKEN: a named resource is neither FREE nor the partition's; more DDR-5 than is free (log 27). -/
def State.anyTaken (s : State) (z : Resize) : Bool :=
  let bad (t : Tbl Owner) (n : Nat) : Bool :=
    let o := t.look {} n
    !(decide (o.st = .free) || o.heldBy z.prt)
  let more := z.ddr - (s.prt z.prt).ddrUnits.length
  (bitList z.blk).any (bad s.blkOwn) || (bitList z.clu).any (bad s.cluOwn) || (bitList z.hbm).any (bad s.hbmOwn) ||
    (if more = 0 then false else decide (s.ddrFree.length < more))

/-- QUOTA: a supervisor's proposal exceeds a limit. -/
def State.overQuota (s : State) (z : Resize) : Bool :=
  let l := (s.prt z.prt).quota
  z.origin == 2 && (decide (fld l 8 0 < (bitList z.blk).length) || decide (fld l 24 16 < (bitList z.clu).length) ||
    decide (fld l 31 25 < (bitList z.hbm).length) || decide (fld l 43 32 < z.ddr))

/-- NOROOM: memory in use exceeds the new capacity. -/
def State.noRoom (s : State) (z : Resize) : Bool :=
  let h := (s.prt z.prt).hwm
  decide (hbmBytes z.groups < 65536 * fld h 23 0) || decide (z.ddr < fld h 43 32)

/-- An island is in RETAIN or OFF. -/
def State.islandDown (s : State) (n : Nat) : Bool := (s.pwr.isl.look {} n).stNow != 0

/-- INUSE: a departing tile in fabric mode for a loaded region, or a claimed resource in an island in
RETAIN or OFF. -/
def State.inUse (s : State) (z : Resize) : Bool :=
  (s.goneClusters z).any s.tileInFabric ||
    (bitList z.blk).any (fun b => !s.ownsBlock z.prt b &&
      (s.islandDown (blockIsland b) || s.islandDown (20 * (b / 136) + 18))) ||
    (bitList z.clu).any (fun m => !s.ownsCluster z.prt m && s.islandDown (clusterIsland m)) ||
    (bitList z.hbm).any (fun g => !(s.prt z.prt).groups.contains g && s.islandDown (groupIsland g)) ||
    (if z.ddr ≤ (s.prt z.prt).ddrUnits.length then false
     else [0, 1].any (fun d => s.islandDown (20 * d + 16) && ddrOnline.any (fun c => channelDie c == d)))

/-- The proposal's relocation of a region. -/
def Resize.named (z : Resize) (sl : Nat) : Option W32 :=
  ((z.relocs.map (·.2)).find? (fun w => bitAt w 63 && fld w 43 32 == sl)).map (fun w => BitVec.ofNat 32 w.toNat)

/-- R93: a rectangle is a legal target of the region: whole-block shift, blocks of the new shape,
tiles of the new clusters, no other region's sites. -/
def State.moveTarget (s : State) (z : Resize) (sl : Nat) (r : Region) (o : Nat × Nat) : Bool :=
  let l : Rect := { r.rect with x := o.1, y := o.2 }
  (shiftOrigins r.rect).contains o && l.onPackage && l.blocks.all (bitAt z.blk) &&
    (r.movedTo o.1 o.2).mxs.all (fun f => bitAt z.clu f.cluster) && !s.siteBusy z.prt sl r.ctx l

/-- The target of a region to be moved: the one its relocation names, or the lowest (R93). -/
def State.moveTo (s : State) (z : Resize) (sl : Nat) (r : Region) : Option (Nat × Nat) :=
  match z.named sl with
  | some w =>
    let o := (regionX w, fld w 13 7)
    if sitePkg w = s.pkg ∧ s.moveTarget z sl r o then some o else none
  | none => (shiftOrigins r.rect).find? (s.moveTarget z sl r)

/-- Regions to be moved (R91): those with a site in a departing block, and those named. A region of a spilled
context is loaded and occupies no site: naming it is not refused and moves nothing (DESIGN CHOICE, log 64). -/
def State.movers (s : State) (z : Resize) : List Nat :=
  let gone := s.goneBlocks z
  (s.regions.filter (fun e => e.1 / 4096 == z.prt && e.2.loaded && decide (e.2.ctx < 2) &&
    ((z.named (e.1 % 4096)).isSome || e.2.rect.blocks.any gone.contains))).map (fun e => e.1 % 4096)

/-- R93, NOPLACE: every region to be moved has its target, and every departing core of a RESIZE a cluster to
go to. -/
def State.planMoves (s : State) (z : Resize) : Option Resize :=
  let lost := (z.relocs.map (·.2)).any (fun w => bitAt w 63 && !(s.region z.prt (fld w 43 32)).loaded)
  let cores := s.goneCores z
  if lost ∨ (z.cmd ≠ 3 ∧ !cores.isEmpty ∧ !(s.clustersOf z.prt).any (bitAt z.clu)) then none
  else
    (s.movers z).foldl (fun (acc : Option Resize) sl =>
      match acc with
      | none => none
      | some z =>
        let r := s.region z.prt sl
        match (if r.pi then { s with resize := some z }.moveTo z sl r else none) with
        | some (x, y) => some { z with regions := z.regions ++ [(sl, fabSite s.pkg (siteAt x y) 0)] }
        | none => none) (some { z with cores := if z.cmd = 3 then [] else cores })

/-- Relocation entries the planned moves make: none for a region whose rectangle has one (R83). -/
def State.relocNeed (s : State) (z : Resize) : Nat :=
  (z.regions.filter (fun e =>
    let r := s.region z.prt e.1
    !(s.prt z.prt).entryOf e.1 (fabSite s.pkg (siteAt r.x r.y) 0))).length + z.cores.length

/-- Entries of the relocation table a new one may take (R83). -/
def Prt.relocRoom (p : Prt) : Nat :=
  64 - (p.reloc.filter (fun e => e.2.valid && (e.2.core || e.2.live))).length

/-- R87: the first check that fails, or 0 with the planned command. -/
def State.propose (s : State) (z : Resize) : Nat × Resize :=
  let p := s.prt z.prt
  if (z.cmd ≠ 2 ∧ z.origin = 2) ∨ p.exist = (z.cmd == 1) then (11, z)
  else if s.anyTaken z then (4, z)
  else if s.overQuota z then (3, z)
  else if z.cmd ≠ 3 ∧ (z.clu = 0 ∨ z.hbm = 0) then (5, z)
  else if !connected (bitList z.blk) then (2, z)
  else
    match newGroups p.groups z.hbm with
    | none => (8, z)
    | some gs =>
      let z : Resize := { z with groups := gs }
      if s.noRoom z then (7, z)
      else if s.inUse z then (10, z)
      else
        match s.planMoves z with
        | none => (6, z)
        | some z => if p.relocRoom < s.relocNeed z then (9, z) else (0, z)

/-! ## The steps (R88, R89) -/

/-- The command enters a step. -/
def State.enterStep (s : State) (z : Resize) (k : Nat) : State :=
  ({ s with resize := some { z with step := k } }.setPrt z.prt { s.prt z.prt with rszStep := k }).pokeResize

/-- The duration of a step: a free value within its bound, one cycle without work. -/
def State.stepTime (s : State) (z : Resize) (work : Bool) (bound : Nat) : Resize × State :=
  let (w, s') := s.draw
  let d := if work then w.toNat % bound + 1 else 1
  ({ z with durs := z.durs ++ [d] }, if work then s' else s)

/-- A step has completed: the RESIZE vector is raised (R88). -/
def State.stepDone (s : State) (z : Resize) (work : Bool) (bound : Nat) : Resize × State :=
  let (z, s) := s.stepTime z work bound
  (z, s.report z.prt 3)

/-- The running command in step `k`, while the package is not halted (R73, R103). -/
def State.inStep (s : State) (k : Nat) : Option Resize :=
  match s.resize with
  | some z => if z.step = k ∧ s.prtRuns none then some z else none
  | none => none

/-- DESTROY cancels every job of the partition first (R85). -/
def State.destroyJobs (s : State) (q : Nat) : State :=
  (s.prt q).cnt.jobs.foldl (fun s e => s.cancelLevel q 4 e.1 .cancelled rDESTROY) s

/-- RESIZE_PROPOSE (R85, R87, R89): the checks, of a DESTROY as its jobs' cancel leaves the partition; a
refused command changes nothing. -/
def execResizePropose (s : State) : Host.Outcome State Fault Refusal :=
  .next (
    match s.inStep 1 with
    | none => s
    | some z =>
      let s' := if z.cmd = 3 ∧ z.origin ≠ 2 ∧ (s.prt z.prt).exist then s.destroyJobs z.prt else s
      let (code, z) := s'.propose z
      if code ≠ 0 then
        let (z, s) := s.stepTime z true 2048
        s.endResize z code 1
      else
        let z : Resize := { z with
          oldBlk := bitmap 272 (s'.blocksOf z.prt), oldClu := bitmap 256 (s'.clustersOf z.prt) }
        let (z, s) := s'.stepDone z true 2048
        s.enterStep z 2)

/-- RESIZE_GUARD (R89, R104): every guard has acknowledged. CREATE goes on to COMMIT. -/
def execResizeGuard (s : State) : Host.Outcome State Fault Refusal :=
  .next (
    match s.inStep 2 with
    | none => s
    | some z =>
      let (z, s) := s.stepDone z (z.blk != 0 || !(s.blocksOf z.prt).isEmpty) 512
      if z.cmd = 1 then s.enterStep { z with durs := z.durs ++ [0, 0, 0, 0] } 7 else s.enterStep z 3)

/-! ## DRAIN (R84, R90) -/

/-- Every unit of a partition stops, in either slot or spilled (R85: the empty shape holds none). -/
def State.stopPartition (s : State) (q : Nat) : State :=
  let s := (s.threadsOf q (fun _ => true)).foldl (fun s t => s.endThread t .cancelled rDESTROY) s
  let s := (s.regions.filter (fun e => e.1 / 4096 == q && e.2.loaded)).foldl
    (fun s e => s.freeRegion q (e.1 % 4096)) s
  { s with
    cores := s.cores.map (fun (e : Nat × Core) =>
      (e.1, { e.2 with queue := e.2.queue.filter (fun pk => pk.prt != q) }))
    acmds := s.acmds.filter (fun c => c.prt != q)
    clusters := s.clusters.map (fun (e : Nat × Cluster) => (e.1, { e.2 with
      walks := e.2.walks.filter (fun w => w.prt != q)
      queues := e.2.queues.map (fun (k : Nat × List MxCmd) => (k.1, k.2.filter (fun c => c.prt != q))) }))
    loads := s.loads.filter (fun l => l.prt != q)
    cfg := { s.cfg with ports := s.cfg.ports.map (fun (e : Nat × CfgPort) =>
      if e.2.prt = q then (e.1, { e.2 with busy := false }) else e) }
    msgs := s.msgs.filter (fun m => m.prt != q)
    regions := s.regions.filter (fun e => e.1 / 4096 != q) }.refillPorts

/-- What the drain closes: departing blocks outside the regions still to move, the free part of departing
pools, DDR-5 units beyond the new quota, and HBM4 memory beyond the new list. -/
def State.drains (s : State) (z : Resize) : List (Nat × Nat) :=
  let p := s.prt z.prt
  (s.goneBlocks z).map (fun b => (3, b)) ++ (s.goneCores z).map (fun c => (1, c)) ++
    ((List.range p.ddrUnits.length).drop z.ddr).map (fun i => (2, i)) ++
    (if z.groups.length < p.groups.length then [(4, hbmBytes z.groups / 4096)] else [])

/-- RESIZE_DRAIN (R84, R89, R90): accesses already issued complete; from here on the departing units whose
contents do not move raise REVOKED. -/
def execResizeDrain (s : State) : Host.Outcome State Fault Refusal :=
  .next (
    match s.inStep 3 with
    | none => s
    | some z =>
      let s := s.performPrt z.prt
      let s := if z.cmd = 3 then s.stopPartition z.prt else s
      let p := s.prt z.prt
      let out := s.drains z
      let s := s.setPrt z.prt { p with drained := out }
      let (z, s) := s.stepDone z (!out.isEmpty) 1024
      let grow := decide (p.groups.length < z.groups.length)
      s.enterStep { z with grow := grow, w := if grow then 0 else hbmBytes p.groups / 4096 } 4)

/-! ## MIGRATE: regions (R91 to R94) -/

/-- Word waiters and uncorrectable errors go with moved bytes. -/
def State.moveWaits (s : State) (f : Nat → Option Nat) : State :=
  { s with
    poison := s.poison.map (fun a => (f a).getD a)
    waiters := s.waiters.map (fun (w : Waiter) =>
      match f w.addr, f w.part.pa with
      | some a, some b => { w with addr := a, part := { w.part with pa := b } }
      | _, _ => w) }

/-- Moves a region, running or saved, to its target. -/
def State.relocateRegion (s : State) (q sl x y : Nat) : State :=
  let r := s.region q sl
  if r.savedAt.isSome then (s.moveNames q sl r x y).setRegion q sl (r.movedTo x y)
  else
    let sh := s.tileShare q r.ctx
    let pairs := r.rect.tiles.map (fun t =>
      (tileAddr t + sh.1, tileAddr (siteAt (siteX t + x - r.x) (siteRow t + y - r.y)) + sh.1))
    let f (a : Nat) : Option Nat :=
      (pairs.find? (fun p => decide (p.1 ≤ a) && decide (a < p.1 + sh.2))).map (fun p => p.2 + (a - p.1))
    let s := (s.performPrt q).moveRegion q sl x y
    (s.moveWaits f).wakeRegion q sl

/-- REGION_MOVE (R91 to R94, R103): the region is at its target and has its relocation entry. A
cancelled region is not moved; one whose scan-out goes on waits. -/
def execRegionMove (sl : Nat) (s : State) : Host.Outcome State Fault Refusal :=
  .next (
    match s.inStep 4 with
    | none => s
    | some z =>
      match z.regions.find? (fun e => e.1 == sl) with
      | none => s
      | some (_, w) =>
        let q := z.prt
        let r := s.region q sl
        let z : Resize := { z with
          regions := z.regions.filter (fun e => e.1 != sl)
          gone := if r.loaded then z.gone ++ [sl] else z.gone }
        let next (s : State) (z : Resize) : State := ({ s with resize := some z }).poke .resizeMigrate
        if !r.loaded then next s z
        else if r.clock = 2 ∧ r.savedAt.isNone then s
        else
          let (x, y) := (regionX w, fld w 13 7)
          let s := s.regionPorts q sl 3 r
          let first := !(s.prt q).entryOf sl (fabSite s.pkg (siteAt r.x r.y) 0)
          let s := (s.relocateRegion q sl x y).regionEntry q sl r w
          let s := s.regionPorts q sl 4 (s.region q sl)
          next s { z with nblk := z.nblk + r.blocks.length, nreloc := z.nreloc + b2n first })

/-! ## MIGRATE: cores (R95, R96) -/

/-- Pool ranges of a core in use: the shares of both slots, and pools moved there earlier. -/
def State.usedPool (s : State) (q c : Nat) : List (Nat × Nat) :=
  ([0, 1].filter (fun x => (s.pw c x).valid)).map (fun x => (1024 * (s.pw c x).base, (s.pw c x).stop)) ++
    (((s.prt q).reloc.map (·.2)).filter (fun e => e.core && e.live && e.new == coreSite s.pkg c)).flatMap
      (fun e => e.spans.map (fun p => (p.1 + e.poolOff, p.2.2 + e.poolOff)))

/-- Free bytes of a pool below the task queue. -/
def State.freePool (s : State) (q c : Nat) : Nat :=
  0x3C000 - (s.usedPool q c).foldl (fun n r => n + (r.2 - r.1)) 0

/-- R95: of the cores in clusters the partition keeps, the one with the most free bytes; the lowest
SITE breaks a tie. -/
def State.targetCore (s : State) (z : Resize) : Option Nat :=
  ((s.coresOf z.prt).filter (fun c => bitAt z.clu (c / 8))).foldl (fun (b : Option Nat) c =>
    match b with
    | none => some c
    | some d =>
      if s.freePool z.prt d < s.freePool z.prt c ∨
          (s.freePool z.prt d = s.freePool z.prt c ∧ (coreSite 0 c).toNat < (coreSite 0 d).toNat)
      then some c else some d) none

/-- The lowest offset, in KiB, at which the ranges of core `c` fit in core `t` (log 26). -/
def State.poolFit (s : State) (q c t : Nat) : Option Nat :=
  let mine := s.usedPool q c
  let theirs := s.usedPool q t
  (List.range 240).find? (fun k => mine.all (fun r => decide (r.2 + 1024 * k ≤ 0x3C000) &&
    theirs.all (fun u => decide (r.2 + 1024 * k ≤ u.1) || decide (u.2 ≤ r.1 + 1024 * k))))

/-- Thread keys of a core, of both context slots. -/
def State.coreThreads (s : State) (c : Nat) : List Nat :=
  (s.threads.filter (fun e => decide (e.2.st ≠ .empty) && decide (e.1 < 2 * outKey) &&
    slotOf e.1 / 16 == c)).map (·.1)

/-- R96: no thread of the core waits for a reply, and no matrix command that has started holds an accumulator
there. A thread that waits at a word's home waits for no reply: it is withdrawn (R337). Async commands run on
(R420). -/
def State.coreQuiet (s : State) (c : Nat) : Bool :=
  (s.coreThreads c).all (fun t =>
    let th := s.thread t
    !(th.st == .memory && !th.poll && !th.atHome && !th.filled)) &&
    ((s.clu (c / 8)).queues.look [] (c % 8)).all (fun m =>
      !m.granted && m.kdone == 0 && m.rowStart == 0)

/-- A window that names the bytes of core `c` at their places in core `t`. -/
def Win.shift (w : Win) (c t off : Nat) : Win :=
  { w with scr := w.scr - poolBase c + poolBase t + off, acc := w.acc - poolBase c + poolBase t + off }

/-- One thread goes to a free slot of the target, or to the head of its level in the target's queue
(R95); its accesses have been performed and its waits issue again. -/
def State.moveThread (s : State) (c t off k : Nat) : State :=
  let s := (s.performAll k).withdraw k
  let th := s.thread k
  let x := th.ctx
  let cl := s.clu (c / 8)
  let s := s.setClu (c / 8) { cl with walks := cl.walks.map (fun (w : Walk) =>
    { w with who := w.who.filter (fun y => y.1 != k) }) }
  let th := { th with
    lw := some ((th.lw.getD (s.win c x)).shift c t off), wfault := [], fills := [], filled := false
    st := if th.atHome ∨ th.st = .walk ∨ th.filled then .ready else th.st, atHome := false }
  let n := (s.pw t x).slots - (if th.kind = .drain then 0 else (s.pw t x).drslots)
  match (List.range (Nat.min 16 n)).find? (fun i => decide ((s.thread (s.slotKey t x i)).st = .empty)) with
  | some i =>
    let key := s.slotKey t x i
    let core := s.core t
    let keep (l : List TlbEntry) : List TlbEntry := l.filter (fun e => e.slot != i)
    let s := s.setCore t (if key < outKey then { core with tlb := keep core.tlb }
      else { core with tlbOut := keep core.tlbOut })
    ((s.setThread key {}).setThread k th).rename (fun u => if u = k then key else u)
  | none =>
    let pk : Packet := { kind := th.kind, pc := th.pc, prio := th.prio, prt := th.prt, ctx := x
                         asid := th.asid, root := th.root, lslot := th.lslot, held := th.held
                         row := th.row, lw := th.lw, target := some t, moved := some th }
    let core := s.core t
    (s.setThread k {}).setCore t { core with queue := pk :: core.queue }

/-- The bytes and full bits of a core's ranges are copied into the target's pool; register carve-outs
go as the registers of their slots. -/
def State.copyPool (s : State) (q c t off : Nat) : State :=
  let rs := s.usedPool q c
  let f (a : Nat) : Option Nat :=
    if poolBase c ≤ a ∧ a < poolBase c + 0x3C000 ∧
        rs.any (fun r => decide (r.1 ≤ a - poolBase c) && decide (a - poolBase c < r.2)) then
      some (poolBase t + (a - poolBase c) + off)
    else none
  let src := ((s.carveOut c 0).carveOut c 1).mem
  { s.moveWaits f with
    mem := src.foldl (fun m e => match f e.1 with | some a => Memory.set m a e.2 | none => m) s.mem
    full := s.full.foldl (fun (m : Tbl FullBit) e =>
      match f (8 * e.1) with | some a => m.put .unset (a / 8) e.2 | none => m) s.full }

/-- The core's names lead to the target: relocation, earlier entries that led here, endpoints (R83,
R135). -/
def State.renameCore (s : State) (q c t off : Nat) : State :=
  let spans := ([0, 1].filter (fun x => (s.pw c x).valid)).map (fun x =>
    (1024 * (s.pw c x).base, (s.pw c x).scr, (s.pw c x).stop))
  let p := s.prt q
  let p := { p with
    reloc := p.reloc.map (fun (e : Nat × Reloc) =>
      if e.2.core ∧ e.2.live ∧ e.2.new = coreSite s.pkg c then
        (e.1, { e.2 with new := coreSite s.pkg t, poolOff := e.2.poolOff + off }) else e) }
  let p := (p.eps.filter (fun e => e.2 == (coreSite s.pkg c).toNat + 1)).foldl (fun (p : Prt) e =>
    { p.addStub ⟨BitVec.ofNat 32 e.1, c, coreSite s.pkg t⟩ with
      eps := p.eps.put 0 e.1 ((coreSite s.pkg t).toNat + 1) }) p
  (s.setPrt q p).addReloc q
    { core := true, width := 1, old := coreSite s.pkg c, new := coreSite s.pkg t, poolOff := off, spans := spans }

/-- What waits at the core goes to the target: task packets, matrix commands not started, recorded
I-cache locks, of which those of the running context are made again (R95, R96, R204). -/
def State.moveQueues (s : State) (q c t off : Nat) : State :=
  let retarget (pk : Packet) : Packet := { pk with target := pk.target.map (fun k => if k = c then t else k) }
  let mine := (s.core c).queue
  let s := s.setCore t { s.core t with queue := (s.core t).queue ++ mine }
  let s := s.setCore c { s.core c with queue := [] }
  let s := { s with
    cores := s.cores.map (fun (e : Nat × Core) => (e.1, { e.2 with queue := e.2.queue.map retarget })) }
  let s := s.setPrt q { s.prt q with
    pending := (s.prt q).pending.map retarget
    launchRun := (s.prt q).launchRun.map (fun (e : Nat × LaunchRun) =>
      (e.1, { e.2 with left := e.2.left.map retarget })) }
  let cl := s.clu (c / 8)
  let cmds := (cl.queues.look [] (c % 8)).map (fun (m : MxCmd) =>
    { m with lw := some ((m.lw.getD (s.win c m.ctx)).shift c t off) })
  let cl' := ({ cl with queues := cl.queues.put [] (c % 8) [] }.dropLocks q 0).dropLocks q 1
  let s := s.setClu (c / 8) { cl' with icSaved := [] }
  let dl := s.clu (t / 8)
  let s := s.setClu (t / 8)
    { dl with queues := dl.queues.put [] (t % 8) (dl.queues.look [] (t % 8) ++ cmds)
              icSaved := dl.icSaved ++ cl'.icSaved }
  (s.relock (t / 8) q (s.prt q).ctxActive).pokes [.taskDispatch t, .kStepGrant (t / 8), .drainRowStart (t / 8)]

/-- CORE_MOVE (R95, R96): a departing core's pool, threads and queues go to the target core once it
is quiet and its pool fits there. -/
def execCoreMove (c : Nat) (s : State) : Host.Outcome State Fault Refusal :=
  .next (
    match s.inStep 4 with
    | none => s
    | some z =>
      if !z.cores.contains c ∨ !s.coreQuiet c then s
      else
        match s.targetCore z with
        | none => s
        | some t =>
          match s.poolFit z.prt c t with
          | none => s
          | some k =>
            let q := z.prt
            let off := 1024 * k
            let ths := s.coreThreads c
            let s := (s.performPrt q).copyPool q c t off
            let s := s.moveQueues q c t off
            let s := { s with acmds := s.acmds.map (fun (a : ACmd) => if ths.contains a.tid then
              { a with lw := some ((a.lw.getD (s.win c a.ctx)).shift c t off) } else a) }
            let s := ths.foldl (fun s u => s.moveThread c t off u) s
            let s := s.renameCore q c t off
            let z : Resize := { z with cores := z.cores.filter (fun d => d != c), ncore := z.ncore + 1
                                       nthread := z.nthread + ths.length, nreloc := z.nreloc + 1 }
            ({ s with resize := some z }).poke .resizeMigrate)

/-! ## MIGRATE: HBM4 (R97) -/

/-- Pages the sweep moves. -/
def Prt.sweepPages (p : Prt) : Nat := Nat.max (16 * fld p.hwm 23 0) 1

/-- The sweep has nothing left to move. -/
def State.sweepDone (s : State) (z : Resize) : Bool :=
  let p := s.prt z.prt
  z.cmd == 3 || z.groups == p.groups ||
    (if z.grow then decide (Nat.min p.sweepPages (hbmBytes p.groups / 4096) ≤ z.w) else z.w == 0)

/-- A page goes from its place in one layout to its place in the other. -/
def State.sweepPage (s : State) (z : Resize) (page : Nat) : Resize × State :=
  let a := hbmHome (s.prt z.prt).groups (4096 * page)
  let b := hbmHome z.groups (4096 * page)
  if a = b then (z, s)
  else ({ z with nbytes := z.nbytes + 4096 }, (s.performPrt z.prt).moveBytes a b 4096)

/-- HBM_SWEEP_PAGE (R97): the next page of the sweep, and the watermark. -/
def execHbmSweepPage (s : State) : Host.Outcome State Fault Refusal :=
  .next (
    match s.inStep 4 with
    | none => s
    | some z =>
      if s.sweepDone z then s
      else
        let bound := (s.prt z.prt).sweepPages
        let (z, s) :=
          if z.grow then
            let (z, s) := s.sweepPage z z.w
            ({ z with w := z.w + 1 }, s)
          else if bound < z.w then ({ z with w := bound }, s)
          else
            let (z, s) := s.sweepPage z (z.w - 1)
            ({ z with w := z.w - 1 }, s)
        ({ s with resize := some z }).pokes [.hbmSweepPage, .resizeMigrate])

/-- RESIZE_MIGRATE (R89): every unit has moved and the sweep is complete; every page has its new
place. Where only regions move, R92 bounds the step. -/
def execResizeMigrate (s : State) : Host.Outcome State Fault Refusal :=
  .next (
    match s.inStep 4 with
    | none => s
    | some z =>
      if !z.regions.isEmpty ∨ (!z.cores.isEmpty ∧ z.cmd ≠ 3) ∨ !s.sweepDone z then s
      else
        let work := 0 < z.nblk ∨ 0 < z.ncore ∨ z.groups ≠ (s.prt z.prt).groups
        let only := z.ncore = 0 ∧ z.groups = (s.prt z.prt).groups
        let (z, s) := s.stepDone z work (if only then 18432 * z.nblk else 0xFFFFFFFF)
        let z : Resize := if z.grow then { z with w := hbmBytes z.groups / 4096 } else z
        s.enterStep z 5)

/-! ## REHASH (R98 to R100) -/

/-- The cluster set changes. -/
def State.rehashes (s : State) (z : Resize) : Bool := s.clustersOf z.prt != bitList z.clu

/-- REHASH_SWEEP_LINE (R98 to R100): a line, by the number of its 512-byte block, goes from an old slice to
its new one on each die, unless it is pinned; no value changes. -/
def execRehashSweepLine (line : Nat) (s : State) : Host.Outcome State Fault Refusal :=
  .next (
    match s.inStep 5 with
    | none => s
    | some z =>
      if s.l2.any (fun y => y.prt == z.prt && y.blk == line) then
        ((s.findBlock 0 line).findBlock 1 line).poke .resizeRehash
      else s)

/-- Tags a resource list SCRUBBING under its old owner, FREE, or OWNED. -/
def retag (t : Tbl Owner) (l : List Nat) (o : Owner) : Tbl Owner := l.foldl (fun (t : Tbl Owner) n => t.put {} n o) t

/-- RESIZE_REHASH (R89, R99): no old slice holds a line of the partition; departing resources are SCRUBBING
from here on (R101). -/
def execResizeRehash (s : State) : Host.Outcome State Fault Refusal :=
  .next (
    match s.inStep 5 with
    | none => s
    | some z =>
      if s.strayBlocks z ≠ [] then s
      else
      let (z, s) := s.stepDone z (s.rehashes z) 0xFFFFFFFF
      let o : Owner := ⟨.scrubbing, z.prt⟩
      let (bs, ms, gs) := (s.goneBlocks z, s.goneClusters z, s.goneGroups z)
      ({ s with blkOwn := retag s.blkOwn bs o, cluOwn := retag s.cluOwn ms o
                hbmOwn := retag s.hbmOwn gs o }).enterStep z 6)

/-! ## SCRUB (R101) -/

/-- Instructions that wait at a word of the range issue again. -/
def State.unwait (s : State) (lo hi : Nat) : State :=
  (s.waiters.filter (fun w => decide (lo ≤ w.addr) && decide (w.addr < hi))).foldl (fun s w =>
    let s := s.withdraw w.tid
    s.setThread w.tid { s.thread w.tid with st := .ready, atHome := false }) s

def State.scrubBlock (s : State) (b : Nat) : State :=
  (List.range 16).foldl (fun s t =>
    let a := tileAddr (tileSite b t)
    (s.unwait a (a + 0x10000)).zeroRange a (a + 0x10000)) s

def State.scrubCluster (s : State) (m : Nat) : State :=
  let s := (s.unwait (poolBase (8 * m)) (poolBase (8 * m + 8))).zeroRange (poolBase (8 * m)) (poolBase (8 * m + 8))
  { s with
    copies := s.copies.filter (fun c => c.level != m)
    l2 := s.l2.filter (fun y => y.slice != m)
    cores := s.cores.map (fun (e : Nat × Core) => if e.1 / 8 = m then (e.1, { cycle := e.2.cycle }) else e)
    clusters := s.clusters.filter (fun e => e.1 != m)
    threads := s.threads.filter (fun e => !(decide (e.1 < 2 * outKey) && slotOf e.1 / 128 == m)) }

def State.scrubMem (s : State) (lo hi : Nat) : State := (s.flushRange lo hi).zeroRange lo hi

/-- Resources of a kind that are SCRUBBING under a partition. -/
def scrubbing (t : Tbl Owner) (q : Nat) : List Nat :=
  (t.filter (fun e => decide (e.2.st = .scrubbing) && e.2.prt == q)).map (·.1)

/-- RESIZE_SCRUB (R101): departing resources are cleared and FREE. Of blocks alone it takes at most 1,024
cycles each. -/
def execResizeScrub (s : State) : Host.Outcome State Fault Refusal :=
  .next (
    match s.inStep 6 with
    | none => s
    | some z =>
      let (bs, ms, gs) := (scrubbing s.blkOwn z.prt, scrubbing s.cluOwn z.prt, scrubbing s.hbmOwn z.prt)
      let us := (s.prt z.prt).ddrUnits.drop z.ddr
      let s := bs.foldl State.scrubBlock s
      let s := ms.foldl State.scrubCluster s
      let s := gs.foldl (fun s g => s.scrubMem (hbmWin + hbmGroup * g) (hbmWin + hbmGroup * (g + 1))) s
      let s := us.foldl (fun s u => s.scrubMem (ddrWin + 0x40000000 * u) (ddrWin + 0x40000000 * (u + 1))) s
      let work := !bs.isEmpty || !ms.isEmpty || !gs.isEmpty || !us.isEmpty
      let only := ms.isEmpty && gs.isEmpty && us.isEmpty
      let (z, s) := s.stepDone z work (if only then 1024 * bs.length else 0xFFFFFFFF)
      ({ s with blkOwn := retag s.blkOwn bs {}, cluOwn := retag s.cluOwn ms {}
                hbmOwn := retag s.hbmOwn gs {} }).enterStep z 7)

/-! ## COMMIT (R102) -/

/-- The registers that a partition's creation does not reset: PRT_ page, links, TVEC, CTXSPILL. -/
def Prt.kept (p : Prt) : Prt :=
  { rszSeq := p.rszSeq, rszBusy := p.rszBusy, rszStep := p.rszStep, rszOrigin := p.rszOrigin
    rszStatus := p.rszStatus, quota := p.quota, weight := p.weight, hwm := p.hwm, recaddr := p.recaddr
    grdEp := p.grdEp, propBlk := p.propBlk, propClu := p.propClu, propHbm := p.propHbm, propDdr := p.propDdr
    propReloc := p.propReloc, grdCnt := p.grdCnt, grdRec0 := p.grdRec0, grdRec1 := p.grdRec1
    linkMask := p.linkMask, domValid := p.domValid, domain := p.domain, rt := p.rt, tvec0 := p.tvec0
    tvec1 := p.tvec1, ctxSpill := p.ctxSpill }

/-- The partition after a CREATE: counters FREE, its other registers reset (R115, R139, R263, R267,
R274, R419). -/
def Prt.created (p : Prt) : Prt := { p.kept with exist := true, mtpw0 := 0x40 }

/-- The partition after a DESTROY (R46, R83, R115): nothing of it runs and its counters are FREE. Its registers
keep their contents: the maps name fundamental reset and creation alone (log 55). -/
def Prt.destroyed (p : Prt) : Prt :=
  { p with
    exist := false, domValid := false, reloc := [], cnt := {}, jobRun := [], phaseRun := [], graphRun := []
    launchRun := [], pending := [], stubs := [], eps := [], gangs := [], saved := [], spills := [], shoots := []
    mig := p.mig.map (fun (e : Nat × Mig) => (e.1, { e.2 with run := false, inv := none }))
    ctxState := 0, ctxWait := 0 }

/-- The word a newly owned cluster's cores get (R196, log 28). -/
def poolpwOwned : W64 := 0x0000090101000000

/-- RESIZE_COMMIT (R51, R85, R102): the new owner tags, group list and quota; CREATE and DESTROY begin
and end the partition. -/
def execResizeCommit (s : State) : Host.Outcome State Fault Refusal :=
  .next (
    match s.inStep 7 with
    | none => s
    | some z =>
      let q := z.prt
      let (z, s) := s.stepTime z true 512
      let s := s.setPrt q { s.prt q with rszSeq := (s.prt q).rszSeq + 1 }
      let s := if z.cmd = 3 then s.rszRecord z 0 7 else s
      let p := s.prt q
      let units := p.ddrUnits.take z.ddr
      let more := z.ddr - units.length
      let units := if more = 0 then units else units ++ s.ddrFree.take more
      let o : Owner := ⟨.owned, q⟩
      let fresh := (bitList z.clu).filter (fun m => !s.ownsCluster q m)
      let s := { s with
        blkOwn := retag s.blkOwn (bitList z.blk) o
        cluOwn := retag s.cluOwn (bitList z.clu) o
        hbmOwn := retag s.hbmOwn z.groups o }
      let s := (fresh.flatMap (fun m => (List.range 8).map (8 * m + ·))).foldl (fun s c =>
        s.setCore c { s.core c with poolpw0 := poolpwOwned, poolpw1 := 0 }) s
      let p := match z.cmd with | 1 => p.created | 3 => p.destroyed | _ => p
      let s := s.setPrt q { p with groups := z.groups, ddrUnits := units, drained := [] }
      let s := s.endResize z 0 7
      if z.cmd = 3 then s.clearBinds (fun v => v.prt == q) else (s.pokeSites q).wakePrt q)

/-! ## The PRT_ page's own writes (R113) -/

/-- PRT_GRD_CLR (R106, R113). -/
def execPrtGrdClr (q : Nat) (s : State) : Host.Outcome State Fault Refusal :=
  let p := s.prt q
  .next (s.setPrt q { p with grdCnt := 0, grdRec0 := p.grdRec0 &&& 0x7FFFFFFFFFFFFFFF })

/-- PRT_QUOTA_WRITE (R113): ignored whole with a field above its range. -/
def execPrtQuotaWrite (q : Nat) (v : W64) (s : State) : Host.Outcome State Fault Refusal :=
  .next (
    if 2048 < fld v 43 32 ∨ 96 < fld v 31 25 ∨ 256 < fld v 24 16 ∨ 272 < fld v 8 0 then s
    else s.setPrt q { s.prt q with quota := v &&& 0x00000FFFFFFF01FF })

end Sys2Proof.Machine
end

