-- ==== Sys2Proof/Machine/Registers.lean ====
section
/-!
DEFINITION. The memory-mapped registers: what a read returns (03 R49 to R77, 02 R46, 04 R111 to R113,
05 R139, 06 R187 and R189, 07 R214, 09 R274, 01 R20) and what a write does (REGISTER_WRITE, R5, R48).
A read changes nothing (R76), so it is a function of the state and not a step; the one read with an
effect is the row CNTVAL_READ. Registers are named by the byte offset of their first byte.
-/

namespace Sys2Proof.Machine

open Sys2Proof

/-- The index of the register at `off` in a family of `n` at `base` with a stride. -/
def famAt (off base stride n : Nat) : Option Nat :=
  if base ≤ off ∧ off < base + stride * n ∧ (off - base) % stride = 0 then some ((off - base) / stride) else none

/-- The register of a family read by `f`, or what follows in the map. -/
def famRead (off base stride n : Nat) (f : Nat → Nat) (rest : Unit → Nat) : Nat :=
  match famAt off base stride n with
  | some i => f i
  | none => rest ()

/-- Word `w` of a bitmap. -/
def mapWord {n : Nat} (x : BitVec n) (w : Nat) : Nat := x.toNat / 2 ^ (32 * w) % 2 ^ 32

/-- A bitmap with word `w` replaced; bits past its end are RZ. -/
def setMapWord {n : Nat} (x : BitVec n) (w : Nat) (v : W64) : BitVec n :=
  BitVec.ofNat n (x.toNat - mapWord x w * 2 ^ (32 * w) + fld v 31 0 * 2 ^ (32 * w))

/-! ## Words of units -/

/-- HIF_VF_BIND, HIF_FW, PWR_ISL_CTL, PWR_ISL_STAT, LNK_LINK_STAT, LNK_LINK_ERR. -/
def Vf.bindWord (v : Vf) : Nat := b2n v.enable * 2 ^ 31 + b2n v.port * 2 ^ 8 + v.prt
def Hif.fwWord (h : Hif) : Nat := h.fwStatus * 2 ^ 28 + (h.svn.getD Config.svnAtReset).toNat * 2 ^ 8
def Island.ctl (x : Island) : Nat := x.state * 2 ^ 8 + x.freq
def Island.stat (x : Island) (n : Nat) : Nat :=
  (x.temp.getD (Config.tempAtReset n)).toNat * 2 ^ 24 + b2n x.throt * 2 ^ 15 + x.err * 2 ^ 12 + x.stNow * 2 ^ 10 +
    b2n x.busy * 2 ^ 9 + x.freqNow
def LinkSt.code : LinkSt → Nat | .down => 0 | .training => 1 | .up8 => 2 | .up4 => 3 | .dupid => 4
def Link.stat (l : Link) : Nat := l.st.code * 2 ^ 29 + l.peer
def Link.errs (l : Link) : Nat := l.replays * 2 ^ 16 + l.drops

/-- PRT_BLK_OWN and its fellows (R111). -/
def Owner.word (o : Owner) (pend : Bool) : Nat :=
  (match o.st with | .free => 0 | .owned => 1 | .scrubbing => 2) * 2 ^ 8 + b2n pend * 2 ^ 7 + o.prt

/-- Commands running or queued. -/
def State.resizes (s : State) : List Resize := s.resize.toList ++ s.resizeQ

def State.blkWord (s : State) (n : Nat) : Nat := (s.blkOwn.look {} n).word (s.resizes.any (fun z => bitAt z.blk n))
def State.cluWord (s : State) (n : Nat) : Nat := (s.cluOwn.look {} n).word (s.resizes.any (fun z => bitAt z.clu n))
def State.hbmWord (s : State) (n : Nat) : Nat := (s.hbmOwn.look {} n).word (s.resizes.any (fun z => bitAt z.hbm n))

/-- PRT_SEQ (R111). -/
def State.prtSeq (s : State) : Nat :=
  (match s.resize with
   | some z => 2 ^ 31 + z.step * 2 ^ 28 + z.prt * 2 ^ 22
   | none => 0) + s.resizeQ.length

/-- PRT_RSZ_STAT and PRT_SHAPE (R113). -/
def Prt.rszStat (p : Prt) : Nat :=
  p.rszSeq.toNat * 2 ^ 16 + b2n p.rszBusy * 2 ^ 15 + p.rszStep * 2 ^ 12 + p.rszOrigin * 2 ^ 10 + p.rszStatus
/-- Blocks and clusters of a partition as PRT_SHAPE and PRT_CUR_ show them: until COMMIT, the old shape
(R89). -/
def State.blkShape (s : State) (q : Nat) : BitVec 272 :=
  match s.resize with
  | some z => if z.prt = q ∧ 6 ≤ z.step then (if z.cmd = 1 then 0 else z.oldBlk) else bitmap 272 (s.blocksOf q)
  | none => bitmap 272 (s.blocksOf q)
def State.cluShape (s : State) (q : Nat) : BitVec 256 :=
  match s.resize with
  | some z => if z.prt = q ∧ 6 ≤ z.step then (if z.cmd = 1 then 0 else z.oldClu) else bitmap 256 (s.clustersOf q)
  | none => bitmap 256 (s.clustersOf q)
def State.shape (s : State) (q : Nat) : Nat :=
  let p := s.prt q
  p.ddrUnits.length * 2 ^ 32 + p.groups.length * 2 ^ 25 + (bitList (s.cluShape q)).length * 2 ^ 16 +
    (bitList (s.blkShape q)).length

/-- The two words of a relocation entry (R113). -/
def Reloc.word0 (e : Reloc) : Nat :=
  if e.valid then
    2 ^ 63 + b2n e.core * 2 ^ 62 + b2n e.live * 2 ^ 61 + e.launch * 2 ^ 49 + e.width * 2 ^ 39 + e.height1 * 2 ^ 32 +
      e.old.toNat
  else 0
def Reloc.word1 (e : Reloc) : Nat := if e.valid then e.poolOff % 2 ^ 18 * 2 ^ 32 + e.new.toNat else 0

/-- SCH_STAT (R139). -/
def State.schStat (s : State) (q : Nat) : Nat :=
  let p := s.prt q
  let wait := p.graphRun.any (fun g => (p.cntr 2 g.1).running && decide (g.2.next < g.2.nlaunch)) &&
    !(p.cntr 1 p.nextSlot).reusable
  let ready := (p.launchRun.filter (fun e => decide (e.2.st = .ready))).length
  let live := (p.cnt.launches.filter (fun e => e.2.running)).length
  Nat.min 64 p.stubs.length * 2 ^ 56 + Nat.min 256 p.pending.length * 2 ^ 47 + Nat.min 4095 ready * 2 ^ 27 +
    live * 2 ^ 13 + b2n wait * 2 ^ 12 + p.nextSlot

/-- FAB_RGN_STAT (R187). -/
def Region.stat (r : Region) : Nat :=
  r.index * 2 ^ 40 + r.loadst * 2 ^ 36 + r.fcode * 2 ^ 28 + r.esclost * 2 ^ 20 + r.stalls * 2 ^ 12 +
    b2n r.stall * 2 ^ 6 + b2n r.quiescent * 2 ^ 5 + b2n r.faulted * 2 ^ 4 + b2n r.rolling * 2 ^ 3 +
    b2n r.armed * 2 ^ 2 + b2n r.loaded * 2

/-- Commands of queue `k` of a tile that are there: those of a context out of the active slot are saved with
it (R266). -/
def State.mxQueue (s : State) (m k : Nat) : List MxCmd :=
  ((s.clu m).queues.look [] k).filter (fun c => (s.prt c.prt).ctxActive == c.ctx)

/-- The command of a fabric-mode tile has started and has not emitted D. -/
def MxFab.runs (f : MxFab) : Bool :=
  !f.dSent && (f.granted || f.kdone != 0 || f.tile != 0 || f.emit.isSome)

/-- The core whose matrix command or drain runs on a tile: that of the granted K step, of a command or drain at a
queue's head that has started, the queue served last first, or of the fabric-mode command (R214). -/
def State.mxRun (s : State) (m : Nat) : Option Nat :=
  let cl := s.clu m
  let started (k : Nat) : Bool := match (s.mxQueue m k).head? with
    | some c => c.drain || c.granted || c.kdone != 0
    | none => false
  match s.mxGranted m with
  | some (k, _) => some k
  | none =>
    match (cl.lastQ :: List.range 8).find? started with
    | some k => some k
    | none => (s.regions.findSome? (fun e =>
        if e.2.onFab && e.2.armed && s.active (e.1 / 4096) e.2.ctx then
          e.2.mxs.find? (fun f => f.cluster == m && f.runs) else none)).map (·.core)

/-- SWM_MXSTAT (R214): QDEPTH counts the commands of the active context; PINNED the lines the fetch unit holds
pinned. -/
def State.mxStat (s : State) (m : Nat) : Nat :=
  let depth := (List.range 8).foldl (fun n c =>
    n + Nat.min 8 (s.mxQueue m c).length * 2 ^ (4 * c)) 0
  depth * 2 ^ 16 + Nat.min 0xFFF (s.clu m).pins.length * 2 ^ 4 + (s.mxRun m).getD 0 * 2

/-- SWM_ICSTAT. -/
def Cluster.icStat (c : Cluster) : Nat := c.icLost * 2 ^ 32 + c.lockedLines.length

def SlotSt.code : SlotSt → Nat
  | .empty => 0 | .ready => 1 | .memory => 2 | .walk => 3 | .blocked => 4 | .retry => 5 | .pendreg => 6

/-- SLOTST of a thread: HALTED in a halted package (R192). -/
def State.slotSt (s : State) (t : Nat) : Nat :=
  let th := s.thread t
  if th.st = .empty then 0
  else if s.dbg.toc = .halted ∨ (s.dbg.toc = .stepping ∧ !bitAt s.dbg.stepMask th.prt) then 7
  else th.st.code

/-- The tile is in fabric mode: an armed region's configuration gives it a command (R212). -/
def State.fabricMode (s : State) (m : Nat) : Bool :=
  s.regions.any (fun e => e.2.armed && e.2.mxs.any (fun f => f.cluster == m && !f.ws.isEmpty))

/-- SWM_CORE_STAT (R214). -/
def State.coreStat (s : State) (c : Nat) : Nat :=
  let m := c / 8
  let act := match s.cluOwner m with | some q => (s.prt q).ctxActive | none => 0
  b2n (s.fabricMode m) * 2 ^ 52 + b2n (s.mxRun m).isSome * 2 ^ 51 + act * 2 ^ 50 +
    b2n (s.core c).pwRefused * 2 ^ 48 +
    (List.range 16).foldl (fun n i => n + s.slotSt (16 * c + i) * 2 ^ (3 * i)) 0

/-- CFG_PORT_STAT (R189). -/
def CfgPort.word (p : CfgPort) : Nat :=
  b2n p.busy * 2 ^ 63 + p.op * 2 ^ 60 + p.prt * 2 ^ 54 + p.slot * 2 ^ 42 + Nat.min 0xFFFFFFFF p.bytes

/-! ## Thread state behind DBG_TSEL (R77) -/

/-- The thread state word. -/
def State.threadWord (s : State) (t : Nat) : Nat :=
  let th := s.thread t
  th.ctx % 2 * 2 ^ 34 + th.prt * 2 ^ 28 + th.lslot % 4096 * 2 ^ 16 + th.uiPend.length * 2 ^ 12 + th.rlx * 2 ^ 8 +
    b2n th.intrap * 2 ^ 5 + b2n th.uiin * 2 ^ 4 + b2n th.sup * 2 ^ 3 + s.slotSt t

/-- A word of a TLB entry. -/
def TlbEntry.word (e : TlbEntry) (w : Nat) : Nat :=
  match w with
  | 0 =>
    let a := e.vpage * 2 ^ pageBits e.size % 2 ^ 56 / 4096 * 4096
    (if nbit a 55 then a + (2 ^ 64 - 2 ^ 56) else a) + e.size * 16 + 1
  | 1 => e.ppage * 2 ^ pageBits e.size % 2 ^ 52 / 4096 * 4096 + e.attr.toNat
  | 2 => e.asid.toNat * 2 ^ 48 + e.gen.toNat * 2 ^ 32 + e.slot % 16
  | _ => 0

/-- The pc word (R77): where the thread issues next; a thread in MEMORY, or in WALK for a data access, has
issued the instruction at its pc. -/
def State.pcWord (s : State) (key : Nat) : Nat :=
  let th := s.thread key
  let data := (s.clu (key % 32768 / 128)).walks.any (fun (w : Walk) => w.who.any (fun e => e.1 == key && !e.2.1))
  (if th.st = .memory ∨ (th.st = .walk ∧ data) then th.pc + 4 else th.pc).toNat

/-- The selected value; none while OK is 0. R77 numbers the entries of a TLB and says of no entry which number it
has: they are numbered here from the most recently used on, so that a use renumbers them (DESIGN CHOICE,
log 64). -/
def State.tdata (s : State) (sel : W64) : Option Nat :=
  let w := BitVec.ofNat 32 (fld sel 63 32)
  let space := fld sel 27 24
  let i := fld sel 11 0
  match (if sitePkg w = s.pkg then siteName (if space = 5 then w &&& 0xFFFFFF80 else w) else .nothing) with
  | .slot t =>
    let c := t / 16
    let q := (s.cluOwner (c / 8)).getD nPrt
    let p := s.prt q
    let x := fld sel 31 31
    let key := s.slotKey c x (t % 16)
    let th := s.thread key
    if p.ctxSpilled ∧ x ≠ p.ctxActive ∧ !bitAt p.ctxHeld x then none
    else
      match space with
      | 0 => if sysAssigned i then some (s.sysReg key q x i).toNat else none
      | 1 => if i < 64 then some (th.g.look 0 i).toNat else none
      | 2 => if i < 128 then some (fld (th.v.look 0 (i / 4)) (64 * (i % 4) + 63) (64 * (i % 4))) else none
      | 3 => if i = 0 then some (th.p ||| 1).toNat else none
      | 4 => if i < 8 then some (th.h.look 0 i).toNat else none
      | 5 =>
        let l := if x = p.ctxActive then (s.core c).tlb else (s.core c).tlbOut
        if i < 64 then some (match l[i / 4]? with | some e => e.word (i % 4) | none => 0) else none
      | 6 => if i = 0 then some (s.threadWord key) else none
      | 7 => if i = 0 then some (s.pcWord key) else none
      | _ => none
  | _ => none

/-! ## The pages of a partition -/

/-- The PRT_ page (R112, R113). -/
def State.prtPage (s : State) (q off : Nat) : Nat :=
  let p := s.prt q
  match off with
  | 0x000 => b2n p.exist * 2 ^ 7
  | 0x008 => p.rszStat
  | 0x010 => p.quota.toNat
  | 0x018 => p.weight.toNat
  | 0x020 => s.shape q
  | 0x028 => p.hwm.toNat
  | 0x030 => p.recaddr.toNat
  | 0x038 => p.grdEp.toNat
  | 0x0B0 => p.propDdr
  | 0x200 => p.grdCnt
  | 0x208 => p.grdRec0.toNat
  | 0x210 => p.grdRec1.toNat
  | _ =>
    famRead off 0x040 4 9 (mapWord p.propBlk) fun _ =>
    famRead off 0x080 4 8 (mapWord p.propClu) fun _ =>
    famRead off 0x0A0 4 3 (mapWord p.propHbm) fun _ =>
    famRead off 0x0C0 8 8 (fun i => (p.propReloc.look 0 i).toNat) fun _ =>
    famRead off 0x100 4 9 (mapWord (s.blkShape q)) fun _ =>
    famRead off 0x140 4 8 (mapWord (s.cluShape q)) fun _ =>
    famRead off 0x160 4 3 (mapWord (bitmap 96 p.groups)) fun _ =>
    famRead off 0x300 4 24 (fun w => leNat ((List.range 4).map (fun i =>
      match p.groups[4 * w + i]? with | some g => BitVec.ofNat 8 g | none => 0xFF))) fun _ =>
    famRead off 0x400 16 64 (fun e => (p.reloc.look {} e).word0) fun _ =>
    famRead off 0x408 16 64 (fun e => (p.reloc.look {} e).word1) fun _ => 0

/-- The SCH_ page as function `fn` reads it: a virtual function, or 256 for PF0 (R139). -/
def State.schPage (s : State) (q fn off : Nat) : Nat :=
  let p := s.prt q
  match off with
  | 0x000 => (p.cntsel.look 0 fn).toNat
  | 0x008 => match selected (p.cntsel.look 0 fn) with | some (lvl, i) => (p.cntr lvl i).word.toNat | none => 0
  | 0x018 => p.schWeight.toNat
  | 0x020 => p.epdir.toNat
  | 0x030 => s.schStat q
  | _ => 0

/-- The LNK_ page (R46). -/
def State.lnkPage (s : State) (q off : Nat) : Nat :=
  famRead off 0 4 1024 (fun k => ((s.prt q).rt.look 0 k).toNat) fun _ => 0

/-- The MMU_ page (R274). -/
def State.mmuPage (s : State) (q off : Nat) : Nat :=
  let p := s.prt q
  match off with
  | 0x000 => p.genIssued.toNat * 2 ^ 16 + p.genDone.toNat
  | 0x008 => p.invAddr.toNat
  | 0x010 => p.invCtl.toNat
  | _ => famRead off 0x100 8 16 (fun i => (p.migSlot (i / 4)).word (i % 4)) fun _ => 0

/-! ## The windows of BAR0 (R49) -/

def State.hifRead (s : State) (off : Nat) : Nat :=
  match off with
  | 0x100 => s.hif.errStat.toNat
  | 0x108 => s.hif.errAddr
  | 0x200 => s.hif.fwWord
  | 0x208 => s.hif.fwAddr.toNat
  | 0x210 => s.hif.fwLen.toNat
  | 0x300 => s.hif.aper0.toNat
  | 0x310 => s.hif.aper1.toNat
  | 0x400 => s.hif.hdmBase.toNat
  | 0x408 => s.hif.hdmLimit.toNat
  | _ =>
    famRead off 0x1000 4 256 (fun v => (s.vf v).bindWord) fun _ =>
    famRead off 0x2000 16 256 (fun v => (s.vf v).jqbase.toNat) fun _ =>
    famRead off 0x2008 16 256 (fun v => (s.vf v).jqsize.toNat) fun _ => 0

def State.prtRead (s : State) (off : Nat) : Nat :=
  if 0x40000 ≤ off then
    (if off < 0x80000 then s.prtPage ((off - 0x40000) / 0x1000) (off % 0x1000) else 0)
  else if off = 0 then s.prtSeq
  else
    famRead off 0x1000 4 272 s.blkWord fun _ =>
    famRead off 0x1800 4 256 s.cluWord fun _ =>
    famRead off 0x1C00 4 96 s.hbmWord fun _ => 0

/-- SCH_CTXCTL q and SCH_CTXSPILL q (R269), and the SCH_ pages. -/
def State.schRead (s : State) (off : Nat) : Nat :=
  if 0x40000 ≤ off then
    (if off < 0x80000 then s.schPage ((off - 0x40000) / 0x1000) pf0 (off % 0x1000) else 0)
  else
    famRead off 0x100 16 64 (fun q => (s.prt q).ctxctl) fun _ =>
    famRead off 0x108 16 64 (fun q => (s.prt q).ctxSpill.toNat) fun _ => 0

def State.cfgRead (s : State) (off : Nat) : Nat :=
  match off with
  | 0 => Nat.min 0xFFFFFFFF s.cfg.refused * 2 ^ 32 + Nat.min 0xFFFFFFFF s.cfg.loaded
  | 8 => s.cfg.misses.toNat
  | _ => famRead off 0x1000 8 512 (fun p => (s.cfg.ports.look {} p).word) fun _ => 0

def State.fabRegRead (s : State) (off : Nat) : Nat :=
  let r := s.region (fld s.cfg.sel 17 12) (fld s.cfg.sel 11 0)
  if off = 0 then s.cfg.sel.toNat
  else if !r.loaded ∧ !r.endDone then 0
  else
    match off with
    | 0x08 => r.stat
    | 0x10 => r.hush
    | 0x18 => r.flags.toNat
    | _ => famRead off 0x40 8 8 (fun w =>
        let x := r.wins.look {} w
        b2n x.decl * 2 ^ 32 + x.count.toNat) fun _ => 0

def State.swmRead (s : State) (off : Nat) : Nat :=
  let m := off / 0x4000
  match off % 0x4000 with
  | 0x000 => (s.clu m).mxweight.toNat
  | 0x008 => s.mxStat m
  | 0x010 => (s.clu m).icStat
  | o =>
    famRead o 0x100 0x40 8 (fun c => (s.core (8 * m + c)).poolpw0.toNat) fun _ =>
    famRead o 0x108 0x40 8 (fun c => (s.core (8 * m + c)).poolpw1.toNat) fun _ =>
    famRead o 0x110 0x40 8 (fun c => s.coreStat (8 * m + c)) fun _ => 0

def State.lnkRead (s : State) (off : Nat) : Nat :=
  if 0x10000 ≤ off then
    (if off < 0x50000 then s.lnkPage ((off - 0x10000) / 0x1000) (off % 0x1000) else 0)
  else if off = 0 then b2n s.lnk.lock * 2 ^ 8 + s.lnk.pkgid
  else
    famRead off 0x100 4 16 (fun n => b2n (s.link n).enable) fun _ =>
    famRead off 0x140 4 16 (fun n => (s.link n).stat) fun _ =>
    famRead off 0x180 4 16 (fun n => (s.link n).errs) fun _ =>
    famRead off 0x200 4 64 (fun q => (s.prt q).linkMask.toNat) fun _ =>
    famRead off 0x300 4 64 (fun q => b2n (s.prt q).domValid * 2 ^ 31 + (s.prt q).domain.toNat) fun _ =>
    famRead off 0x1000 4 1024 (fun k => (s.lnk.base.look 0 k).toNat) fun _ => 0

def tocCode : TocSt → Nat | .running => 0 | .halting => 1 | .halted => 2 | .stepping => 3

def State.dbgRead (s : State) (off : Nat) : Nat :=
  match off with
  | 0x000 => tocCode s.dbg.toc * 2 ^ 30 + b2n s.dbg.fatal * 2 ^ 29 + s.dbg.cause * 2 ^ 26 +
      b2n s.dbg.tocProp * 2 ^ 23 + s.dbg.steps
  | 0x008 => s.dbg.stepMask.toNat
  | 0x200 => s.dbg.tsel.toNat + b2n (s.tdata s.dbg.tsel).isSome * 2 ^ 30
  | 0x208 => (s.tdata s.dbg.tsel).getD 0
  | _ =>
    famRead off 0x100 16 8 (fun n => (s.dbg.evts.look {} n).site.toNat) fun _ =>
    famRead off 0x108 16 8 (fun n => (s.dbg.evts.look {} n).ctl.toNat) fun _ => 0

def State.pwrRead (s : State) (off : Nat) : Nat :=
  famRead off 0x100 4 40 (fun n => (s.pwr.isl.look {} n).ctl) fun _ =>
  famRead off 0x200 4 40 (fun n => (s.pwr.isl.look {} n).stat n) fun _ => 0

/-- SEC_ (R67): 8 bytes of a hash register from any offset in it. -/
def State.secRead (s : State) (off : Nat) : Nat :=
  let hash (x : BitVec 512) (o : Nat) : Nat := x.toNat / 256 ^ o % 2 ^ 64
  if off = 0 then s.hif.min.toNat
  else if 0x100 ≤ off ∧ off < 0x140 then hash Config.keyHash (off - 0x100)
  else if 0x200 ≤ off ∧ off < 0x240 then hash ((s.hif.staged.map (·.1)).getD 0) (off - 0x200)
  else 0

/-! ## Snapshot records (R69, R70) -/

/-- The package as the last taken trigger left it in the records. -/
def State.snapped (s : State) : State :=
  let n := s.snap
  { s with
    hif := n.hif, pwr := { n.pwr with trip := s.pwr.trip }, lnk := n.lnk, prts := n.prts, blkOwn := n.blkOwn
    cluOwn := n.cluOwn, hbmOwn := n.hbmOwn, resize := n.resize, resizeQ := n.resizeQ, cores := n.cores
    clusters := n.clusters, threads := n.threads, regions := n.regions
    dbg := { s.dbg with toc := n.toc, stepMask := n.stepMask } }

/-- Body word `i` of the record of a KIND and INSTANCE, of the package `t`. -/
def State.recWord (t : State) (kind k i : Nat) : Nat :=
  match kind with
  | 1 =>
    if i = 0 then t.hif.errStat.toNat
    else if i = 1 then t.hif.errAddr
    else if i = 2 then t.hif.fwWord
    else
      let v := t.vf ((i - 3) / 2)
      if (i - 3) % 2 = 0 then v.bindWord else v.tail * 2 ^ 16 + v.head
  | 2 =>
    if i = 80 then t.pwr.trip.toNat
    else
      let x : Island := t.pwr.isl.look {} (i / 2)
      if i % 2 = 0 then x.ctl else x.stat (i / 2)
  | 3 =>
    if i = 0 then b2n t.lnk.lock * 2 ^ 8 + t.lnk.pkgid
    else
      let l := t.link ((i - 1) / 2)
      if (i - 1) % 2 = 0 then l.stat else l.errs
  | 4 =>
    if i = 0 then t.prtSeq
    else if i < 273 then t.blkWord (i - 1)
    else if i < 529 then t.cluWord (i - 273)
    else if i < 625 then t.hbmWord (i - 529)
    else t.prtPage ((i - 625) / 6) ([0x000, 0x008, 0x020, 0x200, 0x208, 0x210].getD ((i - 625) % 6) 0xFFF)
  | 5 => if i % 2 = 0 then t.mmuPage (i / 2) 0 else (t.prt (i / 2)).ctxctl
  | 6 =>
    let p := t.prt k
    if !p.exist then 0
    else if i = 0 then t.schStat k
    else if i < 17 then (p.cntr 4 (i - 1)).word.toNat
    else if i < 81 then (p.cntr 3 (i - 17)).word.toNat
    else if i < 337 then (p.cntr 2 (i - 81)).word.toNat
    else (p.cntr 1 (i - 337)).word.toNat
  | 7 =>
    if i = 0 then t.blkWord k
    else
      match t.regions.find? (fun (e : Nat × Region) => e.2.loaded && e.2.savedAt.isNone &&
          e.2.ctx == (t.prt (e.1 / 4096)).ctxActive && e.2.blocks.contains k) with
      | none => if i = 1 then 0xFFF else 0
      | some e =>
        match i with
        | 1 => e.1 % 4096
        | 2 => (e.2.inBlock k).hush + b2n (e.2.touched.contains k)
        | 3 => e.2.stat
        | _ => e.2.flags.toNat
  | _ =>
    if i = 0 then t.mxStat k
    else if i = 1 then (t.clu k).icStat
    else if i < 10 then t.coreStat (8 * k + i - 2)
    else if i < 18 then (t.core (8 * k + i - 10)).cycle.toNat
    else
      let th := 128 * k + (i - 18) / 2
      if (i - 18) % 2 = 0 then t.pcWord th else t.threadWord th

/-- Offset of instance 0, stride, instances and body words of each KIND. -/
def recShape (kind : Nat) : Nat × Nat × Nat × Nat :=
  match kind with
  | 1 => (0x1000, 0x2000, 1, 515)
  | 2 => (0x3000, 0x800, 1, 81)
  | 3 => (0x3800, 0x800, 1, 33)
  | 4 => (0x4000, 0x4000, 1, 1009)
  | 5 => (0x8000, 0x1000, 1, 128)
  | 6 => (0x100000, 0x10000, 64, 4433)
  | 7 => (0x500000, 0x40, 272, 5)
  | _ => (0x600000, 0x1000, 256, 274)

/-- A block in an island in OFF did not latch (R70): the host interface lies with host port A, the links with
their PHYs, the manager and the power controller in the always-on islands; R19 gives the translation and
scheduler records no island (log 59). -/
def Snap.latched (n : Snap) (kind k : Nat) : Bool :=
  let on (i : Nat) : Bool := (n.pwr.isl.look {} i).stNow != 2
  n.valid && (match kind with
    | 1 => on 16
    | 3 => on 17 || on 37
    | 7 => on (blockIsland k)
    | 8 => on (clusterIsland k)
    | _ => true)

/-- LAT of a record: free within 24 cycles, and within 8 for a block of the die the trigger came from
(R69). -/
def Snap.lat (n : Snap) (kind k : Nat) : Nat :=
  let (base, stride, _, _) := recShape kind
  let die := match kind with | 7 => some (k / 136) | 8 => some (clusterDie k) | _ => none
  let near := n.die.isSome && n.die == die
  Config.snapLat n.seq.toNat (base + stride * k) % (if near then 9 else 25)

/-- A word of a record: the header, then the body. -/
def State.recRead (s : State) (kind k w : Nat) : Nat :=
  let n := s.snap
  let (_, _, _, len) := recShape kind
  let ok := n.latched kind k
  match w with
  | 0 => kind + 2 ^ 8 + k * 2 ^ 16 +
      (if n.valid then n.lat kind k * 2 ^ 32 else 0) + b2n ok * 2 ^ 40
  | 1 => 8 * len + 16 + n.seq.toNat * 2 ^ 32
  | w =>
    if len + 2 ≤ w then 0
    else if ok then s.snapped.recWord kind k (w - 2)
    else if kind = 2 ∧ w = 82 then s.pwr.trip.toNat
    else 0

def State.snpRead (s : State) (off : Nat) : Nat :=
  if off = 0 then
    b2n s.dbg.clapProp * 2 ^ 7 + b2n s.dbg.srcTocsin * 8 + b2n s.dbg.srcEvent * 4 + b2n s.dbg.srcSnap * 2 + b2n s.dbg.arm
  else if off = 8 then
    s.dbg.seq.toNat * 2 ^ 16 + s.dbg.missed * 2 ^ 8 + s.dbg.source * 2 + b2n s.dbg.latched
  else
    ([1, 2, 3, 4, 5, 6, 7, 8].findSome? (fun kind =>
      let (base, stride, n, _) := recShape kind
      if base ≤ off ∧ off < base + stride * n then
        some (s.recRead kind ((off - base) / stride) ((off - base) % stride / 8))
      else none)).getD 0

/-! ## The capability chain (R68) -/

/-- The members of a list in an order a number names. -/
def permute : Nat → Nat → List Nat → List Nat
  | 0, _, _ => []
  | n + 1, k, l => l.getD (k % l.length) 0 :: permute n (k / l.length) (l.eraseIdx (k % l.length))

/-- The IDs of the entries, in the order of the chain, which R68 leaves to the part (log 60). -/
def capIds : List Nat := permute 6 (Config.capOrder 0) [1, 2, 3, 4, 5, 6]

/-- LENGTH of an entry: 0x02 holds a 64-byte hash, 0x05 eight descriptors. -/
def capLength (id : Nat) : Nat :=
  match id with | 2 => 72 | 5 => 136 | _ => 8 + 8 * (Config.capLen id % 512)

/-- Each entry with its offset from CAP_HEAD; entries rise. -/
def capEntries : List (Nat × Nat) :=
  (capIds.foldl (fun (t : List (Nat × Nat) × Nat) id =>
    (t.1 ++ [(id, t.2)], t.2 + capLength id + 8 * (Config.capGap id % 16))) ([], 0)).1

/-- Word `i` of what an entry reports (R11, R65, R68, R70). -/
def Hif.capWord (h : Hif) (id i : Nat) : Nat :=
  match id with
  | 1 => (Config.capWord 1 [(h.svn.getD Config.svnAtReset).toNat, (h.runHash.getD 0).toNat] i).toNat
  | 2 => h.rewHash.toNat / 2 ^ (64 * i) % 2 ^ 64
  | 3 => (Config.capWord 3 ddrOnline i).toNat
  | 5 =>
    let kind := i / 2 + 1
    let (base, stride, n, len) := recShape kind
    if i % 2 = 0 then kind + 2 ^ 8 + n * 2 ^ 16 + base * 2 ^ 32
    else (if n = 1 then (Config.capWord 5 [kind] 0).toNat % 2 ^ 32 else stride) + (8 * len + 16) * 2 ^ 32
  | _ => (Config.capWord id [] i).toNat

/-- The word at an offset of the CAP_ window: a header, a word of an entry, zero between them. -/
def Hif.capRead (h : Hif) (off : Nat) : Nat :=
  match capEntries.find? (fun e => decide (e.2 ≤ off) && decide (off < e.2 + capLength e.1)) with
  | none => 0
  | some (id, at_) =>
    if off / 8 = at_ / 8 then
      let next := ((capEntries.map (·.2)).find? (fun o => decide (at_ < o))).getD 0
      capLength id * 2 ^ 32 + next * 2 ^ 16 + (Config.capVersion id).toNat * 2 ^ 8 + id
    else h.capWord id ((off - at_) / 8 - 1)

/-- PF0's vendor-specific extended capability (R68): its VSEC header, of ID 0x0001, revision 1 and length 12
(PCI Express, log 60), and the register that names BAR 0 and the offset of CAP_HEAD. -/
def pf0Vsec : W32 × W32 := (0x00C10001, BitVec.ofNat 32 (0x1900000 / 8 * 8))

/-- A read of the register at a byte offset of BAR0 of PF0 or PF1 (R48, R49). -/
def State.pfRead (s : State) (off : Nat) : W64 :=
  BitVec.ofNat 64 (
    if off < 0x0100000 then s.hifRead off
    else if off < 0x0200000 then s.prtRead (off - 0x0100000)
    else if off < 0x0300000 then s.schRead (off - 0x0200000)
    else if off < 0x0400000 then s.cfgRead (off - 0x0300000)
    else if off < 0x0800000 then s.fabRegRead (off - 0x0400000)
    else if off < 0x0C00000 then s.swmRead (off - 0x0800000)
    else if off < 0x0D00000 then
      (if off < 0x0C40000 then s.mmuPage ((off - 0x0C00000) / 0x1000) (off % 0x1000) else 0)
    else if off < 0x0E00000 then s.lnkRead (off - 0x0D00000)
    else if off < 0x1600000 then s.snpRead (off - 0x0E00000)
    else if off < 0x1700000 then s.dbgRead (off - 0x1600000)
    else if off < 0x1800000 then s.pwrRead (off - 0x1700000)
    else if off < 0x1900000 then s.secRead (off - 0x1800000)
    else if off < 0x1A00000 then s.hif.capRead (off - 0x1900000)
    else 0)

/-- A read of BAR0 of virtual function `v` on a port (R50, R52, R54). SCH_CNTVAL is CNTVAL_READ's. -/
def State.vfRead (s : State) (v port off : Nat) : W64 :=
  let f := s.vf v
  BitVec.ofNat 64 (
    if f.enable ∧ b2n f.port ≠ port then 0
    else
      match off with
      | 0x00 => f.tail
      | 0x08 => f.head
      | 0x10 => f.jqbase.toNat
      | 0x18 => f.jqsize.toNat
      | 0x20 => f.baddb * 2 ^ 16 + f.badrec * 2 ^ 8 + f.prt * 4 + b2n f.enable * 2
      | _ =>
        if !f.enable then 0
        else if off / 0x1000 = 1 then s.lnkPage f.prt (off % 0x1000)
        else if off / 0x1000 = 2 then s.prtPage f.prt (off % 0x1000)
        else if off / 0x1000 = 3 then s.schPage f.prt v (off % 0x1000)
        else 0)

/-! ## Writes -/

/-- The write to register `i` of a family, or what follows in the map. -/
def famWrite (off base stride n : Nat) (f : Nat → State) (rest : Unit → State) : State :=
  match famAt off base stride n with
  | some i => f i
  | none => rest ()

/-- A write to a PRT_ page by the supervisor, or by PF0 with more rights (R112, R113). -/
def State.prtPageWrite (s : State) (q : Nat) (sup : Bool) (off : Nat) (v : W64) : State :=
  let p := s.prt q
  match off with
  | 0x000 =>
    match fld v 2 0 with
    | 1 => nextOr (execPrtCreate q sup s) s
    | 2 => nextOr (execPrtResize q sup s) s
    | 3 => nextOr (execPrtDestroy q sup s) s
    | _ => s
  | 0x010 => if sup then s else nextOr (execPrtQuotaWrite q v s) s
  | 0x018 => if sup then s else s.setPrt q { p with weight := v.setWidth 32 }
  | 0x028 => s.setPrt q { p with hwm := v &&& 0x00000FFF00FFFFFF }
  | 0x030 => s.setPrt q { p with recaddr := v &&& 0x000FFFFFFFFFFFC1 }
  | 0x038 => s.setPrt q { p with grdEp := v &&& 0x80000000FFFFFFFF }
  | 0x0B0 => s.setPrt q { p with propDdr := fld v 11 0 }
  | 0x218 => if bitAt v 0 then nextOr (execPrtGrdClr q s) s else s
  | _ =>
    famWrite off 0x040 4 9 (fun w => s.setPrt q { p with propBlk := setMapWord p.propBlk w v }) fun _ =>
    famWrite off 0x080 4 8 (fun w => s.setPrt q { p with propClu := setMapWord p.propClu w v }) fun _ =>
    famWrite off 0x0A0 4 3 (fun w => s.setPrt q { p with propHbm := setMapWord p.propHbm w v }) fun _ =>
    famWrite off 0x0C0 8 8 (fun i =>
      s.setPrt q { p with propReloc := p.propReloc.put 0 i (v &&& 0x80000FFFFFFFFFFF) }) fun _ => s

/-- A write to a SCH_ page by function `fn` (R139). -/
def State.schPageWrite (s : State) (q fn off : Nat) (v : W64) : State :=
  let p := s.prt q
  match off with
  | 0x000 => s.setPrt q { p with cntsel := p.cntsel.put 0 fn (v.setWidth 32 &&& 0x7FFF) }
  | 0x010 => nextOr (execSchCancelWrite q v s) s
  | 0x018 => if fn = pf0 then s.setPrt q { p with schWeight := v.setWidth 8 } else s
  | 0x020 => nextOr (execEpdirWrite q v s) s
  | 0x028 => nextOr (execEpsync q (v.setWidth 32) s) s
  | _ => s

/-- A write to a LNK_ page. -/
def State.lnkPageWrite (s : State) (q off : Nat) (v : W64) : State :=
  famWrite off 0 4 1024 (fun k => nextOr (execLnkPrtRtWrite q (k / 256) (k % 256) (v.setWidth 32) s) s) fun _ => s

/-- A write to a MMU_ page (R274). -/
def State.mmuPageWrite (s : State) (q off : Nat) (v : W64) : State :=
  let p := s.prt q
  match off with
  | 0x008 => s.setPrt q { p with invAddr := v &&& ~~~0xFFF }
  | 0x010 => nextOr (execMmuInvctlGo q v s) s
  | _ =>
    famWrite off 0x100 8 16 (fun i =>
      if i % 4 = 2 then nextOr (execMigStart q (i / 4) v s) s
      else s.setPrt q (p.setMig (i / 4) ((p.migSlot (i / 4)).write (i % 4) v))) fun _ => s

def State.hifWrite (s : State) (off : Nat) (v : W64) : State :=
  match off with
  | 0x100 => { s with hif := { s.hif with errStat := s.hif.errStat &&& ~~~v.setWidth 8 } }
  | 0x200 =>
    let s := if bitAt v 0 then nextOr (execFwStart s) s else s
    if bitAt v 1 then nextOr (execFwActivate s) s else s
  | 0x208 => { s with hif := { s.hif with fwAddr := v &&& ~~~0xFFF } }
  | 0x210 => { s with hif := { s.hif with fwLen := v } }
  | 0x300 => { s with hif := { s.hif with aper0 := v &&& 0x000FFFFF0000003F } }
  | 0x310 => { s with hif := { s.hif with aper1 := v &&& 0x000FFFFF0000003F } }
  | 0x400 => { s with hif := { s.hif with hdmBase := v &&& 0x000FFFFFC0000000 } }
  | 0x408 => { s with hif := { s.hif with hdmLimit := v &&& 0x000FFFFFC0000000 } }
  | _ =>
    famWrite off 0x1000 4 256 (fun n => nextOr (execVfBindWrite n (v.setWidth 32) s) s) fun _ =>
    famWrite off 0x2000 16 256 (fun n =>
      if (s.vf n).enable then s else s.setVf n { s.vf n with jqbase := v &&& 0x000FFFFFFFFFF000 }) fun _ =>
    famWrite off 0x2008 16 256 (fun n =>
      if (s.vf n).enable then s else s.setVf n { s.vf n with jqsize := v &&& 0x1FFFF }) fun _ => s

def State.swmWrite (s : State) (off : Nat) (v : W64) : State :=
  let m := off / 0x4000
  match off % 0x4000 with
  | 0x000 => (s.setClu m { s.clu m with mxweight := v.setWidth 32 }).post (.kStepGrant m)
  | o =>
    famWrite o 0x100 0x40 8 (fun c => nextOr (execPoolpwWrite (8 * m + c) 0 v s) s) fun _ =>
    famWrite o 0x108 0x40 8 (fun c => nextOr (execPoolpwWrite (8 * m + c) 1 v s) s) fun _ =>
    famWrite o 0x110 0x40 8 (fun c =>
      if bitAt v 48 then s.setCore (8 * m + c) { s.core (8 * m + c) with pwRefused := false } else s) fun _ => s

def State.lnkWrite (s : State) (off : Nat) (v : W64) : State :=
  let w : W32 := v.setWidth 32
  if 0x10000 ≤ off then
    (if off < 0x50000 then s.lnkPageWrite ((off - 0x10000) / 0x1000) (off % 0x1000) v else s)
  else if off = 0 then nextOr (execLnkPkgidWrite w s) s
  else
    famWrite off 0x100 4 16 (fun n => nextOr (execLinkEnable n w s) s) fun _ =>
    famWrite off 0x200 4 64 (fun q => nextOr (execLnkLinkmaskWrite q w s) s) fun _ =>
    famWrite off 0x300 4 64 (fun q => nextOr (execLnkDomainWrite q w s) s) fun _ =>
    famWrite off 0x1000 4 1024 (fun k =>
      { s with lnk := { s.lnk with base := s.lnk.base.put 0 k (w &&& 0x3FF) } }) fun _ => s

def State.dbgWrite (s : State) (off : Nat) (v : W64) : State :=
  match off with
  | 0x000 => s.writeTocsin (v.setWidth 32)
  | 0x008 => { s with dbg := { s.dbg with stepMask := v } }
  | 0x200 => { s with dbg := { s.dbg with tsel := v &&& 0xFFFFFFFF8F000FFF } }
  | _ =>
    famWrite off 0x100 16 8 (fun n =>
      let e : Evt := s.dbg.evts.look {} n
      { s with dbg := { s.dbg with evts := s.dbg.evts.put {} n { e with site := v.setWidth 32 } } }) fun _ =>
    famWrite off 0x108 16 8 (fun n => nextOr (execDbgEvtWrite n (v.setWidth 32) s) s) fun _ => s

/-- A write of PF0 through BAR0 (R48, R49). -/
def State.pfWrite (s : State) (off : Nat) (v : W64) : State :=
  if off < 0x0100000 then s.hifWrite off v
  else if off < 0x0200000 then
    (if 0x0140000 ≤ off ∧ off < 0x0180000 then s.prtPageWrite ((off - 0x0140000) / 0x1000) false (off % 0x1000) v else s)
  else if off < 0x0300000 then
    (if 0x0240000 ≤ off ∧ off < 0x0280000 then s.schPageWrite ((off - 0x0240000) / 0x1000) pf0 (off % 0x1000) v
     else
      famWrite off 0x0200100 16 64 (fun q => s.ctxCmd q (fld v 2 0)) fun _ =>
      famWrite off 0x0200108 16 64 (fun q =>
        s.setPrt q { s.prt q with ctxSpill := v &&& 0x000FFFFFFFFFF000 }) fun _ => s)
  else if off < 0x0400000 then s
  else if off < 0x0800000 then
    (if off = 0x0400000 then { s with cfg := { s.cfg with sel := v.setWidth 32 &&& 0x3FFFF } } else s)
  else if off < 0x0C00000 then s.swmWrite (off - 0x0800000) v
  else if off < 0x0C40000 then s.mmuPageWrite ((off - 0x0C00000) / 0x1000) (off % 0x1000) v
  else if 0x0D00000 ≤ off ∧ off < 0x0E00000 then s.lnkWrite (off - 0x0D00000) v
  else if off = 0x0E00000 then nextOr (execClapperArm (v.setWidth 32) s) s
  else if 0x1600000 ≤ off ∧ off < 0x1700000 then s.dbgWrite (off - 0x1600000) v
  else if off < 0x1700000 then s
  else famWrite off 0x1700100 4 40 (fun n => nextOr (execPwrIslCtlWrite n (v.setWidth 32) s) s) fun _ => s

/-- A write through a virtual function on the port its binding selects (R50 to R52). -/
def State.vfWrite (s : State) (n off : Nat) (v : W64) : State :=
  let f := s.vf n
  if off = 0 then nextOr (execDoorbell n (b2n f.port) (v.setWidth 32) s) s
  else if !f.enable then s
  else if off / 0x1000 = 1 then s.lnkPageWrite f.prt (off % 0x1000) v
  else if off / 0x1000 = 2 then s.prtPageWrite f.prt true (off % 0x1000) v
  else if off / 0x1000 = 3 then s.schPageWrite f.prt n (off % 0x1000) v
  else s

/-- REGISTER_WRITE (R5, R48): a write at a byte offset of BAR0 of a virtual function (0 to 255), PF0
(256) or PF1 (257, which writes no register). A register with a row of its own gets that row's
effect; a reserved bit or an RO field is not stored; an offset without a register ignores it. -/
def execRegisterWrite (fn off : Nat) (v : W64) (s : State) : Host.Outcome State Fault Refusal :=
  .next (if fn < 256 then s.vfWrite fn off v else if fn = 256 then s.pfWrite off v else s)

end Sys2Proof.Machine
end

