-- ==== Sys2Proof/Machine/ScalarFp.lean ====
section
/-!
DEFINITION. Scalar floating point (13 R346 to R358).
-/

namespace Sys2Proof.Machine

open Sys2Proof

/-- Bits [w−1:0] of a g register in the instruction's format (R346). -/
def State.f (s : State) (f : SFmt) (n : GReg) : Nat := (s.g n).toNat % 2 ^ f.fmt.width

/-- A checked operation of two operands (R349, R350). -/
def State.fp2 (s : State) (w : W32) (f : SFmt) (d a b : GReg)
    (op : Nat → Nat → Nat × FP.Flags) : State :=
  let x := s.f f a
  let y := s.f f b
  s.checkSub w (anySub f.fmt [x, y]) (fun _ => s.finF d (op x y))

/-- A checked operation of one operand. -/
def State.fp1 (s : State) (w : W32) (f : SFmt) (d a : GReg) (op : Nat → Nat × FP.Flags) : State :=
  let x := s.f f a
  s.checkSub w (anySub f.fmt [x]) (fun _ => s.finF d (op x))

/-- FADD (R350). -/
def execFadd (f : SFmt) (d a b : GReg) (rm : Rm) (s : State) : Host.Outcome State Fault Refusal :=
  .next (s.fp2 (wordOf (.fadd f d a b rm)) f d a b (FP.add f.fmt rm))

/-- FSUB (R350). -/
def execFsub (f : SFmt) (d a b : GReg) (rm : Rm) (s : State) : Host.Outcome State Fault Refusal :=
  .next (s.fp2 (wordOf (.fsub f d a b rm)) f d a b (FP.sub f.fmt rm))

/-- FMUL (R350). -/
def execFmul (f : SFmt) (d a b : GReg) (rm : Rm) (s : State) : Host.Outcome State Fault Refusal :=
  .next (s.fp2 (wordOf (.fmul f d a b rm)) f d a b (FP.mul f.fmt rm))

/-- FFMA (R350): a × b + d with one rounding; operand order a, b, d (R279). -/
def execFfma (f : SFmt) (d a b : GReg) (rm : Rm) (s : State) : Host.Outcome State Fault Refusal :=
  let x := s.f f a
  let y := s.f f b
  let z := s.f f d
  .next (s.checkSub (wordOf (.ffma f d a b rm)) (anySub f.fmt [x, y, z])
    (fun _ => s.finF d (FP.fma f.fmt rm x y z)))

/-- FMIN (R352): no subnormal check, never rounded. -/
def execFmin (f : SFmt) (d a b : GReg) (s : State) : Host.Outcome State Fault Refusal :=
  .next (s.finF d (FP.minmax f.fmt false (s.f f a) (s.f f b)))

/-- FMAX (R352). -/
def execFmax (f : SFmt) (d a b : GReg) (s : State) : Host.Outcome State Fault Refusal :=
  .next (s.finF d (FP.minmax f.fmt true (s.f f a) (s.f f b)))

/-- FRCP (R353): the approximation of 1/x of R288, a free value within its bound (log 6). -/
def execFrcp (f : SFmt) (d a : GReg) (s : State) : Host.Outcome State Fault Refusal :=
  .next (s.fp1 (wordOf (.frcp f d a)) f d a (FP.approxRecip f.fmt false))

/-- FRSQ (R353): the approximation of 1/√x. -/
def execFrsq (f : SFmt) (d a : GReg) (s : State) : Host.Outcome State Fault Refusal :=
  .next (s.fp1 (wordOf (.frsq f d a)) f d a (FP.approxRecip f.fmt true))

/-- FRCPR (R289, R354): one Newton step on g[b] toward 1/g[a]. -/
def execFrcpr (f : SFmt) (d a b : GReg) (rm : Rm) (s : State) : Host.Outcome State Fault Refusal :=
  .next (s.fp2 (wordOf (.frcpr f d a b rm)) f d a b (FP.newton f.fmt rm false))

/-- FRSQR (R289, R354). -/
def execFrsqr (f : SFmt) (d a b : GReg) (rm : Rm) (s : State) : Host.Outcome State Fault Refusal :=
  .next (s.fp2 (wordOf (.frsqr f d a b rm)) f d a b (FP.newton f.fmt rm true))

/-- FCMP (R355). -/
def execFcmp (f : SFmt) (p : PReg) (a b : GReg) (sig : Bool) (cc : BitVec 3) (s : State) :
    Host.Outcome State Fault Refusal :=
  let r := FP.fcmp f.fmt cc.toNat sig (s.f f a) (s.f f b)
  .next ((s.orFlags r.2).setP p r.1).adv

/-- FCLASS (R356): one class bit, no flag. -/
def execFclass (f : SFmt) (d a : GReg) (s : State) : Host.Outcome State Fault Refusal :=
  .next (s.fin d (BitVec.ofNat 64 (2 ^ FP.fclass f.fmt (s.f f a))))

/-- The sign FSGN gives (R357). -/
def fsgnSign (mode : BitVec 2) (sa sb : Bool) : Bool :=
  match mode.toNat with
  | 0 => sb
  | 1 => !sb
  | _ => sa != sb

/-- FSGN (R357): the magnitude bits of a under the mode's sign; bits only. -/
def execFsgn (f : SFmt) (d a b : GReg) (mode : BitVec 2) (s : State) : Host.Outcome State Fault Refusal :=
  let x := s.f f a
  let y := s.f f b
  let r := FP.withSign f.fmt (fsgnSign mode (FP.sgn f.fmt x) (FP.sgn f.fmt y)) (FP.mag f.fmt x)
  .next (s.fin d (BitVec.ofNat 64 r))

/-- FCVT (R286, R358): from F to float format G; never saturates. -/
def execFcvt (f : SFmt) (d a : GReg) (g : Fmt) (rm : Rm) (s : State) : Host.Outcome State Fault Refusal :=
  .next (s.fp1 (wordOf (.fcvt f d a g rm)) f d a (FP.cvt f.fmt g rm false))

/-- ICVT (R358): an integer of format G to F. -/
def execIcvt (f : SFmt) (d a : GReg) (g : Fmt) (rm : Rm) (s : State) : Host.Outcome State Fault Refusal :=
  .next (s.finF d (FP.ofInt f.fmt rm false (FP.readInt g ((s.g a).toNat % 2 ^ g.width))))

/-- FCVTI (R358): F to an integer of format G, sign- or zero-extended. -/
def execFcvti (f : SFmt) (d a : GReg) (g : Fmt) (rm : Rm) (s : State) : Host.Outcome State Fault Refusal :=
  .next (s.fp1 (wordOf (.fcvti f d a g rm)) f d a (fun x =>
    let r := FP.toInt f.fmt g rm x
    (FP.wrapInt 64 r.1, r.2)))

end Sys2Proof.Machine
end

