-- ==== Sys2Proof/Machine/Dispatch.lean ====
section
/-!
DEFINITION. The meaning of every row of spec/opcode_table.json: one arm per constructor of Instr.
-/

namespace Sys2Proof.Machine

open Sys2Proof

def exec (i : Instr) (s : State) : Host.Outcome State Fault Refusal :=
  match i with
  | .add d a b => Sys2Proof.Machine.execAdd d a b s
  | .sub d a b => Sys2Proof.Machine.execSub d a b s
  | .adds d a b => Sys2Proof.Machine.execAdds d a b s
  | .subs d a b => Sys2Proof.Machine.execSubs d a b s
  | .mul d a b => Sys2Proof.Machine.execMul d a b s
  | .mulh d a b => Sys2Proof.Machine.execMulh d a b s
  | .mulhn d a b => Sys2Proof.Machine.execMulhn d a b s
  | .div d a b => Sys2Proof.Machine.execDiv d a b s
  | .divn d a b => Sys2Proof.Machine.execDivn d a b s
  | .rem d a b => Sys2Proof.Machine.execRem d a b s
  | .remn d a b => Sys2Proof.Machine.execRemn d a b s
  | .and d a b => Sys2Proof.Machine.execAnd d a b s
  | .or d a b => Sys2Proof.Machine.execOr d a b s
  | .xor d a b => Sys2Proof.Machine.execXor d a b s
  | .shl d a b => Sys2Proof.Machine.execShl d a b s
  | .shr d a b => Sys2Proof.Machine.execShr d a b s
  | .sra d a b => Sys2Proof.Machine.execSra d a b s
  | .min d a b => Sys2Proof.Machine.execMin d a b s
  | .max d a b => Sys2Proof.Machine.execMax d a b s
  | .minn d a b => Sys2Proof.Machine.execMinn d a b s
  | .maxn d a b => Sys2Proof.Machine.execMaxn d a b s
  | .clz d a => Sys2Proof.Machine.execClz d a s
  | .ctz d a => Sys2Proof.Machine.execCtz d a s
  | .popc d a => Sys2Proof.Machine.execPopc d a s
  | .brev d a => Sys2Proof.Machine.execBrev d a s
  | .sel d n a b => Sys2Proof.Machine.execSel d n a b s
  | .addi d a imm => Sys2Proof.Machine.execAddi d a imm s
  | .andi d a imm => Sys2Proof.Machine.execAndi d a imm s
  | .ori d a imm => Sys2Proof.Machine.execOri d a imm s
  | .xori d a imm => Sys2Proof.Machine.execXori d a imm s
  | .shli d a sh => Sys2Proof.Machine.execShli d a sh s
  | .shri d a sh => Sys2Proof.Machine.execShri d a sh s
  | .srai d a sh => Sys2Proof.Machine.execSrai d a sh s
  | .cmpi p cc a imm => Sys2Proof.Machine.execCmpi p cc a imm s
  | .lih d k imm => Sys2Proof.Machine.execLih d k imm s
  | .addpc d imm => Sys2Proof.Machine.execAddpc d imm s
  | .ext d a width1 pos => Sys2Proof.Machine.execExt d a width1 pos s
  | .ins d a width1 pos => Sys2Proof.Machine.execIns d a width1 pos s
  | .lea d a b s1 => Sys2Proof.Machine.execLea d a b s1 s
  | .site d a => Sys2Proof.Machine.execSite d a s
  | .cmp p cc a b => Sys2Proof.Machine.execCmp p cc a b s
  | .plog p a b tt => Sys2Proof.Machine.execPlog p a b tt s
  | .ld d base off sz sx ord => Sys2Proof.Machine.execLd d base off sz sx ord s
  | .st src base off sz ord => Sys2Proof.Machine.execSt src base off sz ord s
  | .ldv vd base off ord => Sys2Proof.Machine.execLdv vd base off ord s
  | .stv vs base off ord => Sys2Proof.Machine.execStv vs base off ord s
  | .ldf d base off clr ord => Sys2Proof.Machine.execLdf d base off clr ord s
  | .stf src base off ord => Sys2Proof.Machine.execStf src base off ord s
  | .ste a b => Sys2Proof.Machine.execSte a b s
  | .feset a => Sys2Proof.Machine.execFeset a s
  | .feclr a => Sys2Proof.Machine.execFeclr a s
  | .pref a lvl => Sys2Proof.Machine.execPref a lvl s
  | .rlx n1 => Sys2Proof.Machine.execRlx n1 s
  | .fence sc => Sys2Proof.Machine.execFence sc s
  | .amo fn a b c rel acq dbl => Sys2Proof.Machine.execAmo fn a b c rel acq dbl s
  | .cas a b c rel acq dbl => Sys2Proof.Machine.execCas a b c rel acq dbl s
  | .amof fn a b c rel acq => Sys2Proof.Machine.execAmof fn a b c rel acq s
  | .br p sense off => Sys2Proof.Machine.execBr p sense off s
  | .jmp off => Sys2Proof.Machine.execJmp off s
  | .jal off => Sys2Proof.Machine.execJal off s
  | .jr a b => Sys2Proof.Machine.execJr a b s
  | .exit => Sys2Proof.Machine.execExit s
  | .yield => Sys2Proof.Machine.execYield s
  | .trap imm => Sys2Proof.Machine.execTrap imm s
  | .svc imm => Sys2Proof.Machine.execSvc imm s
  | .waitw a b c => Sys2Proof.Machine.execWaitw a b c s
  | .cntadd a b c => Sys2Proof.Machine.execCntadd a b c s
  | .cntwait a b c => Sys2Proof.Machine.execCntwait a b c s
  | .bar a b => Sys2Proof.Machine.execBar a b s
  | .send a b c => Sys2Proof.Machine.execSend a b c s
  | .recv a b c => Sys2Proof.Machine.execRecv a b c s
  | .uiret => Sys2Proof.Machine.execUiret s
  | .qwait a b c => Sys2Proof.Machine.execQwait a b c s
  | .fadd f d a b rm => Sys2Proof.Machine.execFadd f d a b rm s
  | .fsub f d a b rm => Sys2Proof.Machine.execFsub f d a b rm s
  | .fmul f d a b rm => Sys2Proof.Machine.execFmul f d a b rm s
  | .ffma f d a b rm => Sys2Proof.Machine.execFfma f d a b rm s
  | .fmin f d a b => Sys2Proof.Machine.execFmin f d a b s
  | .fmax f d a b => Sys2Proof.Machine.execFmax f d a b s
  | .frcp f d a => Sys2Proof.Machine.execFrcp f d a s
  | .frsq f d a => Sys2Proof.Machine.execFrsq f d a s
  | .frcpr f d a b rm => Sys2Proof.Machine.execFrcpr f d a b rm s
  | .frsqr f d a b rm => Sys2Proof.Machine.execFrsqr f d a b rm s
  | .fcmp f p a b sig cc => Sys2Proof.Machine.execFcmp f p a b sig cc s
  | .fclass f d a => Sys2Proof.Machine.execFclass f d a s
  | .fsgn f d a b mode => Sys2Proof.Machine.execFsgn f d a b mode s
  | .fcvt f d a g rm => Sys2Proof.Machine.execFcvt f d a g rm s
  | .icvt f d a g rm => Sys2Proof.Machine.execIcvt f d a g rm s
  | .fcvti f d a g rm => Sys2Proof.Machine.execFcvti f d a g rm s
  | .vadd vd va vb ty rm md => Sys2Proof.Machine.execVadd vd va vb ty rm md s
  | .vsub vd va vb ty rm md => Sys2Proof.Machine.execVsub vd va vb ty rm md s
  | .vmul vd va vb ty rm md => Sys2Proof.Machine.execVmul vd va vb ty rm md s
  | .vfma vd va vb ty rm md => Sys2Proof.Machine.execVfma vd va vb ty rm md s
  | .vmin vd va vb ty md => Sys2Proof.Machine.execVmin vd va vb ty md s
  | .vmax vd va vb ty md => Sys2Proof.Machine.execVmax vd va vb ty md s
  | .vdot vd va vb ty rm md => Sys2Proof.Machine.execVdot vd va vb ty rm md s
  | .vcvt vd va g ty rm sat => Sys2Proof.Machine.execVcvt vd va g ty rm sat s
  | .vcvtDesc vd va g k => Sys2Proof.Machine.execVcvtDesc vd va g k s
  | .vscale vd va vb ty rm bc => Sys2Proof.Machine.execVscale vd va vb ty rm bc s
  | .vshuf vd va vb ty z => Sys2Proof.Machine.execVshuf vd va vb ty z s
  | .vbcast vd va k ty => Sys2Proof.Machine.execVbcast vd va k ty s
  | .vsel vd va vb ty => Sys2Proof.Machine.execVsel vd va vb ty s
  | .vcmp vd va vb ty cc => Sys2Proof.Machine.execVcmp vd va vb ty cc s
  | .vred vd va ty rm op => Sys2Proof.Machine.execVred vd va ty rm op s
  | .vlog vd va vb op => Sys2Proof.Machine.execVlog vd va vb op s
  | .vshift vd va vb ty op => Sys2Proof.Machine.execVshift vd va vb ty op s
  | .vmovg d va b ty => Sys2Proof.Machine.execVmovg d va b ty s
  | .vmovv vd a b ty => Sys2Proof.Machine.execVmovv vd a b ty s
  | .mxa a b => Sys2Proof.Machine.execMxa a b s
  | .mxb a b => Sys2Proof.Machine.execMxb a b s
  | .mxc a b c => Sys2Proof.Machine.execMxc a b c s
  | .mxgo c => Sys2Proof.Machine.execMxgo c s
  | .mxdrain a b c => Sys2Proof.Machine.execMxdrain a b c s
  | .mxrel => Sys2Proof.Machine.execMxrel s
  | .acopy a c ui => Sys2Proof.Machine.execAcopy a c ui s
  | .agather a c ui => Sys2Proof.Machine.execAgather a c ui s
  | .ascatter a c ui => Sys2Proof.Machine.execAscatter a c ui s
  | .acoll a c ui => Sys2Proof.Machine.execAcoll a c ui s
  | .await a c => Sys2Proof.Machine.execAwait a c s
  | .acancel a c => Sys2Proof.Machine.execAcancel a c s
  | .cfgload a b c => Sys2Proof.Machine.execCfgload a b c s
  | .cfgarm a c => Sys2Proof.Machine.execCfgarm a c s
  | .cfgshadow a b c => Sys2Proof.Machine.execCfgshadow a b c s
  | .roll a b c => Sys2Proof.Machine.execRoll a b c s
  | .cfgpatch a b c => Sys2Proof.Machine.execCfgpatch a b c s
  | .qput a b c => Sys2Proof.Machine.execQput a b c s
  | .qtake a b c => Sys2Proof.Machine.execQtake a b c s
  | .ereply a b c k => Sys2Proof.Machine.execEreply a b c k s
  | .edrop a => Sys2Proof.Machine.execEdrop a s
  | .ctok a b c => Sys2Proof.Machine.execCtok a b c s
  | .launch a b c => Sys2Proof.Machine.execLaunch a b c s
  | .spawn a c => Sys2Proof.Machine.execSpawn a c s
  | .prio a c => Sys2Proof.Machine.execPrio a c s
  | .cancel a lv => Sys2Proof.Machine.execCancel a lv s
  | .cancelFault a lv => Sys2Proof.Machine.execCancelFault a lv s
  | .mfs d num => Sys2Proof.Machine.execMfs d num s
  | .mts a num => Sys2Proof.Machine.execMts a num s
  | .tret => Sys2Proof.Machine.execTret s
  | .ilock d a => Sys2Proof.Machine.execIlock d a s
  | .iunlock d a => Sys2Proof.Machine.execIunlock d a s
  | .iflush => Sys2Proof.Machine.execIflush s
  | .tlbinv d a => Sys2Proof.Machine.execTlbinv d a s
  | .snap d => Sys2Proof.Machine.execSnap d s
  | .brk => Sys2Proof.Machine.execBrk s
  | .hint n => Sys2Proof.Machine.execHint n s
  | .waiti d => Sys2Proof.Machine.execWaiti d s
  | .unassignedEncoding w => Sys2Proof.Machine.execUnassignedEncoding w s
  | .instructionFetchFault => Sys2Proof.Machine.execInstructionFetchFault s
  | .islandTransitionDone n => Sys2Proof.Machine.execIslandTransitionDone n s
  | .circuitTransfer prt slot idx => Sys2Proof.Machine.execCircuitTransfer prt slot idx s
  | .flitTransmit n => Sys2Proof.Machine.execFlitTransmit n s
  | .routeNotice req => Sys2Proof.Machine.execRouteNotice req s
  | .jobRecordTake vf => Sys2Proof.Machine.execJobRecordTake vf s
  | .fwActivateDone => Sys2Proof.Machine.execFwActivateDone s
  | .tocsinHalted => Sys2Proof.Machine.execTocsinHalted s
  | .tocsinStepEnd => Sys2Proof.Machine.execTocsinStepEnd s
  | .resizePropose => Sys2Proof.Machine.execResizePropose s
  | .resizeGuard => Sys2Proof.Machine.execResizeGuard s
  | .resizeDrain => Sys2Proof.Machine.execResizeDrain s
  | .regionMove slot => Sys2Proof.Machine.execRegionMove slot s
  | .coreMove core => Sys2Proof.Machine.execCoreMove core s
  | .hbmSweepPage => Sys2Proof.Machine.execHbmSweepPage s
  | .resizeMigrate => Sys2Proof.Machine.execResizeMigrate s
  | .rehashSweepLine line => Sys2Proof.Machine.execRehashSweepLine line s
  | .resizeRehash => Sys2Proof.Machine.execResizeRehash s
  | .resizeScrub => Sys2Proof.Machine.execResizeScrub s
  | .resizeCommit => Sys2Proof.Machine.execResizeCommit s
  | .phaseStart q job => Sys2Proof.Machine.execPhaseStart q job s
  | .launchRecordRead q graph => Sys2Proof.Machine.execLaunchRecordRead q graph s
  | .schedulerDecision => Sys2Proof.Machine.execSchedulerDecision s
  | .launchPromote q slot => Sys2Proof.Machine.execLaunchPromote q slot s
  | .gangDeadline q phase => Sys2Proof.Machine.execGangDeadline q phase s
  | .taskDispatch core => Sys2Proof.Machine.execTaskDispatch core s
  | .taskPacketPromote core => Sys2Proof.Machine.execTaskPacketPromote core s
  | .messageDelivery id => Sys2Proof.Machine.execMessageDelivery id s
  | .messageReturn id => Sys2Proof.Machine.execMessageReturn id s
  | .ctxSwapDone q => Sys2Proof.Machine.execCtxSwapDone q s
  | .ctxSpillDone q => Sys2Proof.Machine.execCtxSpillDone q s
  | .ctxFillDone q => Sys2Proof.Machine.execCtxFillDone q s
  | .elementFire site => Sys2Proof.Machine.execElementFire site s
  | .elementResult site => Sys2Proof.Machine.execElementResult site s
  | .tokenHop site dir => Sys2Proof.Machine.execTokenHop site dir s
  | .tileRead site => Sys2Proof.Machine.execTileRead site s
  | .tilePortBOp site => Sys2Proof.Machine.execTilePortBOp site s
  | .fifoAppend site => Sys2Proof.Machine.execFifoAppend site s
  | .fifoEmit site => Sys2Proof.Machine.execFifoEmit site s
  | .cacheLineFill site => Sys2Proof.Machine.execCacheLineFill site s
  | .fibreUnitFire site => Sys2Proof.Machine.execFibreUnitFire site s
  | .generatorLoadEmit site n => Sys2Proof.Machine.execGeneratorLoadEmit site n s
  | .generatorStoreWrite site n => Sys2Proof.Machine.execGeneratorStoreWrite site n s
  | .patchMiss site n => Sys2Proof.Machine.execPatchMiss site n s
  | .extentRefill site n => Sys2Proof.Machine.execExtentRefill site n s
  | .transGrant col => Sys2Proof.Machine.execTransGrant col s
  | .transReply col => Sys2Proof.Machine.execTransReply col s
  | .escapeThreadStart site => Sys2Proof.Machine.execEscapeThreadStart site s
  | .escapeTokenLeave site => Sys2Proof.Machine.execEscapeTokenLeave site s
  | .windowPublish prt slot w => Sys2Proof.Machine.execWindowPublish prt slot w s
  | .hushSweep prt slot => Sys2Proof.Machine.execHushSweep prt slot s
  | .hushStall prt slot => Sys2Proof.Machine.execHushStall prt slot s
  | .configLoadComplete port => Sys2Proof.Machine.execConfigLoadComplete port s
  | .regionArm prt slot => Sys2Proof.Machine.execRegionArm prt slot s
  | .siteSwap site => Sys2Proof.Machine.execSiteSwap site s
  | .matrixTileEmit cluster => Sys2Proof.Machine.execMatrixTileEmit cluster s
  | .fabricFault site code => Sys2Proof.Machine.execFabricFault site code s
  | .regionClockStop prt slot => Sys2Proof.Machine.execRegionClockStop prt slot s
  | .fabricPageFaultScanout prt slot => Sys2Proof.Machine.execFabricPageFaultScanout prt slot s
  | .regionReload prt slot => Sys2Proof.Machine.execRegionReload prt slot s
  | .uiTake => Sys2Proof.Machine.execUiTake s
  | .memoryReply tid idx => Sys2Proof.Machine.execMemoryReply tid idx s
  | .pageWalkDone cluster => Sys2Proof.Machine.execPageWalkDone cluster s
  | .kStepGrant cluster => Sys2Proof.Machine.execKStepGrant cluster s
  | .kStepDone cluster => Sys2Proof.Machine.execKStepDone cluster s
  | .drainRowStart cluster => Sys2Proof.Machine.execDrainRowStart cluster s
  | .drainRowWrite cluster => Sys2Proof.Machine.execDrainRowWrite cluster s
  | .asyncCommandComplete id => Sys2Proof.Machine.execAsyncCommandComplete id s
  | .shootdownAck q agent => Sys2Proof.Machine.execShootdownAck q agent s
  | .migGranuleCopy q s1 => Sys2Proof.Machine.execMigGranuleCopy q s1 s
  | .migComplete q s1 => Sys2Proof.Machine.execMigComplete q s1 s
  | .asyncEngineTransfer id => Sys2Proof.Machine.execAsyncEngineTransfer id s
  | .fundamentalReset => Sys2Proof.Machine.execFundamentalReset s
  | .pwrIslCtlWrite n v => Sys2Proof.Machine.execPwrIslCtlWrite n v s
  | .thermalThrottle n temp => Sys2Proof.Machine.execThermalThrottle n temp s
  | .limiterStep n temp => Sys2Proof.Machine.execLimiterStep n temp s
  | .thermalShutdown n => Sys2Proof.Machine.execThermalShutdown n s
  | .bridgeReplay => Sys2Proof.Machine.execBridgeReplay s
  | .bridge => Sys2Proof.Machine.execBridge s
  | .lnkPkgidWrite v => Sys2Proof.Machine.execLnkPkgidWrite v s
  | .linkEnable n v => Sys2Proof.Machine.execLinkEnable n v s
  | .linkClr n => Sys2Proof.Machine.execLinkClr n s
  | .linkTrainDone n lanes peer => Sys2Proof.Machine.execLinkTrainDone n lanes peer s
  | .linkDown n => Sys2Proof.Machine.execLinkDown n s
  | .linkRetrain n => Sys2Proof.Machine.execLinkRetrain n s
  | .flitReceive n f crcOk => Sys2Proof.Machine.execFlitReceive n f crcOk s
  | .remoteMemoryRequest src domain p => Sys2Proof.Machine.execRemoteMemoryRequest src domain p s
  | .lnkPrtRtWrite q cls dst v => Sys2Proof.Machine.execLnkPrtRtWrite q cls dst v s
  | .lnkLinkmaskWrite q v => Sys2Proof.Machine.execLnkLinkmaskWrite q v s
  | .lnkDomainWrite q v => Sys2Proof.Machine.execLnkDomainWrite q v s
  | .vfBindWrite vf v => Sys2Proof.Machine.execVfBindWrite vf v s
  | .doorbell vf port v => Sys2Proof.Machine.execDoorbell vf port v s
  | .vfFlr vf => Sys2Proof.Machine.execVfFlr vf s
  | .pf0Flr => Sys2Proof.Machine.execPf0Flr s
  | .pf1Flr => Sys2Proof.Machine.execPf1Flr s
  | .memoryUncorrectableError k addr => Sys2Proof.Machine.execMemoryUncorrectableError k addr s
  | .cxlerr => Sys2Proof.Machine.execCxlerr s
  | .fwfail => Sys2Proof.Machine.execFwfail s
  | .hostCxlMemRequest write addr data => Sys2Proof.Machine.execHostCxlMemRequest write addr data s
  | .hostSnoop addr => Sys2Proof.Machine.execHostSnoop addr s
  | .hostBar2Access pf write off n data => Sys2Proof.Machine.execHostBar2Access pf write off n data s
  | .fwStart => Sys2Proof.Machine.execFwStart s
  | .fwVerifyDone r hash svn raises => Sys2Proof.Machine.execFwVerifyDone r hash svn raises s
  | .fwActivate => Sys2Proof.Machine.execFwActivate s
  | .spdmRequest pf r => Sys2Proof.Machine.execSpdmRequest pf r s
  | .ideKm port stream key => Sys2Proof.Machine.execIdeKm port stream key s
  | .clapperFire => Sys2Proof.Machine.execClapperFire s
  | .clapperArm v => Sys2Proof.Machine.execClapperArm v s
  | .remoteClapperTrigger => Sys2Proof.Machine.execRemoteClapperTrigger s
  | .dbgEvtWrite n v => Sys2Proof.Machine.execDbgEvtWrite n v s
  | .tocsinHalt => Sys2Proof.Machine.execTocsinHalt s
  | .tocsinStep => Sys2Proof.Machine.execTocsinStep s
  | .tocsinResume => Sys2Proof.Machine.execTocsinResume s
  | .remoteTocsin resume => Sys2Proof.Machine.execRemoteTocsin resume s
  | .prtCreate q sup => Sys2Proof.Machine.execPrtCreate q sup s
  | .prtResize q sup => Sys2Proof.Machine.execPrtResize q sup s
  | .prtDestroy q sup => Sys2Proof.Machine.execPrtDestroy q sup s
  | .prtGrdClr q => Sys2Proof.Machine.execPrtGrdClr q s
  | .prtQuotaWrite q v => Sys2Proof.Machine.execPrtQuotaWrite q v s
  | .gangAckReceive q tag member => Sys2Proof.Machine.execGangAckReceive q tag member s
  | .gangCancelReceive q tag => Sys2Proof.Machine.execGangCancelReceive q tag s
  | .schCancelWrite q v => Sys2Proof.Machine.execSchCancelWrite q v s
  | .epsync q name => Sys2Proof.Machine.execEpsync q name s
  | .epdirWrite q v => Sys2Proof.Machine.execEpdirWrite q v s
  | .cntvalRead vf => Sys2Proof.Machine.execCntvalRead vf s
  | .ctxSwap q => Sys2Proof.Machine.execCtxSwap q s
  | .ctxSpill q => Sys2Proof.Machine.execCtxSpill q s
  | .ctxFill q => Sys2Proof.Machine.execCtxFill q s
  | .frackResume q v => Sys2Proof.Machine.execFrackResume q v s
  | .poolpwWrite core ctx v => Sys2Proof.Machine.execPoolpwWrite core ctx v s
  | .mtpwWrite q x v => Sys2Proof.Machine.execMtpwWrite q x v s
  | .frbaseWrite q v => Sys2Proof.Machine.execFrbaseWrite q v s
  | .rqdescWrite core ctx n v => Sys2Proof.Machine.execRqdescWrite core ctx n v s
  | .collectiveDataReceive id rank gtag n len op fmt red data => Sys2Proof.Machine.execCollectiveDataReceive id rank gtag n len op fmt red data s
  | .mmuInvctlGo q v => Sys2Proof.Machine.execMmuInvctlGo q v s
  | .migStart q s1 v => Sys2Proof.Machine.execMigStart q s1 v s
  | .registerWrite fn off v => Sys2Proof.Machine.execRegisterWrite fn off v s

end Sys2Proof.Machine
end

