-- ==== Sys2Proof/Machine/Turn.lean ====
section
/-!
DEFINITION. The turn of a core (07 R190 to R192): the rotation, the user-level interrupt check,
the fetch, the PENDREG check, and one instruction.
-/

namespace Sys2Proof.Machine

open Sys2Proof

abbrev Result := Host.Outcome State Fault Refusal

/-- Applies a function to the next state of an outcome. -/
def onNext (f : State → State) : Result → Result
  | .next s => .next (f s)
  | .fault r => .fault r
  | .refused r => .refused r

/-- A thread whose instruction waits for a walk, a reply or a condition keeps the instruction's word (R192). -/
def holdWord (t : Nat) (w : W32) (s : State) : State :=
  let th := s.thread t
  match th.st with
  | .walk | .memory | .blocked => s.setThread t { th with word := w }
  | _ => s

/-- The current thread fetches and executes one instruction. -/
def issue (s : State) : Result :=
  match s.fetch with
  | .miss v => .next (s.startWalk v true false)
  | .wait => .next s
  | .fault _ _ _ => exec .instructionFetchFault s
  | .word w s =>
    match decode w with
    | .error _ => exec (.unassignedEncoding w) s
    | .ok i => if s.thr.pendReg i then .next (s.waitIn .pendreg true) else onNext (holdWord s.tid w) (exec i s)

/-- The instruction that waits has issued: it goes on as the word it was fetched as (R192). -/
def resume (s : State) : Result :=
  match decode s.thr.word with
  | .error _ => issue s
  | .ok i => exec i s

/-- What walks found for an access is forgotten once its instruction has had its turn (R192, R246). -/
def forgetWalk (t : Nat) (s : State) : State :=
  let th := s.thread t
  if (th.wfault.isEmpty ∧ th.fills.isEmpty) ∨ th.st = .walk then s
  else s.setThread t { th with wfault := [], fills := [] }

/-- The turn of the current thread. A pending user-level interrupt of a READY or BLOCKED thread is
taken first and the handler's first instruction issues in this turn (R200); a thread in RETRY or
PENDREG, or one that waits in MEMORY at its own turns, takes it only once its wait is over (R201). -/
def threadTurn (s : State) : Result :=
  let th := s.thr
  let run (s : State) : Result := onNext (forgetWalk s.tid) (issue s)
  let goOn (s : State) : Result := onNext (forgetWalk s.tid) (resume s)
  -- After a data walk's fill the access has issued and goes on (R192).
  if th.st = .memory ∧ th.filled then goOn (s.setThr { th with filled := false })
  else
  match th.st with
  | .ready => if th.uiReady then onNext (forgetWalk s.tid) (issue s.takeUi) else run s
  | .blocked =>
    if th.uiReady then run s.takeUi
    else if th.atHome then .next s
    else goOn s
  | st =>
    match (if st = .memory then goOn s else run s) with
    | .next s' =>
      if (s'.thread s.tid).st = st ∨ !th.uiReady then .next s' else run s.takeUi
    | r => r

/-- One turn of core `c`: its island's clock passes the positions up to the next slot whose thread
takes a turn. A core without clock, or halted, does nothing; one that a swap has stopped counts its cycles
(R419). -/
def coreTurn (c : Nat) (s : State) : Result :=
  let k := s.core c
  if !s.coreClock (c / 8) then .next s
  else if !s.coreRuns (c / 8) then .next (s.setCore c { k with cycle := k.cycle + 1 })
  else
    match s.nextSlot c k.rot 16 0 with
    | none => .next (s.setCore c { k with rot := (k.rot + 1) % 16, cycle := k.cycle + 1 })
    | some (slot, d) =>
      let s := s.setCore c
        { k with rot := (slot + 1) % 16, cycle := k.cycle + BitVec.ofNat 64 (d + 1) }
      threadTurn { s with tid := 16 * c + slot }

/-- The turn of core `cur`; the next core is next. After the last core's turn the events that have become due
act, before the cores' next turns. Once around the package, the steps of a running resize that wait for units to
come to rest are looked at again (log 1). -/
def turn (s : State) : Result :=
  let c := s.cur
  let s := { s with cur := (c + 1) % 2048, due := if c = 2047 then s.agenda.length else 0 }
  coreTurn c (if c = 0 ∧ s.resize.isSome then s.pokeResize else s)

/-! ## A machine whose next instruction is a given word -/

/-- Bytes of a table row's word as memory stores it (R4): words of 32 bits, little-endian. -/
def rowBytes (w : Nat) : List Byte := leBytes 4 w

/-- The virtual and partition address the word is placed at. -/
def placeVa : Nat := 0x1000

/-- Thread 0 of core 0 in partition 0 is READY at a mapped, executable user page that holds the
word, and core 0 takes the next turn (log 9). -/
def placeWord (s : State) (w : Nat) : State :=
  let s := { s with agenda := [], due := 0, cur := 0, tid := 0
                    dbg := { s.dbg with toc := .running }
                    pwr := { s.pwr with isl := s.pwr.isl.drop (clusterIsland 0) }
                    cluOwn := s.cluOwn.put {} 0 ⟨.owned, 0⟩
                    hbmOwn := s.hbmOwn.put {} 0 ⟨.owned, 0⟩ }
  let s := s.setPrt 0 { s.prt 0 with exist := true, groups := [0] }
  let c := s.core 0
  let s := s.setCore 0
    { c with rot := 0, poolpw0 := poolpwOwned
             tlb := [{ vpage := placeVa / 4096, size := 0, ppage := placeVa / 4096, attr := 0x3F
                       asid := 0, gen := 0, slot := 0 }] }
  let s := s.setClu 0 { s.clu 0 with icache := [] }
  let s := s.setThread 0
    { s.thread 0 with st := .ready, pc := BitVec.ofNat 64 placeVa, sup := false, prt := 0, ctx := 0
                      asid := 0, uivec := 0, rlxOut := [], wfault := [], fills := [], atHome := false
                      poll := false }
  s.writeBytes (hbmHome [0] placeVa) (rowBytes w)

end Sys2Proof.Machine
end

