-- ==== Sys2Proof/Machine/Step.lean ====
section
/-!
DEFINITION. One step of the package. The agenda, plain data in State, says which agent acts next
(log 1): while events of it are due, the first is one indivisible step of the opcode table; then the cores
take their turns, one after another.
-/

namespace Sys2Proof.Machine

open Sys2Proof

/-- Thread instructions and fetch outcomes come from a turn, never from the agenda. -/
def isEvent (e : Instr) : Bool :=
  match e with
  | .unassignedEncoding _ | .instructionFetchFault => false
  | e => !isThreadInstr e

def step (s : State) : Host.Outcome State Fault Refusal :=
  match s.agenda, s.due with
  | e :: rest, n + 1 =>
    if WellFormed e && isEvent e then exec e { s with agenda := rest, due := n } else .fault .illFormedEvent
  | _, _ => turn s

/-- `s` with the word as the instruction that the next step fetches and runs (log 9). -/
def State.withFetchWord (s : State) (_nbits w : Nat) : State := placeWord s w

end Sys2Proof.Machine
end

