-- ==== Sys2Proof/Safety.lean ====
section
/-!
DEFINITION. The terms claims are stated in: what an instruction or event completes with, which parts
of the package a next state shares with the state before (frames), and what counts as safe.
-/

namespace Sys2Proof

/-! ## Conditions (R324) -/

/-- The condition codes of R324 on signed and unsigned values. -/
def Cond.holds : Cond → W64 → W64 → Prop
  | .eq, x, y => x = y
  | .ne, x, y => x ≠ y
  | .lt, x, y => x.toInt < y.toInt
  | .ge, x, y => y.toInt ≤ x.toInt
  | .ltn, x, y => x.toNat < y.toNat
  | .gen, x, y => y.toNat ≤ x.toNat

/-- The immediate of CMPI: zero-extended for the unsigned conditions, else sign-extended (R324). -/
def Cond.extend : Cond → BitVec 14 → W64
  | .ltn, i | .gen, i => i.setWidth 64
  | _, i => i.signExtend 64

/-- The functions of R342 on two values of the same width. -/
def AmoFn.new {w : Nat} : AmoFn → BitVec w → BitVec w → BitVec w
  | .add, o, x => o + x
  | .adds, o, x =>
    BitVec.ofInt w (Max.max (-2 ^ (w - 1)) (Min.min (o.toInt + x.toInt) (2 ^ (w - 1) - 1)))
  | .and, o, x => o &&& x
  | .or, o, x => o ||| x
  | .xor, o, x => o ^^^ x
  | .min, o, x => if x.toInt < o.toInt then x else o
  | .max, o, x => if o.toInt < x.toInt then x else o
  | .swap, _, x => x

end Sys2Proof

namespace Sys2Proof.Machine

open Sys2Proof

/-- The instruction or event answers a next state, of which `P` holds. -/
def Completes (i : Instr) (s : State) (P : State → Prop) : Prop :=
  ∃ t, exec i s = .next t ∧ P t

/-- Nothing but the running thread's own record differs: memory, every other thread, every core,
cluster, partition, region and register block read as before. -/
def OnlyThread (s t : State) : Prop :=
  { t with threads := s.threads } = s ∧ ∀ u, u ≠ s.tid → t.thread u = s.thread u

/-- The thread's record with its instruction done and `a` the address it fetches next. -/
def Thread.doneAt (th : Thread) (a : W64) : Thread :=
  { th with pc := a, st := .ready, poll := false, atHome := false }

/-- Only the program counter moves, to `a`. -/
def Moved (s t : State) (a : W64) : Prop := OnlyThread s t ∧ t.thr = s.thr.doneAt a

/-- The instruction wrote `x` to the register that field `d` names and OR-ed `f` into FFLAGS; a write
to g0 is discarded; the pc is at the next instruction; nothing else changed. -/
structure Wrote (s t : State) (d : GReg) (x : W64) (f : BitVec 5 := 0) : Prop where
  others : OnlyThread s t
  rest : t.thr = { s.thr.doneAt (s.thr.pc + 4) with
    g := t.thr.g, h := t.thr.h, fflags := s.thr.fflags ||| f }
  regs : ∀ n, t.g n = if n = d ∧ n ≠ 0 then x else s.g n
  /-- The registers that the banking of R201 hides. -/
  hidden : if s.thr.uiin then ∀ n, 56 ≤ n → t.thr.g.look 0 n = s.thr.g.look 0 n
    else t.thr.h = s.thr.h

/-- The instruction wrote predicate `p` and OR-ed `f` into FFLAGS; a write to p0 is discarded. -/
structure WroteP (s t : State) (p : PReg) (b : Bool) (f : BitVec 5 := 0) : Prop where
  others : OnlyThread s t
  rest : t.thr = { s.thr.doneAt (s.thr.pc + 4) with p := t.thr.p, fflags := s.thr.fflags ||| f }
  preds : ∀ n, t.p n = if n = p ∧ n ≠ 0 then b else s.p n

/-- The instruction wrote packed register `d` and OR-ed `f` into FFLAGS. -/
structure WroteV (s t : State) (d : VReg) (x : V256) (f : BitVec 5 := 0) : Prop where
  others : OnlyThread s t
  rest : t.thr = { s.thr.doneAt (s.thr.pc + 4) with v := t.thr.v, fflags := s.thr.fflags ||| f }
  regs : ∀ n, t.v n = if n = d then x else s.v n

/-- Lanes 0 to 256 / w − 1 of a packed value. -/
def Lanes (r : V256) (w : Nat) (f : Nat → BitVec w) : Prop :=
  ∀ i, i < 256 / w → r.extractLsb' (w * i) w = f i

/-- Node `j` of stage `k` of the fixed binary tree over the lanes `l`, with the flags of its nodes (R372). -/
def treeNode (op : Nat → Nat → Nat × FP.Flags) (l : Nat → Nat) : Nat → Nat → Nat × FP.Flags
  | 0, j => (l j, 0)
  | k + 1, j =>
    let a := treeNode op l k (2 * j)
    let b := treeNode op l k (2 * j + 1)
    let r := op a.1 b.1
    (r.1, a.2 ||| b.2 ||| r.2)

/-- R349 traps no subnormal operand: supervisor privilege, SNEN 0, or no operand that is subnormal. -/
def NoSubnormTrap (s : State) (sub : Bool) : Prop :=
  s.thr.sup = true ∨ s.thr.snvec.getLsbD 0 = false ∨ sub = false

/-- The thread waits: nothing but its slot state changed, and its pc stays at the instruction. -/
def Waits (s t : State) (st : SlotSt) : Prop :=
  OnlyThread s t ∧ t.thr = { s.thr with st := st, poll := true, atHome := false }

/-! ## Traps (R254 to R258) -/

/-- A trap of the running thread enters its handler: INTRAP is 0 and TVEC of its context is not 0. -/
def Vectored (s : State) : Prop :=
  s.thr.intrap = false ∧ ((s.prt s.thr.prt).tvec s.thr.ctx).toNat / 4 ≠ 0

/-- The handler has been entered: what the trap saves, the supervisor privilege, the handler's
address; no register of the program, no other thread and no byte of memory changed. -/
structure Trapped (s t : State) (cause : Nat) (tval : W64) (detail : Nat) : Prop where
  thread : t.thr = { s.thr with
    tepc := if cause = cBREAK ∨ cause = cSVC then s.thr.pc + 4 else s.thr.pc
    tcause := BitVec.ofNat 64 (cause + detail % 16 * 2 ^ 8 + b2n (!s.thr.sup) * 2 ^ 16)
    tval := tval, prev := s.thr.sup, tRlx := BitVec.ofNat 4 s.thr.rlx, intrap := true, rlx := 0
    sup := true, st := .ready, filled := false, atHome := false, poll := false, wfault := []
    fills := []
    pc := BitVec.ofNat 64 (((s.prt s.thr.prt).tvec s.thr.ctx).toNat / 4 * 4) }
  running : t.tid = s.tid
  others : ∀ u, u ≠ s.tid → t.thread u = s.thread u
  memory : t.mem = s.mem ∧ t.full = s.full ∧ t.copies = s.copies ∧ t.l2 = s.l2
  units : t.cores = s.cores ∧ t.clusters = s.clusters ∧ t.prts = s.prts ∧ t.regions = s.regions

/-! ## Memory accesses (R331) -/

/-- An access of `n` bytes at `va` passes every check of R331 with its bytes at the homes `ps`: none
is locked by a matrix tile (R209) or behind a stopped clock (R20) and, for one that returns data, none has
an uncorrectable error. -/
structure Reaches (s : State) (k : AccKind) (va n : Nat) (ps : List Part) : Prop where
  homes : s.xlate s.tid k va n = .ok ps
  unlocked : ∀ p ∈ ps, s.accLocked s.tid p = false
  clocked : ∀ p ∈ ps, s.reaches (clusterDie (s.tid / 128)) p.pa = true
  sound : k.rd = true → k.noData = false → ∀ p ∈ ps, s.poisoned p.pa p.n = false

/-- The thread has no relaxed count and no relaxed access outstanding (R232). -/
def Plain (s : State) : Prop := s.thr.rlx = 0 ∧ s.thr.rlxOut = []

/-- No stale copy of the part's words stands where the thread reads: in its cluster's L1 or at the home of
its die (R223, R225). -/
def Current (s : State) (p : Part) : Prop :=
  ∀ c ∈ s.copies, c.addr ∈ wordsOf p.pa p.n →
    c.level = s.tid / 128 ∨ c.level = dieLevel (clusterDie (s.tid / 128)) → c.val.toNat = s.readHome c.addr 8

/-- The home addresses of an access's bytes, in order. -/
def homeBytes (ps : List Part) : List Nat := ps.flatMap (fun p => List.range' p.pa p.n)

/-- The number that the access's bytes hold, the first byte lowest (R4). -/
def State.valueAt (s : State) (ps : List Part) : Nat := leNat ((homeBytes ps).map s.byteAt)

/-- An aligned atomic, full-empty or counter access of a thread with nothing relaxed, to a word that no
other thread waits at: its bytes are one part at their home, and no halt holds the reply (R73). -/
structure AtWord (s : State) (k : AccKind) (va n : Nat) (p : Part) : Prop where
  aligned : va % n = 0
  reaches : Reaches s k va n [p]
  size : p.n = n
  plain : Plain s
  alone : s.waiters = []
  running : s.prtRuns (some s.thr.prt) = true

/-- What a memory access leaves alone: everything but the running thread, its core's TLB (R245), the contents of
the L1s and of the L2 with the slices that have held a block and the lines the host has taken (R60, R222 to R225),
the count of lines moved in a rehash (R110), the counter of free choices, memory, full bits and errors. -/
structure Accessed (s t : State) : Prop where
  rest : { t with threads := s.threads, cores := s.cores, copies := s.copies, l2 := s.l2, l2used := s.l2used
                  fresh := s.fresh, mem := s.mem, full := s.full, poison := s.poison, hif := s.hif, resize := s.resize } = s
  host : { t.hif with lines := s.hif.lines } = s.hif
  moves : ∃ n, t.resize = s.resize.map (fun z => { z with moved := n })
  others : ∀ u, u ≠ s.tid → t.thread u = s.thread u
  cores : ∀ c, { t.core c with tlb := (s.core c).tlb } = s.core c

/-- No byte of memory and no full bit changed. -/
def SameMemory (s t : State) : Prop := (∀ a, t.byteAt a = s.byteAt a) ∧ ∀ a, t.fullAt a = s.fullAt a

/-- The bytes `as` hold `x`, the first lowest, and every other byte reads as before. -/
def Stored (s t : State) (as : List Nat) (x : Nat) : Prop :=
  (∀ i, i < as.length → t.byteAt (as.getD i 0) = BitVec.ofNat 8 (x / 256 ^ i)) ∧
    ∀ a, a ∉ as → t.byteAt a = s.byteAt a

/-- What the fetch of the word in part `p` by the running thread leaves alone: everything but the order of its
core's TLB (R245), the line its cluster's instruction cache gains (R202), the L2, which may gain the block of
that line and give up others with their copies (R224), the count of lines moved in a rehash (R110) and the counter
of free choices. -/
structure Fetches (s t : State) (p : Part) : Prop where
  rest : { t with cores := s.cores, clusters := s.clusters, copies := s.copies, l2 := s.l2, l2used := s.l2used
                  fresh := s.fresh, resize := s.resize } = s
  cores : ∀ c, { t.core c with tlb := (s.core c).tlb } = s.core c
  core : ∀ c, c ≠ s.tid / 16 → t.core c = s.core c
  clusters : ∀ m, { t.clu m with icache := (s.clu m).icache } = s.clu m
  cluster : ∀ m, m ≠ s.tid / 128 → t.clu m = s.clu m
  copies : ∀ c ∈ t.copies, c ∈ s.copies
  blocks : ∀ y ∈ t.l2, (∃ x ∈ s.l2, y.die = x.die ∧ y.blk = x.blk) ∨
    (y.die = clusterDie (s.tid / 128) ∧ ∃ h ∈ s.lineHomes p, y.blk = h / 512 ∨ y.blk = (h + 32) / 512)
  moves : ∃ n, t.resize = s.resize.map (fun z => { z with moved := n })

/-- The thread's record after an access that wrote no register; the note of an awaited SEND may go. -/
def Thread.Did (th th' : Thread) : Prop := th' = { th.doneAt (th.pc + 4) with word := th'.word }

/-- The thread's record after an access that wrote `x` to register field `d`. -/
structure Took (s t : State) (d : GReg) (x : W64) : Prop where
  rest : t.thr = { s.thr.doneAt (s.thr.pc + 4) with g := t.thr.g, h := t.thr.h, word := t.thr.word }
  regs : ∀ n, t.g n = if n = d ∧ n ≠ 0 then x else s.g n

/-! ## Fabric -/

/-- R151: the token has entered every place of the site that selects source `src`, behind what was there;
the other places hold what they held. -/
def Site.Gets (x y : Site) (src : Nat) (tok : Token) : Prop :=
  ∀ p < 7, y.buf p = if p ∈ swDests x.cfg src then x.buf p ++ [tok] else x.buf p

/-! ## Whole-machine safety -/

/-- Every byte of the package's memory is held once, in address order, and zero bytes are not held. -/
def State.Inv (s : State) : Prop := Memory.wf s.mem = true

/-- A step that stops: no state a C3 can reach makes one (the agenda holds units of the package). -/
def Stops (s : State) : Prop := ∀ t, step s ≠ .next t

end Sys2Proof.Machine
end

