-- ==== Sys2Proof/Certificates/Slice0/Obligations.lean ====
section
/-!
DEFINITION. The statements about the model. Each docstring names the rules of spec/ it formalises; a
statement without a rule's name in its list of cites says so in OBLIGATIONS.json (basis derived).
-/

open Sys2Proof Sys2Proof.Machine

/-! ## Integer, immediate, address and predicate instructions (R315 to R325) -/

/-- R315: the two-operand operations. Each writes its result to g[d] and nothing else but the pc. -/
def Obligations.IntegerResults : Prop :=
  ∀ (s : State) (d a b : GReg),
    let x := s.g a
    let y := s.g b
    let n := y.toNat % 64
    let clamp (v : Int) : Int := max (-(2 ^ 63)) (min v (2 ^ 63 - 1))
    Completes (.add d a b) s (Wrote s · d (x + y)) ∧
    Completes (.sub d a b) s (Wrote s · d (x - y)) ∧
    (∃ r : W64, r.toInt = clamp (x.toInt + y.toInt) ∧ Completes (.adds d a b) s (Wrote s · d r)) ∧
    (∃ r : W64, r.toInt = clamp (x.toInt - y.toInt) ∧ Completes (.subs d a b) s (Wrote s · d r)) ∧
    Completes (.mul d a b) s (Wrote s · d (x * y)) ∧
    Completes (.mulh d a b) s (Wrote s · d (BitVec.ofInt 64 (x.toInt * y.toInt / 2 ^ 64))) ∧
    Completes (.mulhn d a b) s (Wrote s · d (BitVec.ofNat 64 (x.toNat * y.toNat / 2 ^ 64))) ∧
    Completes (.and d a b) s (Wrote s · d (x &&& y)) ∧
    Completes (.or d a b) s (Wrote s · d (x ||| y)) ∧
    Completes (.xor d a b) s (Wrote s · d (x ^^^ y)) ∧
    Completes (.shl d a b) s (Wrote s · d (x <<< n)) ∧
    Completes (.shr d a b) s (Wrote s · d (x >>> n)) ∧
    Completes (.sra d a b) s (Wrote s · d (x.sshiftRight n)) ∧
    Completes (.min d a b) s (Wrote s · d (if x.toInt < y.toInt then x else y)) ∧
    Completes (.max d a b) s (Wrote s · d (if x.toInt < y.toInt then y else x)) ∧
    Completes (.minn d a b) s (Wrote s · d (if x.toNat < y.toNat then x else y)) ∧
    Completes (.maxn d a b) s (Wrote s · d (if x.toNat < y.toNat then y else x))

/-- R316: quotients and remainders, with the cases that have no ordinary result. -/
def Obligations.DivideResults : Prop :=
  ∀ (s : State) (d a b : GReg),
    let x := s.g a
    let y := s.g b
    ∃ q uq r ur : W64,
      Completes (.div d a b) s (Wrote s · d q) ∧ Completes (.divn d a b) s (Wrote s · d uq) ∧
      Completes (.rem d a b) s (Wrote s · d r) ∧ Completes (.remn d a b) s (Wrote s · d ur) ∧
      (y = 0 → q = 0xFFFFFFFFFFFFFFFF ∧ uq = 0xFFFFFFFFFFFFFFFF ∧ r = x ∧ ur = x) ∧
      (x.toInt = -2 ^ 63 → y.toInt = -1 → q.toInt = -2 ^ 63 ∧ r = 0) ∧
      (y ≠ 0 → ¬ (x.toInt = -2 ^ 63 ∧ y.toInt = -1) →
        q.toInt = x.toInt.tdiv y.toInt ∧ r.toInt = x.toInt - y.toInt * x.toInt.tdiv y.toInt) ∧
      (y ≠ 0 → uq.toNat = x.toNat / y.toNat ∧ ur.toNat = x.toNat % y.toNat)

/-- R315: counts of leading zeros, trailing zeros and ones, and the reversal of the bits. -/
def Obligations.BitCountResults : Prop :=
  ∀ (s : State) (d a : GReg),
    let x := s.g a
    (∃ k, k ≤ 64 ∧ (∀ i, i < k → x.getLsbD (63 - i) = false) ∧
      (k < 64 → x.getLsbD (63 - k) = true) ∧
      Completes (.clz d a) s (Wrote s · d (BitVec.ofNat 64 k))) ∧
    (∃ k, k ≤ 64 ∧ (∀ i, i < k → x.getLsbD i = false) ∧ (k < 64 → x.getLsbD k = true) ∧
      Completes (.ctz d a) s (Wrote s · d (BitVec.ofNat 64 k))) ∧
    Completes (.popc d a) s (Wrote s · d
      (BitVec.ofNat 64 ((List.range 64).filter (fun i => x.getLsbD i)).length)) ∧
    (∃ r : W64, (∀ i, i < 64 → r.getLsbD i = x.getLsbD (63 - i)) ∧
      Completes (.brev d a) s (Wrote s · d r))

/-- R318 to R321: the immediate forms, LIH, ADDPC, and the bit fields of EXT and INS. -/
def Obligations.ImmediateResults : Prop :=
  ∀ (s : State) (d a : GReg) (imm : BitVec 14) (sh w p : BitVec 6) (k : BitVec 2),
    let x := s.g a
    let si : W64 := imm.signExtend 64
    let zi : W64 := imm.setWidth 64
    Completes (.addi d a imm) s (Wrote s · d (x + si)) ∧
    Completes (.andi d a imm) s (Wrote s · d (x &&& zi)) ∧
    Completes (.ori d a imm) s (Wrote s · d (x ||| zi)) ∧
    Completes (.xori d a imm) s (Wrote s · d (x ^^^ zi)) ∧
    Completes (.shli d a sh) s (Wrote s · d (x <<< sh.toNat)) ∧
    Completes (.shri d a sh) s (Wrote s · d (x >>> sh.toNat)) ∧
    Completes (.srai d a sh) s (Wrote s · d (x.sshiftRight sh.toNat)) ∧
    Completes (.lih d k imm) s (Wrote s · d (s.g d + si <<< (14 * (k.toNat + 1)))) ∧
    Completes (.addpc d imm) s (Wrote s · d (s.thr.pc + si)) ∧
    (WellFormed (.ext d a w p) = true → ∃ r : W64,
      (∀ i, i < 64 → r.getLsbD i = (decide (i < w.toNat + 1) && x.getLsbD (p.toNat + i))) ∧
      Completes (.ext d a w p) s (Wrote s · d r)) ∧
    (WellFormed (.ins d a w p) = true → ∃ r : W64,
      (∀ i, i < 64 → r.getLsbD i =
        if p.toNat ≤ i ∧ i < p.toNat + (w.toNat + 1) then x.getLsbD (i - p.toNat)
        else (s.g d).getLsbD i) ∧
      Completes (.ins d a w p) s (Wrote s · d r))

/-- R317, R322 to R325: SEL, LEA, SITE, CMP, CMPI and PLOG. SITE with field a zero gives the executing
slot's coordinates; a word of another package, and one no relocation entry covers, comes back as it is. -/
def Obligations.AddressAndPredicateResults : Prop :=
  ∀ (s : State) (d a b : GReg) (p q r : PReg) (cc : Cond) (imm : BitVec 14) (tt : BitVec 4)
    (sc : BitVec 2),
    let x := s.g a
    let w : W32 := x.setWidth 32
    Completes (.sel d q a b) s (Wrote s · d (if s.p q then x else s.g b)) ∧
    Completes (.lea d a b sc) s (Wrote s · d (x + s.g b <<< sc.toNat)) ∧
    (a = 0 → Completes (.site d a) s (Wrote s · d ((slotSite s.pkg s.tid).setWidth 64))) ∧
    (a ≠ 0 → Completes (.site d a) s (Wrote s · d ((s.relocate s.thr.prt w).setWidth 64))) ∧
    (a ≠ 0 → (sitePkg w ≠ s.pkg ∨ ∀ e ∈ (s.prt s.thr.prt).reloc, e.2.covers w = false) →
      Completes (.site d a) s (Wrote s · d (w.setWidth 64))) ∧
    (∃ t : Bool, (t = true ↔ cc.holds x (s.g b)) ∧ Completes (.cmp p cc a b) s (WroteP s · p t)) ∧
    (∃ t : Bool, (t = true ↔ cc.holds x (cc.extend imm)) ∧
      Completes (.cmpi p cc a imm) s (WroteP s · p t)) ∧
    Completes (.plog p q r tt) s (WroteP s · p (tt.getLsbD (2 * (s.p q).toNat + (s.p r).toNat)))

/-! ## Control (R326 to R329, R412, R413, R384) -/

/-- R326, R327: the branch is taken exactly when the predicate equals the sense; jumps always go; JAL links in
g55 even while UIIN is 1; JR reads its target before it writes the link and ignores the target's low two
bits. R317, R328, R338, R416: YIELD, HINT, PREF and BRK with BRKEN 0 change the pc only, and BRK with BRKEN 1
halts a running package with CAUSE BRK. -/
def Obligations.ControlResults : Prop :=
  ∀ (s : State) (p : PReg) (sense : Bool) (o22 : BitVec 22) (o26 : BitVec 26) (a b : GReg) (l n : BitVec 6),
    let next := s.thr.pc + 4
    let brken := (s.prt s.thr.prt).dbgctl.getLsbD 0
    (s.p p = sense → Completes (.br p sense o22) s (Moved s · (s.thr.pc + 4 * o22.signExtend 64))) ∧
    (s.p p ≠ sense → Completes (.br p sense o22) s (Moved s · next)) ∧
    Completes (.jmp o26) s (Moved s · (s.thr.pc + 4 * o26.signExtend 64)) ∧
    Completes (.jal o26) s (fun t => OnlyThread s t ∧
      t.thr = { s.thr.doneAt (s.thr.pc + 4 * o26.signExtend 64) with g := t.thr.g } ∧
      ∀ k, t.thr.g.look 0 k = if k = 55 then next else s.thr.g.look 0 k) ∧
    Completes (.jr a b) s (fun t => OnlyThread s t ∧
      t.thr = { s.thr.doneAt (s.g a &&& ~~~3) with g := t.thr.g, h := t.thr.h } ∧
      ∀ k, t.g k = if k = b ∧ k ≠ 0 then next else s.g k) ∧
    Completes .yield s (Moved s · next) ∧ Completes (.hint n) s (Moved s · next) ∧
    Completes (.pref a l) s (Moved s · next) ∧
    (brken = false → Completes .brk s (Moved s · next)) ∧
    (brken = true → s.dbg.toc = .running → Completes .brk s (fun t => t.dbg.toc = .halting ∧
      t.dbg.cause = 1 ∧ t.thr = s.thr.doneAt next))

/-- R329, R412, R256: TRAP and SVC enter the handler with the immediate in TVAL and TEPC at the next
instruction. -/
def Obligations.TrapInstructions : Prop :=
  ∀ (s : State) (imm : BitVec 14), Vectored s →
    Completes (.trap imm) s (Trapped s · 6 (imm.signExtend 64) 0) ∧
    Completes (.svc imm) s (Trapped s · 12 (imm.signExtend 64) 0)

/-- R256, R299, R413, R384: an unassigned word traps ILL with TVAL the word; TRET traps PRIV at user
privilege inside a handler, which ends the thread, and ILL with INTRAP 0 at either privilege, since ILL ranks
before PRIV (R255); UIRET traps ILL with UIIN 0, each with TVAL its word. -/
def Obligations.IllegalTraps : Prop :=
  ∀ (s : State) (w : W32), Vectored s →
    Completes (.unassignedEncoding w) s (Trapped s · 1 (w.setWidth 64) 0) ∧
    Completes .tret s (Trapped s · 1 0xFC002001 0) ∧
    (∀ u : State, u.thr.intrap = true → u.thr.sup = false →
      Completes .tret u (fun t => t.thr.st = .empty)) ∧
    (s.thr.uiin = false → Completes .uiret s (Trapped s · 1 0x78000006 0))

/-- R256, R413, R384: the two returns give back the pc, the privilege and the relaxed count that the
entry saved. That UIRET gives back the privilege a user handler interrupted, and that a saved count above 8 comes
back as 8, is the model's choice (log 50). -/
def Obligations.Returns : Prop :=
  ∀ (s : State),
    (s.thr.sup = true → s.thr.intrap = true → Completes .tret s (fun t => OnlyThread s t ∧
      t.thr = { s.thr with pc := s.thr.tepc, sup := s.thr.prev, rlx := min 8 s.thr.tRlx.toNat
                           intrap := false, st := .ready })) ∧
    (s.thr.uiin = true → Completes .uiret s (fun t => OnlyThread s t ∧
      t.thr = { s.thr with pc := s.thr.uiepc, rlx := min 8 s.thr.uiRlx.toNat, uiin := false
                           sup := s.thr.sup || s.thr.uiSup, uiSup := false, st := .ready }))

/-- R328, R257: EXIT, and a TRAP inside a handler, leave the slot EMPTY with its flags, predicates and
trap state gone. -/
def Obligations.ThreadEnds : Prop :=
  ∀ (s : State) (imm : BitVec 14),
    let ended (t : State) : Prop := t.thr.st = .empty ∧ t.thr.fflags = 0 ∧ t.thr.p = 0 ∧
      t.thr.intrap = false ∧ t.thr.uiin = false ∧ t.thr.uiPend = [] ∧ t.thr.rlxOut = []
    Completes .exit s ended ∧ (s.thr.intrap = true → Completes (.trap imm) s ended)

/-! ## Memory (R330 to R345) -/

/-- R332, R333: a load whose bytes lie on uncached pages or in SRAM, or on cached pages of which no stale copy
stands where the thread reads, gives the little-endian number its homes hold; no byte of memory and no full bit
changes. Outside the thread only its core's TLB, the L1s, the L2, the host's lines, a rehash's line count and the
counter of free choices may differ. It rests on the model's choices of log 7. -/
def Obligations.LoadResults : Prop :=
  ∀ (s : State) (d base : GReg) (vd : VReg) (off : BitVec 10) (sz : MSize) (sx ord : Bool)
    (ps : List Part), Plain s → (∀ p ∈ ps, p.cached = true → Current s p) →
    (Reaches s .load (s.ea base off (sizeBytes sz)) (sizeBytes sz) ps →
      Completes (.ld d base off sz sx ord) s (fun t => Accessed s t ∧ SameMemory s t ∧
        Took s t d (if sx then sext64 (8 * sizeBytes sz) (s.valueAt ps)
          else BitVec.ofNat 64 (s.valueAt ps)))) ∧
    (Reaches s .load (s.ea base off 32) 32 ps →
      Completes (.ldv vd base off ord) s (fun t => Accessed s t ∧ SameMemory s t ∧
        t.thr = { s.thr.doneAt (s.thr.pc + 4) with v := t.thr.v } ∧
        ∀ n, t.v n = if n = vd then BitVec.ofNat 256 (s.valueAt ps) else s.v n))

/-- R332, R333: a store writes the low bytes of its register to the homes of its effective address, the
lowest first; every other byte reads as before, no full bit changes, and the registers stay.
It rests on the model's choices of log 7. -/
def Obligations.StoreResults : Prop :=
  ∀ (s : State) (src base : GReg) (vs : VReg) (off : BitVec 10) (sz : MSize) (ord : Bool)
    (ps : List Part), Plain s → s.waiters = [] → (homeBytes ps).Nodup →
    (Reaches s .store (s.ea base off (sizeBytes sz)) (sizeBytes sz) ps →
      Completes (.st src base off sz ord) s (fun t => Accessed s t ∧
        t.thr = s.thr.doneAt (s.thr.pc + 4) ∧ (∀ a, t.fullAt a = s.fullAt a) ∧
        Stored s t (homeBytes ps) ((s.g src).toNat % 256 ^ sizeBytes sz))) ∧
    (Reaches s .store (s.ea base off 32) 32 ps →
      Completes (.stv vs base off ord) s (fun t => Accessed s t ∧
        t.thr = s.thr.doneAt (s.thr.pc + 4) ∧ (∀ a, t.fullAt a = s.fullAt a) ∧
        Stored s t (homeBytes ps) (s.v vs).toNat))

/-- R334 to R337: STE, FESET and FECLR never wait; LDF takes a full word and STF an empty one at once.
Each leaves the bit of its word as R334 says, and every other bit as it was. -/
def Obligations.FullEmptyResults : Prop :=
  ∀ (s : State) (a b d base : GReg) (off : BitVec 10) (clr ord : Bool) (p : Part),
    let bit (t : State) (f : Bool) : Prop :=
      t.fullAt p.pa = f ∧ ∀ x, x / 8 ≠ p.pa / 8 → t.fullAt x = s.fullAt x
    let same (t : State) : Prop := ∀ x, t.byteAt x = s.byteAt x
    let done (t : State) : Prop := s.thr.Did t.thr
    (AtWord s feKind (s.g a).toNat 8 p → Completes (.ste a b) s (fun t => Accessed s t ∧ done t ∧
      Stored s t (homeBytes [p]) (s.g b).toNat ∧ bit t false)) ∧
    (AtWord s feKind (s.g a).toNat 8 p → Completes (.feset a) s (fun t =>
      Accessed s t ∧ done t ∧ same t ∧ bit t true)) ∧
    (AtWord s feKind (s.g a).toNat 8 p → Completes (.feclr a) s (fun t =>
      Accessed s t ∧ done t ∧ same t ∧ bit t false)) ∧
    (AtWord s feKind (s.ea base off 8) 8 p → s.fullAt p.pa = true → s.poisoned p.pa 8 = false →
      Completes (.ldf d base off clr ord) s (fun t => Accessed s t ∧ same t ∧ bit t (!clr) ∧
        Took s t d (BitVec.ofNat 64 (s.valueAt [p])))) ∧
    (AtWord s feKind (s.ea base off 8) 8 p → s.fullAt p.pa = false →
      Completes (.stf d base off ord) s (fun t => Accessed s t ∧ done t ∧
        Stored s t (homeBytes [p]) (s.g d).toNat ∧ bit t true))

/-- R337: a full-empty instruction whose condition does not hold waits in MEMORY at its word's home and
has changed no byte and no full bit. -/
def Obligations.FullEmptyWaits : Prop :=
  ∀ (s : State) (d base : GReg) (off : BitVec 10) (clr ord : Bool) (p : Part)
    (fn : AmoFn) (a b c : GReg) (rel acq : Bool),
    let waits (t : State) : Prop := t.thr.st = .memory ∧ t.thr.pc = s.thr.pc ∧ SameMemory s t ∧
      (∀ n, t.g n = s.g n) ∧ t.waiters.length = 1
    (AtWord s feKind (s.ea base off 8) 8 p → s.fullAt p.pa = false →
      Completes (.ldf d base off clr ord) s waits) ∧
    (AtWord s feKind (s.ea base off 8) 8 p → s.fullAt p.pa = true →
      Completes (.stf d base off ord) s waits) ∧
    (AtWord s feKind (s.g a).toNat 8 p → s.fullAt p.pa = false →
      Completes (.amof fn a b c rel acq) s waits)

/-- R339, R340: RLX sets the count. R223, R234: FENCE of any scope, with no relaxed access outstanding, leaves
memory and every register as they are; one of DIE scope or wider leaves in its cluster's L1 no copy but of
registered words. R231, R233, R239: one of PACKAGE scope or wider leaves no word of its die's L1s unwritten and no
older value at the other die's home, and one of SYSTEM scope none in memory.
It rests on the model's choices of log 7. -/
def Obligations.RelaxationAndFences : Prop :=
  ∀ (s : State) (n1 : BitVec 3) (sc : Scope),
    Completes (.rlx n1) s (fun t => OnlyThread s t ∧
      t.thr = { s.thr.doneAt (s.thr.pc + 4) with rlx := n1.toNat + 1 }) ∧
    (s.thr.rlxOut = [] → Completes (.fence sc) s (fun t => Accessed s t ∧ SameMemory s t ∧
      t.thr = s.thr.doneAt (s.thr.pc + 4) ∧
      (3 ≤ scopeCode sc → ∀ c ∈ t.copies, c.level = s.tid / 128 → c.reg = true) ∧
      (4 ≤ scopeCode sc → ∀ c ∈ t.copies, c.level ≠ dieLevel (1 - clusterDie (s.tid / 128)) ∧
        (c.level < 256 → clusterDie c.level = clusterDie (s.tid / 128) → c.dirty = false)) ∧
      (scopeCode sc = 5 → ∀ c ∈ t.copies, c.level ≠ hostLevel)))

/-- R232: under a relaxed count a load, a store, STE, FESET, FECLR, an AMO or a CAS whose ordering bits are clear
becomes outstanding, the count falls by one, the thread goes on, and no byte of memory and no register has changed; with 8 outstanding it
waits in MEMORY. It rests on the model's choices of log 8. -/
def Obligations.RelaxedIssue : Prop :=
  ∀ (s : State) (fn : AmoFn) (a b c d base : GReg) (v : VReg) (off : BitVec 10) (sz : MSize) (sx dbl : Bool)
    (ps : List Part) (p : Part), 0 < s.thr.rlx →
    let same (t : State) : Prop := SameMemory s t ∧ (∀ n, t.g n = s.g n) ∧ ∀ n, t.v n = s.v n
    let issues (i : Instr) : Prop :=
      (s.thr.rlxOut.length < 8 → Completes i s (fun t => same t ∧ t.thr.st = .ready ∧ t.thr.pc = s.thr.pc + 4 ∧
        t.thr.rlx = s.thr.rlx - 1 ∧ t.thr.rlxOut.length = s.thr.rlxOut.length + 1)) ∧
      (8 ≤ s.thr.rlxOut.length → Completes i s (fun t => same t ∧ t.thr.st = .memory ∧ t.thr.pc = s.thr.pc ∧
        t.thr.rlx = s.thr.rlx ∧ t.thr.rlxOut = s.thr.rlxOut))
    let n := if dbl then 8 else 4
    (Reaches s .load (s.ea base off (sizeBytes sz)) (sizeBytes sz) ps → issues (.ld d base off sz sx false)) ∧
    (Reaches s .store (s.ea base off (sizeBytes sz)) (sizeBytes sz) ps → issues (.st d base off sz false)) ∧
    (Reaches s .load (s.ea base off 32) 32 ps → issues (.ldv v base off false)) ∧
    (Reaches s .store (s.ea base off 32) 32 ps → issues (.stv v base off false)) ∧
    ((s.g a).toNat % 8 = 0 → Reaches s feKind (s.g a).toNat 8 [p] →
      issues (.ste a b) ∧ issues (.feset a) ∧ issues (.feclr a)) ∧
    ((s.g a).toNat % n = 0 → Reaches s .both (s.g a).toNat n [p] →
      issues (.amo fn a b c false false dbl) ∧ issues (.cas a b c false false dbl))

/-- R341 to R343: one read-modify-write at the home; g[c] receives the old value, sign-extended; only
the word's bytes change, and the full bits stay (AMOF needs its word full and leaves it full). -/
def Obligations.AtomicResults : Prop :=
  ∀ (s : State) (fn : AmoFn) (a b c : GReg) (rel acq dbl : Bool) (p : Part),
    let n := if dbl then 8 else 4
    let old : BitVec (8 * n) := BitVec.ofNat (8 * n) (s.valueAt [p])
    let x : BitVec (8 * n) := (s.g b).setWidth (8 * n)
    let took (t : State) : Prop := Accessed s t ∧ (∀ y, t.fullAt y = s.fullAt y) ∧
      Took s t c (old.signExtend 64)
    (AtWord s .both (s.g a).toNat n p → Completes (.amo fn a b c rel acq dbl) s (fun t =>
      took t ∧ Stored s t (homeBytes [p]) (fn.new old x).toNat)) ∧
    (AtWord s .both (s.g a).toNat n p → old = (s.g c).setWidth (8 * n) →
      Completes (.cas a b c rel acq dbl) s (fun t =>
        took t ∧ Stored s t (homeBytes [p]) x.toNat)) ∧
    (AtWord s .both (s.g a).toNat n p → old ≠ (s.g c).setWidth (8 * n) →
      Completes (.cas a b c rel acq dbl) s (fun t => took t ∧ ∀ y, t.byteAt y = s.byteAt y)) ∧
    (dbl = true → AtWord s feKind (s.g a).toNat 8 p → s.fullAt p.pa = true → s.poisoned p.pa 8 = false →
      Completes (.amof fn a b c rel acq) s (fun t =>
        took t ∧ Stored s t (homeBytes [p]) (fn.new old x).toNat))

/-- R240, R344, R331, R254, R335, R378: a misaligned atomic, full-empty or counter access traps ALIGN at its
address; an access whose translation faults traps with that cause, address and detail; a level selector in CNTADD
or BAR traps ACCESS; LDF or AMOF of a full word with an uncorrectable error traps MEMERR; a fetch that faults traps
with its fault. None performs anything. -/
def Obligations.AccessTraps : Prop :=
  ∀ (s : State) (fn : AmoFn) (d a b c base : GReg) (v : VReg) (off : BitVec 10) (sz : MSize) (f1 f2 dbl : Bool)
    (cause det : Nat) (tv : W64), Vectored s →
    let va := s.g a
    let ea := s.ea base off 8
    let at' := s.ea base off (sizeBytes sz)
    let n := if dbl then 8 else 4
    (va.toNat % n ≠ 0 →
      Completes (.amo fn a b c f1 f2 dbl) s (Trapped s · 3 va 2) ∧
      Completes (.cas a b c f1 f2 dbl) s (Trapped s · 3 va 2)) ∧
    (va.toNat % 8 ≠ 0 →
      Completes (.amof fn a b c f1 f2) s (Trapped s · 3 va 2) ∧
      Completes (.ste a b) s (Trapped s · 3 va 2) ∧ Completes (.feset a) s (Trapped s · 3 va 2) ∧
      Completes (.feclr a) s (Trapped s · 3 va 2)) ∧
    (va.toNat % 8 ≠ 0 → va.toNat / 2 ^ 56 ≠ 1 →
      Completes (.cntadd a b c) s (Trapped s · 3 va 2) ∧
      Completes (.bar a b) s (Trapped s · 3 va 2) ∧
      Completes (.cntwait a b c) s (Trapped s · 3 va 0)) ∧
    (ea % 8 ≠ 0 →
      Completes (.ldf a base off f1 f2) s (Trapped s · 3 (BitVec.ofNat 64 ea) 2) ∧
      Completes (.stf a base off f1) s (Trapped s · 3 (BitVec.ofNat 64 ea) 2)) ∧
    (va.toNat / 2 ^ 56 = 1 → Completes (.cntadd a b c) s (Trapped s · 5 va 2) ∧
      Completes (.bar a b) s (Trapped s · 5 va 2)) ∧
    (∀ p, s.poisoned p.pa 8 = true → s.fullAt p.pa = true →
      (AtWord s feKind ea 8 p → Completes (.ldf d base off f1 f2) s (fun t => SameMemory s t ∧
        t.thr.tcause.toNat % 256 = 13 ∧ t.thr.tval = BitVec.ofNat 64 ea ∧ t.thr.intrap = true)) ∧
      (AtWord s feKind va.toNat 8 p → Completes (.amof fn a b c f1 f2) s (fun t => SameMemory s t ∧
        t.thr.tcause.toNat % 256 = 13 ∧ t.thr.tval = va ∧ t.thr.intrap = true))) ∧
    (s.xlate s.tid .load at' (sizeBytes sz) = .fault cause det tv →
      Completes (.ld d base off sz f1 f2) s (Trapped s · cause tv det)) ∧
    (s.xlate s.tid .store at' (sizeBytes sz) = .fault cause det tv →
      Completes (.st d base off sz f1) s (Trapped s · cause tv det)) ∧
    (s.xlate s.tid .load (s.ea base off 32) 32 = .fault cause det tv →
      Completes (.ldv v base off f1) s (Trapped s · cause tv det)) ∧
    (s.xlate s.tid .store (s.ea base off 32) 32 = .fault cause det tv →
      Completes (.stv v base off f1) s (Trapped s · cause tv det)) ∧
    (va.toNat % n = 0 → s.xlate s.tid .both va.toNat n = .fault cause det tv →
      Completes (.amo fn a b c f1 f2 dbl) s (Trapped s · cause tv det) ∧
      Completes (.cas a b c f1 f2 dbl) s (Trapped s · cause tv det)) ∧
    (va.toNat % 8 = 0 → s.xlate s.tid feKind va.toNat 8 = .fault cause det tv →
      Completes (.amof fn a b c f1 f2) s (Trapped s · cause tv det) ∧
      Completes (.ste a b) s (Trapped s · cause tv det) ∧
      Completes (.feset a) s (Trapped s · cause tv det) ∧
      Completes (.feclr a) s (Trapped s · cause tv det)) ∧
    (ea % 8 = 0 → s.xlate s.tid feKind ea 8 = .fault cause det tv →
      Completes (.ldf d base off f1 f2) s (Trapped s · cause tv det) ∧
      Completes (.stf d base off f1) s (Trapped s · cause tv det)) ∧
    (s.fetch = .fault cause tv det → Completes .instructionFetchFault s (Trapped s · cause tv det))

/-! ## Synchronisation (R376 to R385) -/

/-- R379 to R381: CNTADD adds to its counter word and returns the old one; CNTWAIT of a word whose count
has been reached, and of a resolved counter's selector, returns the word, and the counter's READ is
then 1; the arrival that fills a barrier starts its next generation and goes on, an earlier one waits.
It rests on the model's choices of log 20. -/
def Obligations.CounterResults : Prop :=
  ∀ (s : State) (a b c : GReg) (p : Part),
    let kw : AccKind := { rd := true, wr := true, atomic := true, counter := true }
    let kr : AccKind := { rd := true, counter := true }
    let ea := s.g a
    let old := s.valueAt [p]
    let need := max 1 ((s.g b).toNat % 2 ^ 32)
    (ea.toNat / 2 ^ 56 ≠ 1 → AtWord s kw ea.toNat 8 p →
      Completes (.cntadd a b c) s (fun t => Accessed s t ∧ Took s t c (BitVec.ofNat 64 old) ∧
        Stored s t (homeBytes [p]) ((old + (s.g b).toNat) % 2 ^ 64))) ∧
    (ea.toNat / 2 ^ 56 ≠ 1 → AtWord s kr ea.toNat 8 p →
      (BitVec.ofNat 64 old - s.g b).toNat < 2 ^ 63 →
      Completes (.cntwait a b c) s (fun t => Accessed s t ∧ SameMemory s t ∧
        Took s t c (BitVec.ofNat 64 old))) ∧
    (ea.toNat / 2 ^ 56 = 1 → ∀ lvl i, lvl = fld ea 14 12 → i = fld ea 11 0 → 1 ≤ lvl → lvl ≤ 4 →
      i < fileSize lvl → (s.cntr s.thr.prt lvl i).resolved = true →
      Completes (.cntwait a b c) s (fun t => (t.cntr s.thr.prt lvl i).read = true ∧
        (t.cntr s.thr.prt lvl i).st = (s.cntr s.thr.prt lvl i).st ∧
        Took s t c (t.cntr s.thr.prt lvl i).word ∧ SameMemory s t)) ∧
    (ea.toNat / 2 ^ 56 ≠ 1 → AtWord s kw ea.toNat 8 p → s.thr.arrived = false →
      need ≤ old % 2 ^ 32 + 1 →
      Completes (.bar a b) s (fun t => t.thr.st = .ready ∧ t.thr.pc = s.thr.pc + 4 ∧
        t.thr.arrived = false ∧ (∀ n, t.g n = s.g n) ∧
        Stored s t (homeBytes [p]) ((old / 2 ^ 32 + 1) % 2 ^ 32 * 2 ^ 32))) ∧
    (ea.toNat / 2 ^ 56 ≠ 1 → AtWord s kw ea.toNat 8 p → s.thr.arrived = false →
      old % 2 ^ 32 + 1 < need →
      Completes (.bar a b) s (fun t => t.thr.st = .blocked ∧ t.thr.pc = s.thr.pc ∧
        t.thr.arrived = true ∧ Stored s t (homeBytes [p]) (old + 1)))

/-- R377: WAITW of a window of an armed region whose count has been reached writes 0 (an acquire), of an
undeclared one 1; otherwise it writes 2 once the launch has ended, and until then waits BLOCKED. -/
def Obligations.WindowWaits : Prop :=
  ∀ (s : State) (a b c : GReg),
    let slot := fld (s.g a) 11 0
    let r := s.region s.thr.prt slot
    let w := r.wins.look {} (fld (s.g a) 18 16)
    let due : W32 := (s.g b).setWidth 32
    let met := (w.count - due).toNat < 2 ^ 31
    let unknown := r.everArmed = false ∨ (w.decl = true ∧ ¬ met)
    (r.everArmed = true → w.decl = true → met →
      Completes (.waitw a b c) s (fun t => Accessed s t ∧ SameMemory s t ∧ Took s t c 0)) ∧
    (r.everArmed = true → w.decl = false → Completes (.waitw a b c) s (Wrote s · c 1)) ∧
    (unknown → (s.cntr s.thr.prt 1 slot).running = false →
      Completes (.waitw a b c) s (Wrote s · c 2)) ∧
    (unknown → (s.cntr s.thr.prt 1 slot).running = true →
      Completes (.waitw a b c) s (Waits s · .blocked))

/-- R382, R383, R385: SEND of a name that resolves to a core of the package puts a message in flight and
waits in MEMORY; RECV of an enabled queue takes its oldest entry; QWAIT returns a FIFO's pointer word
once it differs from g[b], and all ones where the word names no FIFO tile; a SITE word of a departed unit traps
REVOKED (R84).
It rests on the model's choices of logs 11, 42. -/
def Obligations.MessageAndQueueResults : Prop :=
  ∀ (s : State) (a b c : GReg),
    let n := fld (s.g a) 3 0
    let rq := (s.core (s.tid / 16)).rq.look {} (rqIdx s.thr.ctx n)
    let e := s.rqEntry (s.tid / 16) s.thr.ctx rq rq.head
    let name : W32 := (s.g a).setWidth 32
    (s.thr.rlxOut = [] → fld (s.prt s.thr.prt).epdir 4 0 ≠ 0 →
      (s.clu (s.tid / 128)).epCache = [] → ∀ w0 core pc k,
      s.epLook s.thr.prt name = some (w0, core, pc) → sitePkg (BitVec.ofNat 32 core) = s.pkg →
      s.coreOf s.thr.prt (BitVec.ofNat 32 core) = some k →
      Completes (.send a b c) s (fun t => t.thr.st = .memory ∧ t.thr.pc = s.thr.pc ∧
        SameMemory s t ∧ ∃ m, t.msgs = s.msgs ++ [m] ∧ m.name = name ∧ m.w0 = s.g b ∧
          m.w1 = s.g c ∧ m.core = k ∧ m.sender = some s.tid ∧ m.prt = s.thr.prt)) ∧
    (rq.enable = true → rq.head ≠ rq.tail → (s.core (s.tid / 16)).recvWait = [] → b ≠ c → b ≠ 0 →
      c ≠ 0 → Completes (.recv a b c) s (fun t => SameMemory s t ∧ t.thr.pc = s.thr.pc + 4 ∧
        t.g b = BitVec.ofNat 64 (s.readHome e 8) ∧ t.g c = BitVec.ofNat 64 (s.readHome (e + 8) 8) ∧
        (∀ m, m ≠ b → m ≠ c → t.g m = s.g m) ∧
        ((t.core (s.tid / 16)).rq.look {} (rqIdx s.thr.ctx n)).head =
          (rq.head + 1) % (rq.cap + 1))) ∧
    (rq.enable = true → rq.head = rq.tail →
      Completes (.recv a b c) s (fun t => t.thr.st = .blocked ∧ t.thr.pc = s.thr.pc ∧
        SameMemory s t)) ∧
    (s.siteRevoked s.thr.prt name = true → Vectored s →
      Completes (.qwait a b c) s (Trapped s · 8 (name.setWidth 64) 0)) ∧
    (s.siteRevoked s.thr.prt name = false → s.fifoSite name = none →
      Completes (.qwait a b c) s (Wrote s · c 0xFFFFFFFFFFFFFFFF)) ∧
    (∀ i sl r, s.siteRevoked s.thr.prt name = false → s.fifoSite name = some (i, sl, r) →
      let w := (r.site i).head + (r.site i).tail * 2 ^ 16
      (w ≠ fld (s.g b) 27 0 → Completes (.qwait a b c) s (Wrote s · c (BitVec.ofNat 64 w))) ∧
      (w = fld (s.g b) 27 0 → Completes (.qwait a b c) s (Waits s · .blocked)))

/-! ## Scalar floating point (R346 to R358) -/

/-- R346 to R354, R358: each operation writes its rounded result to g[d] and ORs its flags into FFLAGS,
whatever the operands, unless R349 traps a subnormal operand.
It rests on the model's choices of log 6. -/
def Obligations.ScalarFloatResults : Prop :=
  ∀ (s : State) (f : SFmt) (d a b : GReg) (rm : Rm) (g : Fmt) (p : PReg) (sig : Bool) (cc : BitVec 3)
    (mode : BitVec 2),
    let F := f.fmt
    let x := s.f f a
    let y := s.f f b
    let z := s.f f d
    let out (r : Nat × FP.Flags) (t : State) : Prop := Wrote s t d (BitVec.ofNat 64 r.1) r.2
    (NoSubnormTrap s (FP.isSub F x || FP.isSub F y) →
      Completes (.fadd f d a b rm) s (out (FP.add F rm x y)) ∧
      Completes (.fsub f d a b rm) s (out (FP.sub F rm x y)) ∧
      Completes (.fmul f d a b rm) s (out (FP.mul F rm x y)) ∧
      Completes (.frcpr f d a b rm) s (out (FP.newton F rm false x y)) ∧
      Completes (.frsqr f d a b rm) s (out (FP.newton F rm true x y))) ∧
    (NoSubnormTrap s (FP.isSub F x || FP.isSub F y || FP.isSub F z) →
      Completes (.ffma f d a b rm) s (out (FP.fma F rm x y z))) ∧
    (NoSubnormTrap s (FP.isSub F x) →
      Completes (.frcp f d a) s (out (FP.approxRecip F false x)) ∧
      Completes (.frsq f d a) s (out (FP.approxRecip F true x)) ∧
      Completes (.fcvt f d a g rm) s (out (FP.cvt F g rm false x)) ∧
      Completes (.fcvti f d a g rm) s (fun t => Wrote s t d (BitVec.ofInt 64 (FP.toInt F g rm x).1)
        (FP.toInt F g rm x).2)) ∧
    Completes (.icvt f d a g rm) s
      (out (FP.ofInt F rm false (FP.readInt g ((s.g a).toNat % 2 ^ g.width)))) ∧
    Completes (.fmin f d a b) s (out (FP.minmax F false x y)) ∧
    Completes (.fmax f d a b) s (out (FP.minmax F true x y)) ∧
    Completes (.fcmp f p a b sig cc) s (fun t => ∃ r fl, WroteP s t p r fl) ∧
    Completes (.fclass f d a) s (fun t => ∃ r, Wrote s t d r) ∧
    Completes (.fsgn f d a b mode) s (fun t => ∃ r, Wrote s t d r)

/-- R355 to R357: FCMP writes the predicate its relation gives, a comparison of the two numbers that takes −0
for +0, with R355's answers where an operand is a NaN, and raises NV for a signalling NaN, or with .sig for any
NaN; FCLASS sets exactly the bit of its operand's class and no flag; FSGN writes the magnitude of a under the
sign of b, its inverse, or the exclusive-or of the signs, and no flag. They complete on every operand. -/
def Obligations.ScalarFloatTests : Prop :=
  ∀ (s : State) (f : SFmt) (p : PReg) (d a b : GReg) (sig : Bool) (cc : BitVec 3) (mode : BitVec 2),
    let F := f.fmt
    let w := F.width
    let x := s.f f a
    let y := s.f f b
    let top (v : Nat) : Bool := v.testBit (w - 1)
    let un := FP.isNan F x || FP.isNan F y
    let nv : FP.Flags := if FP.isSnan F x || FP.isSnan F y || (sig && un) then 16 else 0
    let key (v : Nat) : Int := if top v then -((v % 2 ^ (w - 1) : Nat) : Int) else ((v % 2 ^ (w - 1) : Nat) : Int)
    let r : Bool :=
      if un then decide (cc = 1 ∨ cc = 6)
      else decide ((cc = 0 ∧ key x = key y) ∨ (cc = 1 ∧ key x ≠ key y) ∨ (cc = 2 ∧ key x < key y) ∨
        (cc = 3 ∧ key x ≤ key y) ∨ (cc = 4 ∧ key y < key x) ∨ (cc = 5 ∧ key y ≤ key x) ∨ cc = 7)
    let cls : Nat :=
      if FP.isSnan F x then 8 else if FP.isNan F x then 9
      else if FP.isInf F x then (if top x then 0 else 7)
      else if FP.isZero F x then (if top x then 3 else 4)
      else if FP.isSub F x then (if top x then 2 else 5)
      else if top x then 1 else 6
    Completes (.fcmp f p a b sig cc) s (WroteP s · p r nv) ∧
    Completes (.fclass f d a) s (Wrote s · d (BitVec.ofNat 64 (2 ^ cls))) ∧
    (mode.toNat ≤ 2 → ∃ r, r % 2 ^ (w - 1) = x % 2 ^ (w - 1) ∧ r < 2 ^ w ∧
      top r = (if mode = 0 then top y else if mode = 1 then !top y else top x ^^ top y) ∧
      Completes (.fsgn f d a b mode) s (Wrote s · d (BitVec.ofNat 64 r)))

/-- R349, R260: at user privilege with SNEN 1, a checked instruction with a subnormal source operand, in any source
position and any source lane, writes no register and no flag. With UIIN 0 it enters the SNVEC handler with the
pc in h7 and the word in h6; with UIIN 1 it traps SUBNORM through TVEC (R256). -/
def Obligations.SubnormalTraps : Prop :=
  ∀ (s : State) (f : SFmt) (ty : ETy) (d a b : GReg) (vd va vb : VReg) (rm : Rm) (g h : Fmt) (bc sat : Bool)
    (k : BitVec 2),
    s.thr.sup = false → s.thr.snvec.getLsbD 0 = true →
    let traps (i : Instr) : Prop := ∀ w, encode i = some w →
      (s.thr.uiin = false → Completes i s (fun t => t.mem = s.mem ∧ (∀ u, u ≠ s.tid → t.thread u = s.thread u) ∧
        t.thr = { s.thr with
          uiepc := (s.thr.pc + 4) &&& ~~~3, uicause := 0x8000000000000007, uiRlx := BitVec.ofNat 4 s.thr.rlx
          rlx := 0, uiin := true, uiSup := false, h := t.thr.h
          pc := BitVec.ofNat 64 (s.thr.snvec.toNat / 4 * 4) } ∧
        t.thr.h.look 0 7 = s.thr.pc ∧ t.thr.h.look 0 6 = w.setWidth 64)) ∧
      (s.thr.uiin = true → Vectored s → Completes i s (Trapped s · 7 (w.setWidth 64) 0))
    let sub (r : GReg) : Prop := FP.isSub f.fmt (s.f f r) = true
    let lanes (F : Fmt) (r : VReg) : Prop := ∃ i < 256 / F.width, FP.isSub F (lane F.width (s.v r).toNat i) = true
    let group (F : Fmt) : Prop := ∃ e < max F.perReg g.perReg,
      FP.isSub F (lane F.width (s.thr.readV (va.toNat + e / F.perReg)).toNat (e % F.perReg)) = true
    (sub a → traps (.frcp f d a) ∧ traps (.frsq f d a) ∧ traps (.fcvt f d a g rm) ∧ traps (.fcvti f d a g rm)) ∧
    (sub a ∨ sub b → traps (.fadd f d a b rm) ∧ traps (.fsub f d a b rm) ∧ traps (.fmul f d a b rm) ∧
      traps (.frcpr f d a b rm) ∧ traps (.frsqr f d a b rm)) ∧
    (sub a ∨ sub b ∨ sub d → traps (.ffma f d a b rm)) ∧
    (ty.isFloat = true →
      let F := ty.fmt
      (lanes F va → traps (.vscale vd va vb ty rm bc) ∧ traps (.vred vd va ty rm 0)) ∧
      (lanes F va ∨ lanes F vb → traps (.vadd vd va vb ty rm 0) ∧ traps (.vsub vd va vb ty rm 0) ∧
        traps (.vmul vd va vb ty rm 0)) ∧
      (lanes F va ∨ lanes F vb ∨ lanes F vd → traps (.vfma vd va vb ty rm 0)) ∧
      (ty ≠ .f64 → lanes F va ∨ lanes F vb ∨ lanes (if ty = .f32 then .f64 else .f32) vd →
        traps (.vdot vd va vb ty rm 0)) ∧
      (group F → traps (.vcvt vd va g ty rm sat))) ∧
    (descFmt (s.thr.ftk k.toNat) = some h → h.isFloat = true → h ≠ .b4 → h ≠ g → cvtFits vd va h g = true →
      group h → traps (.vcvtDesc vd va g k))

/-- R278, R279, R350, R351, R353: NaN operands give the first NaN, quieted, with NV for a signalling one;
∞ − ∞ and 0 × ∞ give the default NaN with NV; 1/±0 is ±∞ with DZ, 1/±∞ is ±0, and the reciprocal square
root of a negative number is the default NaN with NV. -/
def Obligations.FloatSpecialValues : Prop :=
  ∀ (f : SFmt) (rm : Rm) (x y : Nat),
    let F := f.fmt
    let nv : FP.Flags := if FP.isSnan F x || FP.isSnan F y then 16 else 0
    (FP.isNan F x = true →
      (FP.isNan F (FP.carryNan F F x) = true ∧ FP.isSnan F (FP.carryNan F F x) = false ∧
        FP.sgn F (FP.carryNan F F x) = FP.sgn F x) ∧
      FP.add F rm x y = (FP.carryNan F F x, nv) ∧ FP.sub F rm x y = (FP.carryNan F F x, nv) ∧
      FP.mul F rm x y = (FP.carryNan F F x, nv)) ∧
    (FP.isNan F x = false → FP.isNan F y = true →
      FP.add F rm x y = (FP.carryNan F F y, nv) ∧ FP.mul F rm x y = (FP.carryNan F F y, nv)) ∧
    (FP.isInf F x = true → FP.isInf F y = true → FP.sgn F x ≠ FP.sgn F y →
      FP.add F rm x y = (FP.defNan F, 16)) ∧
    (FP.isInf F x = true → FP.isInf F y = true → FP.sgn F x = FP.sgn F y →
      FP.sub F rm x y = (FP.defNan F, 16)) ∧
    (FP.isInf F x = true → FP.isZero F y = true →
      FP.mul F rm x y = (FP.defNan F, 16) ∧ FP.mul F rm y x = (FP.defNan F, 16)) ∧
    (FP.isZero F x = true →
      FP.approxRecip F false x = (FP.withSign F (FP.sgn F x) (FP.infMag F), 8)) ∧
    (FP.isInf F x = true → FP.approxRecip F false x = (FP.withSign F (FP.sgn F x) 0, 0)) ∧
    (FP.isNan F x = false → FP.isZero F x = false → FP.sgn F x = true →
      FP.approxRecip F true x = (FP.defNan F, 16))

/-- R277, R283, R284: unpacking a number of any floating-point format and rounding it into the same
format gives the pattern back under every rounding mode, and raises no flag. -/
def Obligations.RoundingIsExactOnValues : Prop :=
  ∀ (f : Fmt) (rm : Rm) (sat : Bool) (x : Nat), f.isFloat = true → x < 2 ^ f.width →
    FP.isNan f x = false → FP.roundNum f rm sat (FP.num f x) = (x, 0)

/-! ## Packed (R359 to R373) -/

/-- R359, R361 to R364: the integer lane operations, each lane by itself, with their modifiers; VDOT sums
four products and the old lane. Only vd, the pc and no flag change. -/
def Obligations.PackedIntegerResults : Prop :=
  ∀ (s : State) (vd va vb : VReg) (ty : ETy), ty.isFloat = false →
    let w := ty.width
    let x (i : Nat) := (s.v va).extractLsb' (w * i) w
    let y (i : Nat) := (s.v vb).extractLsb' (w * i) w
    let z (i : Nat) := (s.v vd).extractLsb' (w * i) w
    let clamp (v : Int) : BitVec w := BitVec.ofInt w (max (-2 ^ (w - 1)) (min v (2 ^ (w - 1) - 1)))
    let clampN (v : Int) : BitVec w := BitVec.ofInt w (max 0 (min v (2 ^ w - 1)))
    let gives (i : Instr) (f : Nat → BitVec w) : Prop :=
      ∃ r, Lanes r w f ∧ Completes i s (WroteV s · vd r)
    gives (.vadd vd va vb ty .rne 0) (fun i => x i + y i) ∧
    gives (.vadd vd va vb ty .rne 1) (fun i => clamp ((x i).toInt + (y i).toInt)) ∧
    gives (.vadd vd va vb ty .rne 2) (fun i => clampN ((x i).toNat + (y i).toNat)) ∧
    gives (.vsub vd va vb ty .rne 0) (fun i => x i - y i) ∧
    gives (.vsub vd va vb ty .rne 1) (fun i => clamp ((x i).toInt - (y i).toInt)) ∧
    gives (.vsub vd va vb ty .rne 2) (fun i => clampN ((x i).toNat - (y i).toNat)) ∧
    gives (.vmul vd va vb ty .rne 0) (fun i => x i * y i) ∧
    gives (.vmul vd va vb ty .rne 1) (fun i => BitVec.ofInt w ((x i).toInt * (y i).toInt / 2 ^ w)) ∧
    gives (.vmul vd va vb ty .rne 2) (fun i => BitVec.ofNat w ((x i).toNat * (y i).toNat / 2 ^ w)) ∧
    gives (.vfma vd va vb ty .rne 0) (fun i => x i * y i + z i) ∧
    gives (.vfma vd va vb ty .rne 1)
      (fun i => clamp ((x i).toInt * (y i).toInt + (z i).toInt)) ∧
    gives (.vmin vd va vb ty 0) (fun i => if (x i).toInt < (y i).toInt then x i else y i) ∧
    gives (.vmin vd va vb ty 1) (fun i => if (x i).toNat < (y i).toNat then x i else y i) ∧
    gives (.vmax vd va vb ty 0) (fun i => if (x i).toInt < (y i).toInt then y i else x i) ∧
    gives (.vmax vd va vb ty 1) (fun i => if (x i).toNat < (y i).toNat then y i else x i) ∧
    (w ≤ 16 → ∀ md : BitVec 2, md.toNat ≤ 2 →
      let a (j : Nat) : Int := if md = 0 then (x j).toInt else (x j).toNat
      let b (j : Nat) : Int := if md = 2 then (y j).toNat else (y j).toInt
      ∃ r, Lanes r (4 * w) (fun i => BitVec.ofInt (4 * w)
        (((List.range 4).map (fun j => a (4 * i + j) * b (4 * i + j))).sum +
          ((s.v vd).extractLsb' (4 * w * i) (4 * w)).toInt)) ∧
      Completes (.vdot vd va vb ty .rne md) s (WroteV s · vd r))

/-- R359, R361 to R364, R370: the floating-point lane operations. Lane i is the scalar operation of the
lanes i, and FFLAGS takes the OR of the lanes' flags. -/
def Obligations.PackedFloatResults : Prop :=
  ∀ (s : State) (vd va vb : VReg) (ty : ETy) (rm : Rm) (cc : BitVec 2) (bc : Bool),
    ty.isFloat = true →
    let w := ty.width
    let F := ty.fmt
    let n := ty.lanes
    let x := lane w (s.v va).toNat
    let y := lane w (s.v vb).toNat
    let z := lane w (s.v vd).toNat
    let subs (v : Nat → Nat) : Bool := (List.range n).any (fun i => FP.isSub F (v i))
    let gives (i : Instr) (f : Nat → Nat × FP.Flags) : Prop :=
      ∃ r, Lanes r w (fun i => BitVec.ofNat w (f i).1) ∧
        Completes i s (WroteV s · vd r (orAll ((List.range n).map f)))
    (NoSubnormTrap s (subs x || subs y) →
      gives (.vadd vd va vb ty rm 0) (fun i => FP.add F rm (x i) (y i)) ∧
      gives (.vsub vd va vb ty rm 0) (fun i => FP.sub F rm (x i) (y i)) ∧
      gives (.vmul vd va vb ty rm 0) (fun i => FP.mul F rm (x i) (y i))) ∧
    (NoSubnormTrap s (subs x || subs y || subs z) →
      gives (.vfma vd va vb ty rm 0) (fun i => FP.fma F rm (x i) (y i) (z i))) ∧
    (NoSubnormTrap s (subs x) →
      gives (.vscale vd va vb ty rm bc)
        (fun i => FP.scale F rm (x i) (sInt w (if bc then y 0 else y i)))) ∧
    gives (.vmin vd va vb ty 0) (fun i => FP.minmax F false (x i) (y i)) ∧
    gives (.vmax vd va vb ty 0) (fun i => FP.minmax F true (x i) (y i)) ∧
    gives (.vcmp vd va vb ty cc) (fun i =>
      (if (vcmpLane ty cc (x i) (y i)).1 then 2 ^ w - 1 else 0, (vcmpLane ty cc (x i) (y i)).2)) ∧
    (ty ≠ .f64 →
      let R : Fmt := if ty = .f32 then .f64 else .f32
      let o := lane (2 * w) (s.v vd).toNat
      NoSubnormTrap s (subs x || subs y || (List.range (n / 2)).any (fun i => FP.isSub R (o i))) →
      let f (i : Nat) := FP.dotRound F R rm
        [(x (2 * i), y (2 * i)), (x (2 * i + 1), y (2 * i + 1))] (some (o i))
      ∃ r, Lanes r (2 * w) (fun i => BitVec.ofNat (2 * w) (f i).1) ∧
        Completes (.vdot vd va vb ty rm 0) s (WroteV s · vd r (orAll ((List.range (n / 2)).map f))))

/-- R367 to R371, R373: permutation, broadcast, selection, comparison (integer lanes in full, and that a
floating-point lane is all ones or zero too), bitwise operations, shifts and the moves between g and v
registers. -/
def Obligations.PackedMoveResults : Prop :=
  ∀ (s : State) (vd va vb : VReg) (d a b : GReg) (ty : ETy) (z : Bool) (k : BitVec 5),
    let w := ty.width
    let n := ty.lanes
    let x (i : Nat) := (s.v va).extractLsb' (w * i) w
    let y (i : Nat) := (s.v vb).extractLsb' (w * i) w
    let o (i : Nat) := (s.v vd).extractLsb' (w * i) w
    let gives (i : Instr) (f : Nat → BitVec w) : Prop :=
      ∃ r, Lanes r w f ∧ Completes i s (WroteV s · vd r)
    gives (.vshuf vd va vb ty z) (fun i =>
      let t := (y i).toNat % (2 * n)
      if z && (y i).getLsbD (w - 1) then 0 else if t < n then x t else o (t - n)) ∧
    (WellFormed (.vbcast vd va k ty) = true → gives (.vbcast vd va k ty) (fun _ => x k.toNat)) ∧
    gives (.vsel vd va vb ty) (fun i => if (o i).getLsbD (w - 1) then x i else y i) ∧
    (ty.isFloat = false →
      gives (.vcmp vd va vb ty 0) (fun i => if x i = y i then BitVec.allOnes w else 0) ∧
      gives (.vcmp vd va vb ty 1)
        (fun i => if (x i).toInt < (y i).toInt then BitVec.allOnes w else 0) ∧
      gives (.vcmp vd va vb ty 2)
        (fun i => if (x i).toNat < (y i).toNat then BitVec.allOnes w else 0) ∧
      gives (.vshift vd va vb ty 0) (fun i => x i <<< ((y i).toNat % w)) ∧
      gives (.vshift vd va vb ty 1) (fun i => x i >>> ((y i).toNat % w)) ∧
      gives (.vshift vd va vb ty 2) (fun i => (x i).sshiftRight ((y i).toNat % w))) ∧
    (ty.isFloat = true → ∀ cc, ∃ (m : Nat → Bool) (r : V256) (fl : FP.Flags),
      Lanes r w (fun i => if m i then BitVec.allOnes w else 0) ∧
        Completes (.vcmp vd va vb ty cc) s (WroteV s · vd r fl)) ∧
    Completes (.vlog vd va vb 0) s (WroteV s · vd (s.v va &&& s.v vb)) ∧
    Completes (.vlog vd va vb 1) s (WroteV s · vd (s.v va ||| s.v vb)) ∧
    Completes (.vlog vd va vb 2) s (WroteV s · vd (s.v va ^^^ s.v vb)) ∧
    Completes (.vlog vd va vb 3) s (WroteV s · vd (s.v va &&& ~~~(s.v vb))) ∧
    Completes (.vmovg d va b ty) s (Wrote s · d
      (let l := x ((s.g b).toNat % n); if ty.isFloat then l.setWidth 64 else l.signExtend 64)) ∧
    gives (.vmovv vd a b ty)
      (fun i => if i = (s.g b).toNat % n then (s.g a).setWidth w else o i)

/-- R365, R366, R372: a conversion converts element i of the source group into element i of the destination
group, a B4 source by its block's scale byte and into B4 as one block, and leaves every other register; a
descriptor R276 rejects traps ILL. VRED of integers writes the sum of all lanes, or an extreme lane, to lane 0
and zeroes the rest; VRED of floating-point lanes writes the root of the fixed binary tree.
Conversions of B4 into an integer format rest on the model's choice of log 18. -/
def Obligations.PackedConvertAndReduce : Prop :=
  ∀ (s : State) (vd va : VReg) (f g : Fmt) (ty : ETy) (rm : Rm) (sat : Bool) (k : BitVec 2) (w : W32),
    let n := max f.perReg g.perReg
    let el (t : State) (b : VReg) (h : Fmt) (i : Nat) : Nat :=
      lane h.width (t.thr.readV (b.toNat + i / h.perReg)).toNat (i % h.perReg)
    let flags (t : State) (fl : FP.Flags) : Prop := OnlyThread s t ∧
      t.thr = { s.thr.doneAt (s.thr.pc + 4) with v := t.thr.v, fflags := s.thr.fflags ||| fl } ∧
      (∀ m, m < vd.toNat ∨ vd.toNat + n / g.perReg ≤ m → t.thr.readV m = s.thr.readV m)
    let converts (i : Instr) (c : Nat → Nat × FP.Flags) : Prop := Completes i s (fun t =>
      flags t (orAll ((List.range n).map c)) ∧ ∀ e, e < n → el t vd g e = (c e).1 % 2 ^ g.width)
    let noTrap := NoSubnormTrap s (f.isFloat && (List.range n).any (fun e => FP.isSub f (el s va f e)))
    (f = ty.fmt → WellFormed (.vcvt vd va g ty rm sat) = true → noTrap →
      converts (.vcvt vd va g ty rm sat) (fun e => cvtElem f g rm sat (el s va f e))) ∧
    (let d := s.thr.ftk k.toNat
     let m := rmOf (fld d 5 4)
     (descFmt d = some f → f ≠ g → f ≠ .b4 → g ≠ .b4 → cvtFits vd va f g = true → noTrap →
        converts (.vcvtDesc vd va g k) (fun e => cvtElem f g m (bitAt d 7) (el s va f e))) ∧
     (descFmt d = some f → f ≠ g → f = .b4 → cvtFits vd va f g = true →
        converts (.vcvtDesc vd va g k)
          (fun e => cvtB4 g m (bitAt d 7) (lane 8 (s.v va).toNat 16) (el s va f e))) ∧
     (descFmt d = some f → f ≠ g → g = .b4 → cvtFits vd va f g = true → noTrap →
        let xs := (List.range n).map (fun e => if f = .f64 then (el s va f e, 0) else cvtElem f .f64 m false (el s va f e))
        let block := FP.b4Encode (fld d 12 11) m (xs.map (·.1))
        Completes (.vcvtDesc vd va g k) s (fun t => flags t (orAll xs ||| block.2.2) ∧
          t.v vd = BitVec.ofNat 256 (ofLanes 4 block.1 + 2 ^ 128 * (block.2.1 % 256)))) ∧
     (descFmt d = none → Vectored s → encode (.vcvtDesc vd va g k) = some w →
        Completes (.vcvtDesc vd va g k) s (Trapped s · 1 (w.setWidth 64) 0))) ∧
    (ty.isFloat = false →
      let l (i : Nat) := (s.v va).extractLsb' (ty.width * i) ty.width
      let only (r : V256) (v : BitVec ty.width) : Prop := r = v.setWidth 256
      (∃ r, only r (BitVec.ofNat _ (((List.range ty.lanes).map (fun i => (l i).toNat)).sum)) ∧
        Completes (.vred vd va ty .rne 0) s (WroteV s · vd r)) ∧
      (∃ r i, i < ty.lanes ∧ (∀ j, j < ty.lanes → (l i).toInt ≤ (l j).toInt) ∧ only r (l i) ∧
        Completes (.vred vd va ty .rne 1) s (WroteV s · vd r)) ∧
      (∃ r i, i < ty.lanes ∧ (∀ j, j < ty.lanes → (l j).toInt ≤ (l i).toInt) ∧ only r (l i) ∧
        Completes (.vred vd va ty .rne 2) s (WroteV s · vd r))) ∧
    (ty.isFloat = true →
      let l := lane ty.width (s.v va).toNat
      let root (op : Nat → Nat → Nat × FP.Flags) := treeNode op l ty.lanes.log2 0
      let gives (k : BitVec 2) (rm : Rm) (r : Nat × FP.Flags) : Prop :=
        Completes (.vred vd va ty rm k) s (WroteV s · vd (BitVec.ofNat 256 r.1) r.2)
      (NoSubnormTrap s ((List.range ty.lanes).any (fun i => FP.isSub ty.fmt (l i))) →
        gives 0 rm (root (FP.add ty.fmt rm))) ∧
      gives 1 .rne (root (FP.minmax ty.fmt false)) ∧ gives 2 .rne (root (FP.minmax ty.fmt true)))


/-! ## Matrix tile (R387 to R389, R211) -/

/-- R387: MXA, MXB and MXC write the command state and nothing else. R388, R389: MXGO and MXDRAIN give 1
while the tile is named by a loaded image, 2 for a command that is not valid; else the command joins the
core's queue and 0 is given, or with 8 commands of the context there the thread waits in RETRY. R211:
MXREL in a row's handler releases the row, elsewhere it traps ILL. -/
def Obligations.MatrixCommands : Prop :=
  ∀ (s : State) (a b c : GReg),
    let m := s.tid / 128
    let k := s.tid / 16 % 8
    let queue (t : State) := (t.clu m).queues.look [] k
    let done := s.thr.doneAt (s.thr.pc + 4)
    let gives (i : Instr) (x : W64) : Prop :=
      Completes i s (fun t => SameMemory s t ∧ Took s t c x ∧ t.clusters = s.clusters)
    let joins (i : Instr) (f : MxCmd → Prop) : Prop :=
      Completes i s (fun t => SameMemory s t ∧ Took s t c 0 ∧
        ∃ x, queue t = queue s ++ [x] ∧ x.tid = s.tid ∧ x.kdone = 0 ∧ x.rowNext = 0 ∧
          x.granted = false ∧ x.counter = s.thr.mxCnt ∧ f x)
    let held := ((queue s).filter (fun x => x.ctx == s.thr.ctx)).length
    Completes (.mxa a b) s (fun t => OnlyThread s t ∧
      t.thr = { done with mxA := s.g a, mxAS := s.g b }) ∧
    Completes (.mxb a b) s (fun t => OnlyThread s t ∧
      t.thr = { done with mxB := s.g a, mxBS := s.g b }) ∧
    Completes (.mxc a b c) s (fun t => OnlyThread s t ∧
      t.thr = { done with mxOff := s.g a, mxShape := s.g b, mxCnt := s.g c }) ∧
    (s.thr.rlxOut = [] →
      (s.tileInFabric m = true → gives (.mxgo c) 1 ∧ gives (.mxdrain a b c) 1) ∧
      (s.tileInFabric m = false →
        (s.mxValid s.thr = false → gives (.mxgo c) 2) ∧
        (s.drainValid s.thr (s.g b) = false → gives (.mxdrain a b c) 2) ∧
        (s.mxValid s.thr = true → held < 8 → joins (.mxgo c) (fun x => x.drain = false ∧
          x.shape = s.thr.mxShape ∧ x.off = s.thr.mxOff.toNat ∧ x.aBase = s.thr.mxA ∧
          x.aStride = s.thr.mxAS ∧ x.bBase = s.thr.mxB ∧ x.bStride = s.thr.mxBS)) ∧
        (s.drainValid s.thr (s.g b) = true → held < 8 → joins (.mxdrain a b c) (fun x =>
          x.drain = true ∧ x.dst = s.g a ∧ x.dword = s.g b ∧ x.mxhpc = s.thr.mxhpc)) ∧
        (8 ≤ held → ∀ i, (i = .mxgo c ∧ s.mxValid s.thr = true) ∨
            (i = .mxdrain a b c ∧ s.drainValid s.thr (s.g b) = true) → Completes i s (fun t =>
          SameMemory s t ∧ t.thr = { s.thr with st := .retry, poll := true, atHome := false })))) ∧
    (∀ w, s.thr.row = none → Vectored s → encode .mxrel = some w →
      Completes .mxrel s (Trapped s · 1 (w.setWidth 64) 0)) ∧
    (∀ id row, s.thr.row = some (id, row) → Completes .mxrel s (fun t => t.mem = s.mem ∧
      t.thr = { done with row := none } ∧ (∀ u, u ≠ s.tid → t.thread u = s.thread u) ∧
      ∀ j, ∀ x ∈ (t.clu m).queues.look [] j, x.id = id → x.drain = true → row ∈ x.released))

/-! ## Async engines (R390 to R396) -/

/-- R390, R392 to R394: each command reads its descriptor, is handed to its engine under the thread's
next handle, and the handle is written; no byte of memory has changed yet. -/
def Obligations.AsyncIssue : Prop :=
  ∀ (s : State) (a c : GReg) (ui : Bool) (ps : List Part),
    let h := if s.thr.handle + 1 = 2 ^ 32 then 1 else s.thr.handle + 1
    let v := s.valueAt ps
    let word (i : Nat) : W64 := BitVec.ofNat 64 (v / 2 ^ (64 * i))
    let issued (op : Nat) (t : State) : Prop :=
      SameMemory s t ∧ t.thr.pc = s.thr.pc + 4 ∧ t.thr.st = .ready ∧ t.thr.handle = h ∧
      (∀ n, t.g n = if n = c ∧ n ≠ 0 then BitVec.ofNat 64 h else s.g n) ∧
      ∃ x, t.acmds = s.acmds ++ [x] ∧ x.op = op ∧ x.handle = h ∧ x.tid = s.tid ∧ x.ui = ui ∧
        x.dst = word 0 ∧ x.src = word 1 ∧ x.len = word 2 ∧ x.tag = word 4
    (s.thr.cmds.filter (fun x => x.2.isNone)).length < 16 → (ui = true → s.uiCount s.tid < 8) →
    s.thr.rlxOut = [] → (∀ p ∈ ps, p.cached = false) → Reaches s .record (s.g a).toNat 64 ps →
      Completes (.acopy a c ui) s (issued 0) ∧ Completes (.agather a c ui) s (issued 1) ∧
      Completes (.ascatter a c ui) s (issued 2) ∧ Completes (.acoll a c ui) s (issued 3)

/-- R395, R396: AWAIT of a completed command writes its status, of a handle that is none of the thread's 16 most
recent commands 15, and of a running one waits BLOCKED; of g0 it waits for every running command and writes the first status that is not 0.
ACANCEL stops a running command, which completes CANCELLED, and writes 0; it writes 1 for any other. -/
def Obligations.AsyncWaits : Prop :=
  ∀ (s : State) (a c : GReg),
    let h := s.g a
    let st (n : Nat) : Option (Option Nat) := (s.thr.cmds.find? (fun x => x.1 == n)).map (·.2)
    let recent : Bool := (s.thr.cmds.drop (s.thr.cmds.length - 16)).any (fun x => x.1 == h.toNat)
    let mine (x : ACmd) : Bool := x.tid == s.tid && x.life == s.thr.life && x.handle == h.toNat &&
      decide (x.op ≤ 3) && !x.ended
    let bad (n : Nat) : Option Nat :=
      match st n with | some (some y) => if y = 0 then none else some y | _ => none
    (h ≠ 0 → recent = false → Completes (.await a c) s (Wrote s · c 15)) ∧
    (h ≠ 0 → recent = true → st h.toNat = some none → Completes (.await a c) s (Waits s · .blocked)) ∧
    (∀ x, h ≠ 0 → recent = true → st h.toNat = some (some x) → Completes (.await a c) s (fun t =>
      Accessed s t ∧ SameMemory s t ∧ Took s t c (BitVec.ofNat 64 x))) ∧
    (h = 0 → s.thr.awaits = [] → (∃ x ∈ s.thr.cmds, x.2 = none ∧ st x.1 = some none) →
      Completes (.await a c) s (fun t => OnlyThread s t ∧ t.thr.st = .blocked ∧
        t.thr.pc = s.thr.pc ∧ t.thr.awaits ≠ [] ∧ ∀ n, t.g n = s.g n)) ∧
    (h = 0 → s.thr.awaits = [] → (∀ x ∈ s.thr.cmds, x.2 ≠ none) → Completes (.await a c) s (fun t =>
      Accessed s t ∧ SameMemory s t ∧ Took s t c 0)) ∧
    (h = 0 → s.thr.awaits ≠ [] → (∀ n ∈ s.thr.awaits, st n ≠ some none) →
      Completes (.await a c) s (fun t => SameMemory s t ∧ t.thr.awaits = [] ∧
        t.thr.pc = s.thr.pc + 4 ∧ ∀ n, t.g n = if n = c ∧ n ≠ 0
          then BitVec.ofNat 64 ((s.thr.awaits.findSome? bad).getD 0) else s.g n)) ∧
    ((∀ x ∈ s.acmds, mine x = false) → Completes (.acancel a c) s (Wrote s · c 1)) ∧
    ((s.acmds.map (·.id)).Nodup → (∃ x ∈ s.acmds, mine x = true) →
      Completes (.acancel a c) s (fun t => SameMemory s t ∧ Took s t c 0 ∧
        ∃ x ∈ s.acmds, mine x = true ∧
          ∃ y ∈ t.acmds, y.id = x.id ∧ y.ended = true ∧ y.status = 2))

/-! ## Fabric control and streams (R397 to R404) -/

/-- R398 to R402: CFGLOAD and CFGSHADOW hand a load to the loader and wait; CFGARM asks for the arming and
waits; ROLL of a region with a shadow asks its named sources for ROLL and waits; CFGPATCH fills an extent; both
wait in MEMORY while a resize moves the region (R420); a
CFGLOAD at a site past its drain point traps REVOKED (R84). Each refusal of R398, R399, R401 and R402 is written at once.
It rests on the model's choices of log 30. -/
def Obligations.RegionInstructions : Prop :=
  ∀ (s : State) (a b c : GReg),
    let q := s.thr.prt
    let own := s.thr.lslot
    let waits (t : State) : Prop := SameMemory s t ∧
      (∀ u, u ≠ s.tid → t.thread u = s.thread u) ∧
      t.thr = { s.thr with st := .memory, poll := false, atHome := false }
    let loads (t : State) (image : W64) (slot : Nat) (sh : Bool) : Prop :=
      ∃ l, t.loads = s.loads ++ [l] ∧ l.image = image ∧ l.slot = slot ∧ l.prt = q ∧ l.shadow = sh ∧
        l.waiter = some (s.tid, c.toNat) ∧ l.sched = false
    let sa := fld (s.g a) 11 0
    let r := s.region q sa
    (4096 ≤ own →
      Completes (.cfgload a b c) s (Wrote s · c (BitVec.ofNat 64 (2 ^ 32 + own % 4096)))) ∧
    (own < 4096 → s.hasRegion q own = true →
      Completes (.cfgload a b c) s (Wrote s · c (BitVec.ofNat 64 (2 ^ 33 + own)))) ∧
    (own < 4096 → s.hasRegion q own = false → s.siteRevoked q ((s.g b).setWidth 32) = true → Vectored s →
      Completes (.cfgload a b c) s (Trapped s · 8 ((s.g b).setWidth 32 |>.setWidth 64) 0)) ∧
    (own < 4096 → s.hasRegion q own = false → s.siteRevoked q ((s.g b).setWidth 32) = false →
      Completes (.cfgload a b c) s (fun t => waits t ∧ loads t (s.g a) own false)) ∧
    Completes (.cfgshadow a b c) s (fun t => waits t ∧ loads t (s.g a) (fld (s.g b) 11 0) true) ∧
    (r.loaded = true → (r.armed = true ∨ r.arming = true) →
      Completes (.cfgarm a c) s (Wrote s · c 2)) ∧
    (r.armed = false → r.arming = false → (r.loaded = false ∨ r.loadst ≠ 0) →
      Completes (.cfgarm a c) s (Wrote s · c 1)) ∧
    (r.loaded = true → r.armed = false → r.arming = false → r.loadst = 0 →
      Completes (.cfgarm a c) s (fun t => waits t ∧ (t.region q sa).arming = true ∧
        (t.region q sa).armWait = some (s.tid, c.toNat))) ∧
    (s.reshaped q sa = true → Completes (.roll a b c) s (Waits s · .memory)) ∧
    (s.reshaped q (fld (s.g b) 43 32) = true → Completes (.cfgpatch a b c) s (Waits s · .memory)) ∧
    (∀ ps ps' : List Part, s.reshaped q sa = false → s.thr.rlxOut = [] → (∀ p ∈ ps ++ ps', p.cached = false) →
      let va := (s.g b).toNat
      let n := s.valueAt ps
      let us := (List.range n).map (fun i => r.source (BitVec.ofNat 32 (s.valueAt ps' / 2 ^ (32 * i))))
      let noShadow := r.armed = false ∨ (r.hasShadow = false ∧ r.rolling = false)
      let gives (x : W64) : Prop := Completes (.roll a b c) s (fun t =>
        Accessed s t ∧ SameMemory s t ∧ Took s t c x)
      Reaches s .record va 4 ps →
      (n < 1 ∨ 64 < n → (noShadow → gives 1) ∧ (¬ noShadow → gives 2)) ∧
      (1 ≤ n → n ≤ 64 → Reaches (s.touch s.tid va 4) .record ((va + 4) % 2 ^ 64) (4 * n) ps' →
        (noShadow → gives 1) ∧ (¬ noShadow → none ∈ us → gives 2) ∧
        (¬ noShadow → none ∉ us → r.rolling = true → gives 3) ∧
        (¬ noShadow → none ∉ us → r.rolling = false → Completes (.roll a b c) s (fun t =>
          waits t ∧ (t.region q sa).rollWait = some (s.tid, c.toNat))))) ∧
    (let sb := fld (s.g b) 43 32
     let rb := s.region q sb
     let va := (s.g a).toNat
     let at' := rb.rect.loc ((s.g b).setWidth 32)
     s.reshaped q sb = false →
     (rb.onFab = false ∨ rb.armed = false ∨ at' = none →
        Completes (.cfgpatch a b c) s (Wrote s · c 1)) ∧
     (∀ i, rb.onFab = true → rb.armed = true → at' = some (i, 0) → isSeamSite i = false →
        (rb.site i).cfg.kind = 3 →
        (∀ e, s.walkExtent (siteDie i) q rb.root (rb.site i).cfg.need va = .ok e →
          Completes (.cfgpatch a b c) s (fun t => SameMemory s t ∧ Took s t c 0 ∧
            ((t.region q sb).site i).extents.head? = some e)) ∧
        (∀ x, s.walkExtent (siteDie i) q rb.root (rb.site i).cfg.need va = .error x →
          Completes (.cfgpatch a b c) s (Wrote s · c 2))) ∧
     (∀ i n, rb.onFab = true → rb.armed = true → at' = some (i, n) → isSeamSite i = true → n ≤ 3 →
        (rb.gen (4 * i + n)).ws ≠ [] →
        (∀ e, s.walkExtent (siteDie i) q rb.root (rb.gen (4 * i + n)).need va = .ok e →
          Completes (.cfgpatch a b c) s (fun t => SameMemory s t ∧ Took s t c 0 ∧
            ((t.region q sb).gen (4 * i + n)).extents.head? = some e)) ∧
        (∀ x, s.walkExtent (siteDie i) q rb.root (rb.gen (4 * i + n)).need va = .error x →
          Completes (.cfgpatch a b c) s (Wrote s · c 2))))

/-- R403: QPUT appends its token at the tail of an armed FIFO tile's ring, CTOK puts it behind an input
port's tokens, and each writes 0; FULL is 1, NOSITE 2, BADTAG 3, with nothing placed. QTAKE gives the
token at the ring's head and takes it away; EMPTY is 1 and NOSITE 2 in bits 13:12 of its second word. A SITE word
past its drain point traps REVOKED (R84).
It rests on the model's choices of log 40. -/
def Obligations.StreamTokens : Prop :=
  ∀ (s : State) (a b c : GReg), s.thr.rlxOut = [] →
    let q := s.thr.prt
    let x := s.g a
    let w : W32 := x.setWidth 32
    let tok : Token := ⟨s.g b, BitVec.ofNat 12 (fld x 43 32)⟩
    let gives (i : Instr) (v : W64) : Prop := Completes i s (fun t => SameMemory s t ∧ Took s t c v ∧
      t.regions = s.regions)
    let takes (t : State) (p v : W64) : Prop := t.thr.pc = s.thr.pc + 4 ∧ SameMemory s t ∧
      ∀ n, t.g n = if n = 0 then 0 else if n = b then v else if n = c then p else s.g n
    (s.siteRevoked q w = true → Vectored s → ∀ i ∈ [Instr.qput a b c, .qtake a b c, .ctok a b c],
      Completes i s (Trapped s · 8 (w.setWidth 64) 0)) ∧
    (s.siteRevoked q w = false →
    (s.fifoSite w = none → gives (.qput a b c) 2 ∧
      (b ≠ c → Completes (.qtake a b c) s (takes · 0 0x2000))) ∧
    (∀ i sl r, s.fifoSite w = some (i, sl, r) →
      let y := r.site i
      let new (t : State) : Site := (t.region q sl).site i
      (r.armed = false → gives (.qput a b c) 2 ∧
        (b ≠ c → Completes (.qtake a b c) s (takes · 0 0x2000))) ∧
      (r.armed = true → badTag tok = true → gives (.qput a b c) 3) ∧
      (r.armed = true → badTag tok = false → y.fifoFull = true → gives (.qput a b c) 1) ∧
      (r.armed = true → badTag tok = false → y.fifoFull = false → s.waiters = [] →
        Completes (.qput a b c) s (fun t => Took s t c 0 ∧ (new t).head = y.head ∧
          (new t).tail = (y.tail + 1) % (y.cfg.tCap + 1) ∧
          t.fifoHead q r.ctx i { y with head := y.tail } = tok ∧
          ∀ z, z ∉ List.range' (s.tileByte q r.ctx i (16 * y.tail)) 16 → t.byteAt z = s.byteAt z)) ∧
      (r.armed = true → y.fifoEmpty = true → b ≠ c →
        Completes (.qtake a b c) s (takes · 0 0x1000)) ∧
      (r.armed = true → y.fifoEmpty = false → b ≠ c →
        let h := s.fifoHead q r.ctx i y
        Completes (.qtake a b c) s (fun t => takes t h.payload (h.tag.setWidth 64) ∧
          (new t).tail = y.tail ∧ (new t).head = (y.head + 1) % (y.cfg.tCap + 1)))) ∧
    (s.streamSite w = none → gives (.ctok a b c) 2) ∧
    (∀ i n sl r, s.streamSite w = some (i, n, sl, r) → r.armed = true → (r.site i).cfg.kind = 1 →
      (r.site i).cfg.copyOf = none → 1 ≤ n → n ≤ 3 → (n - 1) ∈ (r.site i).cfg.usedPorts →
      (badTag tok = true ∨ tok.isRoll = true → gives (.ctok a b c) 3) ∧
      (badTag tok = false → tok.isRoll = false →
        (4 ≤ ((r.site i).buf (n + 3)).length → gives (.ctok a b c) 1) ∧
        (((r.site i).buf (n + 3)).length < 4 → Completes (.ctok a b c) s (fun t =>
          SameMemory s t ∧ Took s t c 0 ∧
          ((t.region q sl).site i).buf (n + 3) = (r.site i).buf (n + 3) ++ [tok])))))

/-- R404: EREPLY with no, one or two payloads answers a parked ticket with the parked token, or with one
or two tokens of its tag; EDROP answers it with none. A word that names no escape port traps TICKET with
the word in TVAL, one of an element past its drain point REVOKED with its SITE word (R84).
It rests on the model's choices of log 40. -/
def Obligations.EscapeReplies : Prop :=
  ∀ (s : State) (a b c : GReg), s.thr.rlxOut = [] →
    let q := s.thr.prt
    let x := s.g a
    let n := fld x 5 0
    let gen := fld x 31 16
    let gone : Prop := ∃ j, replyName x = some j ∧ s.siteRevoked q (fabSite s.pkg j 0) = true
    (∀ j k, replyName x = some j → s.siteRevoked q (fabSite s.pkg j 0) = true → Vectored s →
      Completes (.ereply a b c k) s (Trapped s · 8 ((fabSite s.pkg j 0).setWidth 64) 0) ∧
      Completes (.edrop a) s (Trapped s · 8 ((fabSite s.pkg j 0).setWidth 64) 0)) ∧
    (¬gone → s.replySite x = none → Vectored s → ∀ k, Completes (.ereply a b c k) s
        (Trapped (s.release 4) · 10 x 0) ∧
      Completes (.edrop a) s (Trapped (s.release 4) · 10 x 0)) ∧
    (∀ i key r, ¬gone → s.replySite x = some i →
      s.regions.find? (fun e => e.1 / 4096 == q && (e.2.loaded && e.2.ctx == s.thr.ctx && e.2.has i &&
        ((e.2.site i).tickets.look {} n).st == 1 && ((e.2.site i).tickets.look {} n).gen == gen)) =
        some (key, r) →
      let tok := (((r.site i).tickets.look {} n).tok).plain
      let answered (i' : Instr) (l : List Token) : Prop := Completes i' s (fun t =>
        SameMemory s t ∧ t.thr.pc = s.thr.pc + 4 ∧ (∀ m, t.g m = s.g m) ∧
        let k := ((t.region q (key % 4096)).site i).tickets.look {} n
        k.st = 2 ∧ k.reply = l)
      answered (.ereply a b c 0) [tok] ∧
      answered (.ereply a b c 1) [{ tok with payload := s.g b }] ∧
      answered (.ereply a b c 2) [{ tok with payload := s.g b }, { tok with payload := s.g c }] ∧
      answered (.edrop a) [])

/-! ## Scheduling (R405 to R409) -/

/-- R406 to R408: LAUNCH of a valid record under a running graph takes the next ring slot and writes it
beside the counter's state, reuse or not, waiting in MEMORY while the slot is not reusable; a word with
reserved bits and a graph that does not run give their FAULTED words. SPAWN queues its packet at a core
with room. PRIO writes the thread's old priority and takes the new one.
It rests on the model's choices of log 31. -/
def Obligations.LaunchAndSpawn : Prop :=
  ∀ (s : State) (a b c : GReg) (ps : List Part),
    let q := s.thr.prt
    let va := (s.g a).toNat
    let l := (homeBytes ps).map s.byteAt
    let g := fld (s.g b) 7 0
    let sl := (s.prt q).nextSlot
    let ran (t : State) (x : W64) : Prop := t.thr.pc = s.thr.pc + 4 ∧
      ∀ n, t.g n = if n = c ∧ n ≠ 0 then x else s.g n
    (s.thr.rlxOut = [] → (∀ p ∈ ps, p.cached = false) → (∀ w ∈ s.waiters, w.tid ≠ s.tid) →
      Reaches s .record va 64 ps →
      (fld (s.g b) 63 8 ≠ 0 → Completes (.launch a b c) s (ran · 0x0180000000000000)) ∧
      (fld (s.g b) 63 8 = 0 → va % 64 = 0 → s.launchReject q s.thr.root l = none →
        ((s.cntr q 2 g).running = false ∨ (s.cntr q 2 g).stop ≠ none →
          Completes (.launch a b c) s (ran · 0x0280000000000000)) ∧
        ((s.cntr q 2 g).running = true → (s.cntr q 2 g).stop = none →
          ((s.cntr q 1 sl).reusable = false → Completes (.launch a b c) s (fun t =>
            SameMemory s t ∧ t.thr.st = .memory ∧ t.thr.pc = s.thr.pc)) ∧
          ((s.cntr q 1 sl).reusable = true → Completes (.launch a b c) s (fun t =>
            ran t (launchWord sl ((s.cntr q 1 sl).start 0).word) ∧
            (t.prt q).nextSlot = (sl + 1) % 4096 ∧
            ((t.prt q).launchRun.look {} sl).graph = g)))) ∧
      (let p := taskPacket l q s.thr.ctx s.thr.asid s.thr.root s.thr.lslot
        ((s.taskTarget q l).getD none)
       (4096 ≤ s.thr.lslot → Completes (.spawn a c) s (fun t => SameMemory s t ∧ ran t 4)) ∧
       (s.thr.lslot < 4096 → taskOk l = false →
         Completes (.spawn a c) s (fun t => SameMemory s t ∧ ran t 3)) ∧
       (s.thr.lslot < 4096 → taskOk l = true → s.taskTarget q l = some none →
         Completes (.spawn a c) s (fun t => SameMemory s t ∧ ran t 2)) ∧
       (s.thr.lslot < 4096 → taskOk l = true → s.taskTarget q l ≠ some none → ∀ k,
         s.chooseCore p = some k → (s.core k).queue.length < 256 →
         Completes (.spawn a c) s (fun t => SameMemory s t ∧ ran t 0 ∧
           (t.core k).queue = (s.core k).queue ++ [p])))) ∧
    Completes (.prio a c) s (fun t => SameMemory s t ∧ ran t (BitVec.ofNat 64 s.thr.prio) ∧
      t.thr.prio = fld (s.g a) 1 0 ∧ (∀ u, u ≠ s.tid → t.thread u = s.thread u) ∧
      (s.thr.lslot < 4096 →
        ((t.prt q).launchRun.look {} s.thr.lslot).prio = fld (s.g a) 1 0))

/-- R409, R130, R131: a cancel of a running counter gives it CANCELLED with reason CANCEL, or FAULTED with
reason UNIT, at once or when its units have ended; of a live thread of the partition it empties the
slot; of a counter that does not run it changes the pc alone. -/
def Obligations.Cancels : Prop :=
  ∀ (s : State) (a : GReg),
    let q := s.thr.prt
    let i (lv : Nat) := (s.g a).toNat % fileSize lv
    let taken (lv : Nat) (x : CStat × Nat) (t : State) : Prop :=
      let d := t.cntr q lv (i lv)
      (d.running = true → d.stop = some x) ∧ (d.running = false → d.st = x.1 ∧ d.reason = x.2)
    let both (l : Level) (lv : Nat) : Prop :=
      ((s.cntr q lv (i lv)).running = false →
        Completes (.cancel a l) s (Moved s · (s.thr.pc + 4)) ∧
        Completes (.cancelFault a l) s (Moved s · (s.thr.pc + 4))) ∧
      ((s.cntr q lv (i lv)).running = true → (s.cntr q lv (i lv)).stop = none →
        Completes (.cancel a l) s (taken lv (.cancelled, 7)) ∧
        Completes (.cancelFault a l) s (taken lv (.faulted, 9)))
    both .launch 1 ∧ both .graph 2 ∧ both .phase 3 ∧ both .job 4 ∧
    (∀ u, sitePkg (s.relocate q ((s.g a).setWidth 32)) = s.pkg →
      siteName (s.relocate q ((s.g a).setWidth 32)) = .slot u → u ≠ s.tid →
      (s.thread u).st ≠ .empty → (s.thread u).prt = q →
      Completes (.cancel a .unit) s (fun t => (t.thread u).st = .empty) ∧
      Completes (.cancelFault a .unit) s (fun t => (t.thread u).st = .empty))

/-! ## System (R410 to R419) -/

/-- R411, R418, R419: MFS reads every assigned register into g[d], its fields where the map puts them, and nothing
else changes; MTS writes the fields that are not read-only and nothing else, and a write of RQDESC, FRBASE, FRACK,
MTPW0, MTPW1, CTXCTL, MIGCTL or POOLPW does what the event of that write does; with POOLSEL naming no core of the
partition POOLPW and MXWEIGHT read zero and ignore writes. An unassigned number, and MTS of ft0 to sc3, trap ILL,
and a supervisor register traps PRIV at user privilege, each with TVAL the word. ILOCK, IUNLOCK, IFLUSH, TLBINV and
WAITI complete at supervisor privilege (R414, R415, R417); their results stand in the statement on system
instructions. It rests on the model's choices of logs 17, 21, 33, 61. -/
def Obligations.SystemRegisters : Prop :=
  ∀ (s : State) (d a : GReg) (n : BitVec 12) (w : W32),
    let th := s.thr
    let p := s.prt th.prt
    let v := s.g a
    let reads (k : Nat) (x : W64) : Prop := Completes (.mfs d (BitVec.ofNat 12 k)) s (Wrote s · d x)
    let writes (k : Nat) (x : Thread) : Prop :=
      Completes (.mts a (BitVec.ofNat 12 k)) s (fun t => OnlyThread s t ∧ t.thr = x.doneAt (th.pc + 4))
    let c := slotOf s.tid / 16
    let rq (k : Nat) : RecvQ := (s.core c).rq.look {} (rqIdx th.ctx k)
    let word (n : Nat) : W64 := BitVec.ofNat 64 n
    let ignores (k : Nat) : Prop := writes k th
    let prtWrites (k : Nat) (x : Prt) : Prop := Completes (.mts a (BitVec.ofNat 12 k)) s (fun t =>
      t.thr = th.doneAt (th.pc + 4) ∧ t.prt th.prt = x ∧ t.mem = s.mem)
    let acts (k : Nat) (i : Instr) : Prop := Completes (.mts a (BitVec.ofNat 12 k)) s (fun t =>
      ∃ u, exec i (s.setThr th) = .next u ∧ t = u.adv)
    let sel := s.selCore th.prt th.poolsel
    let ps := b2n (bitAt th.poolsel 32)
    reads 0 (th.fflags.setWidth 64) ∧ reads 1 (th.mscope.setWidth 64) ∧ reads 2 th.uivec ∧
    reads 3 th.uiepc ∧ reads 4 th.uicause ∧ reads 6 th.mxhpc ∧ reads 7 th.snvec ∧
    reads 5 (word (th.uiPend.length * 2 ^ 8 + th.uiRlx.toNat * 2 ^ 4 + b2n th.uiin)) ∧
    reads 8 (s.core c).cycle ∧
    reads 9 (word (th.asid.toNat * 2 ^ 48 + th.prt * 2 ^ 24 + th.ctx % 2 * 2 ^ 16 + th.lslot % 4096)) ∧
    (∀ k < 4, reads (0x10 + k) ((th.ft >>> (16 * k)) &&& 0xFFFF) ∧ reads (0x14 + k) (th.sc.look 0 k)) ∧
    (∀ k < 16, reads (0x20 + k) (word (b2n (rq k).enable * 2 ^ 63 + (rq k).base * 2 ^ 32 + (rq k).cap)) ∧
      reads (0x30 + k) (word ((rq k).tail * 2 ^ 16 + (rq k).head)) ∧ ignores (0x30 + k)) ∧
    ignores 4 ∧ ignores 8 ∧ ignores 9 ∧ writes 5 { th with uiRlx := (v >>> 4).setWidth 4 } ∧
    writes 0 { th with fflags := v.setWidth 5 } ∧ writes 1 { th with mscope := v.setWidth 3 } ∧
    writes 2 { th with uivec := v &&& ~~~2 } ∧ writes 3 { th with uiepc := v &&& ~~~3 } ∧
    writes 6 { th with mxhpc := v &&& ~~~3 } ∧ writes 7 { th with snvec := v &&& ~~~2 } ∧
    (th.sup = true →
      reads 0x101 th.tcause ∧ reads 0x102 th.tval ∧ reads 0x103 th.tepc ∧ reads 0x104 th.tscratch ∧
      reads 0x110 p.frbase ∧ reads 0x112 p.frnote ∧ reads 0x130 th.poolsel ∧ reads 0x138 p.dbgctl ∧
      writes 0x102 { th with tval := v } ∧ writes 0x103 { th with tepc := v } ∧
      writes 0x104 { th with tscratch := v } ∧ ignores 0x101 ∧
      writes 0x105 { th with tRlx := (v >>> 4).setWidth 4, prev := v.getLsbD 0 } ∧
      writes 0x130 { th with poolsel := v &&& 0x1FFFFFFFF } ∧
      reads 0x100 (p.tvec th.ctx) ∧
      reads 0x105 (word (th.tRlx.toNat * 2 ^ 4 + b2n th.intrap * 2 ^ 3 + b2n th.prev)) ∧
      reads 0x111 (word (p.frCons.toNat * 2 ^ 32 + p.frLost.toNat * 2 ^ 16 + p.frProd.toNat)) ∧
      reads 0x113 p.fsave ∧ reads 0x114 0 ∧ reads 0x118 p.mtpw0 ∧ reads 0x119 p.mtpw1 ∧
      reads 0x11C (word (p.ctxState * 2 ^ 28 + p.ctxStatus * 2 ^ 24 + b2n p.ctxSpilled * 2 ^ 10 +
        p.ctxHeld.toNat * 2 ^ 8 + p.ctxActive * 2 ^ 7)) ∧ reads 0x11D p.ctxSpill ∧
      (∀ i < 4, let m := p.migSlot i
        reads (0x120 + 4 * i) (word m.va.toNat) ∧ reads (0x121 + 4 * i) (word m.dst.toNat) ∧
        reads (0x122 + 4 * i) (word (m.asid.toNat * 2 ^ 48)) ∧
        reads (0x123 + 4 * i) (word (m.w % 2 ^ 32 * 2 ^ 32 + m.state * 2 ^ 4 + m.reason)) ∧
        prtWrites (0x120 + 4 * i) (p.setMig i { m with va := v &&& ~~~0xFFF }) ∧
        prtWrites (0x121 + 4 * i) (p.setMig i { m with dst := v &&& 0x000FFFFFFFFFF000 }) ∧
        acts (0x122 + 4 * i) (.migStart th.prt i v) ∧ ignores (0x123 + 4 * i)) ∧
      (sel = none → reads 0x131 0 ∧ reads 0x132 0 ∧ ignores 0x131 ∧ ignores 0x132) ∧
      (∀ k, sel = some k → reads 0x131 ((s.core k).poolpw ps) ∧
        reads 0x132 ((s.clu (k / 8)).mxweight.setWidth 64) ∧ acts 0x131 (.poolpwWrite k ps v) ∧
        Completes (.mts a 0x132) s (fun t => t.clu (k / 8) = { s.clu (k / 8) with mxweight := v.setWidth 32 } ∧
          t.thr = th.doneAt (th.pc + 4) ∧ t.mem = s.mem)) ∧
      (∀ k < 16, acts (0x20 + k) (.rqdescWrite c th.ctx k v)) ∧
      acts 0x110 (.frbaseWrite th.prt v) ∧ acts 0x114 (.frackResume th.prt v) ∧
      acts 0x118 (.mtpwWrite th.prt 0 v) ∧ acts 0x119 (.mtpwWrite th.prt 1 v) ∧
      (fld v 2 0 = 1 → acts 0x11C (.ctxSwap th.prt)) ∧ (fld v 2 0 = 2 → acts 0x11C (.ctxSpill th.prt)) ∧
      (fld v 2 0 = 3 → acts 0x11C (.ctxFill th.prt)) ∧ (fld v 2 0 = 0 ∨ 3 < fld v 2 0 → ignores 0x11C) ∧
      prtWrites 0x111 { p with frCons := (v >>> 32).setWidth 16 } ∧
      prtWrites 0x112 { p with frnote := v &&& 0xC0000000FFFFFFFF } ∧
      prtWrites 0x113 { p with fsave := v &&& 0x000FFFFFFFF00FFF } ∧
      prtWrites 0x11D { p with ctxSpill := v &&& 0x000FFFFFFFFFF000 } ∧
      (th.ctx ≠ 0 → prtWrites 0x100 { p with tvec1 := v &&& ~~~3 }) ∧
      (th.ctx = 0 → Completes (.mts a 0x100) s (fun t => Thread.doneAt th (th.pc + 4) = t.thr ∧
        t.prt th.prt = { p with tvec0 := v &&& ~~~3 })) ∧
      Completes (.mts a 0x138) s (fun t => Thread.doneAt th (th.pc + 4) = t.thr ∧
        t.prt th.prt = { p with dbgctl := v &&& 3 })) ∧
    (Vectored s → encode (.mfs d n) = some w →
      (sysAssigned n.toNat = false → Completes (.mfs d n) s (Trapped s · 1 (w.setWidth 64) 0)) ∧
      (sysAssigned n.toNat = true → 0x100 ≤ n.toNat → th.sup = false →
        Completes (.mfs d n) s (Trapped s · 2 (w.setWidth 64) 0))) ∧
    (Vectored s → encode (.mts a n) = some w →
      (sysAssigned n.toNat = false ∨ (0x10 ≤ n.toNat ∧ n.toNat ≤ 0x17) → Completes (.mts a n) s (Trapped s · 1 (w.setWidth 64) 0)) ∧
      (sysAssigned n.toNat = true → sysReadOnlyIll n.toNat = false → 0x100 ≤ n.toNat → th.sup = false →
        Completes (.mts a n) s (Trapped s · 2 (w.setWidth 64) 0))) ∧
    (let rs := (rangeLines v.toNat (s.g d).toNat).map (fun va => s.lineAt va)
     let done (t : State) : Prop := t.mem = s.mem ∧ t.thr.pc = th.pc + 4 ∧ t.thr.st = .ready
     Completes .iflush s done ∧
     (th.sup = true → (firstFault rs = none → Completes (.ilock d a) s done) ∧
       Completes (.iunlock d a) s done ∧
       (p.shoots.length < 4 → th.rlxOut = [] → Completes (.tlbinv d a) s (fun t => t.mem = s.mem ∧
         (t.prt th.prt).genIssued = p.genIssued + 1)) ∧
       (th.wiWait = true → th.wi ≠ 0 → Completes (.waiti d) s done) ∧
       (th.wiWait = true → th.wi = 0 → Completes (.waiti d) s (Waits s · .blocked))))

/-- R414 to R417, R203, R248, R254: ILOCK writes R203's code and locks every line of its range for the context
or none, and traps as a fetch does where a line cannot be fetched; IUNLOCK releases and counts the lines its
context has locked there; IFLUSH leaves no unlocked line of the partition and refetches the locked ones; TLBINV
starts a shoot-down and waits in MEMORY for it, or, with no agent to ask, is answered at once, or waits while four
are outstanding; SNAP triggers a Clapper when it may; WAITI waits BLOCKED and then writes its events; a fetch that
faults traps with that fault; at user privilege the privileged four trap.
It rests on the model's choices of log 44. -/
def Obligations.SystemInstructions : Prop :=
  ∀ (s : State) (d a : GReg) (w : W32),
    let th := s.thr
    let q := th.prt
    let m := s.tid / 128
    let rs := (rangeLines (s.g a).toNat (s.g d).toNat).map (fun va => s.lineAt va)
    let lines := (partsOf rs).map (fun p => p.1.pa / 128)
    let all : List Nat := (((s.clu m).icache.filter (fun x => x.locked)).map (fun x => x.line) ++ lines).eraseDups
    let code : Nat := if 256 < all.length then 1
      else if all.any (fun l => decide (2 < (all.filter (fun x => x % 128 == l % 128)).length)) then 2 else 0
    let hit (x : IcLine) : Bool :=
      x.locked && x.prt == q && x.ctx == th.ctx && lines.contains x.line
    let took (t : State) (x : W64) : Prop := t.mem = s.mem ∧ Took s t d x ∧
      ∀ u, u ≠ s.tid → t.thread u = s.thread u
    (th.sup = true →
      (firstFault rs = none →
        (code ≠ 0 → Completes (.ilock d a) s (Wrote s · d (BitVec.ofNat 64 code))) ∧
        (code = 0 → Completes (.ilock d a) s (fun t => took t 0 ∧
          (((s.clu m).icache.map (fun x => x.line)).Nodup → ∀ l ∈ lines, ∃ x ∈ (t.clu m).icache,
            x.line = l ∧ x.locked = true ∧ x.prt = q ∧ x.ctx = th.ctx)))) ∧
      (∀ c det v, firstFault rs = some (c, det, v) → Vectored s →
        Completes (.ilock d a) s (Trapped s · c (BitVec.ofNat 64 v) det)) ∧
      Completes (.iunlock d a) s (fun t =>
        took t (BitVec.ofNat 64 ((s.clu m).icache.filter hit).length) ∧
        ∀ x ∈ (t.clu m).icache, hit x = false) ∧
      ((s.prt q).shoots.length = 4 → Completes (.tlbinv d a) s (Waits s · .memory)) ∧
      ((s.prt q).shoots.length < 4 → (∀ h ∈ (s.prt q).shoots, h.wait ≠ []) → s.agents q ≠ [] → th.rlxOut = [] →
        Completes (.tlbinv d a) s (fun t => SameMemory s t ∧
          t.thr = { th with st := .memory, poll := false, atHome := false } ∧
          (t.prt q).genIssued = (s.prt q).genIssued + 1 ∧
          ∃ h, (t.prt q).shoots = (s.prt q).shoots ++ [h] ∧ h.gen = (s.prt q).genIssued + 1 ∧
            h.wait = s.agents q ∧ h.tid = some (s.tid, d.toNat) ∧ h.first = fld (s.g a) 55 12 ∧
            h.pages = fld (s.g d) 19 0 ∧ h.allVa = bitAt (s.g d) 21 ∧ h.allAsid = bitAt (s.g d) 22 ∧
            h.asid = (s.g d).extractLsb' 48 16)) ∧
      ((s.prt q).shoots = [] → s.agents q = [] → th.rlxOut = [] → Completes (.tlbinv d a) s (fun t =>
        SameMemory s t ∧ t.thr.st = .ready ∧ t.thr.pc = th.pc + 4 ∧ (t.prt q).shoots = [] ∧
        ∀ n, t.g n = if n = d ∧ n ≠ 0 then ((s.prt q).genIssued + 1).setWidth 64 else s.g n)) ∧
      (th.wiWait = false → Completes (.waiti d) s (fun t => OnlyThread s t ∧
        t.thr = { th with wiWait := true, wi := 0, st := .blocked, poll := true, atHome := false })) ∧
      (th.wiWait = true → th.wi = 0 → Completes (.waiti d) s (Waits s · .blocked)) ∧
      (th.wiWait = true → th.wi ≠ 0 → Completes (.waiti d) s (fun t => OnlyThread s t ∧
        t.thr.pc = th.pc + 4 ∧ t.thr.st = .ready ∧ t.thr.wiWait = false ∧
        ∀ n, t.g n = if n = d ∧ n ≠ 0 then th.wi.setWidth 64 else s.g n))) ∧
    (th.sup = false → Vectored s → ∀ i ∈ [Instr.ilock d a, .iunlock d a, .tlbinv d a, .waiti d],
      encode i = some w → Completes i s (Trapped s · 2 (w.setWidth 64) 0)) ∧
    Completes .iflush s (fun t => t.mem = s.mem ∧ t.thr = th.doneAt (th.pc + 4) ∧
      (∀ u, u ≠ s.tid → t.thread u = s.thread u) ∧
      (∀ x ∈ (t.clu m).icache, x.prt = q → x.locked = true ∧ x.data = s.homeLine m x.line) ∧
      ∀ x ∈ (s.clu m).icache, x.prt ≠ q → x ∈ (t.clu m).icache) ∧
    (let on := (s.prt q).dbgctl.getLsbD 1 && s.dbg.srcSnap
     (on = true → s.dbg.arm = true → Completes (.snap d) s (fun t => took t 1 ∧
       t.dbg.latched = true ∧ t.dbg.seq = s.dbg.seq + 1 ∧ t.snap.valid = true)) ∧
     (on = true → s.dbg.arm = false → Completes (.snap d) s (fun t => took t 0 ∧
       t.dbg.missed = min 255 (s.dbg.missed + 1) ∧ t.snap = s.snap)) ∧
     (on = false → Completes (.snap d) s (Wrote s · d 0))) ∧
    (∀ cause tv det, s.fetch = .fault cause tv det → Vectored s →
      Completes .instructionFetchFault s (Trapped s · cause tv det))

/-! ## Events: reset, power, the die bridge (R5, R19 to R25, R31, R80) -/

/-- R5, R20 to R25, R31, R80: the fundamental reset leaves no device memory, thread or partition and every
resource free; a write of an island's control is refused with its ERR code, queued while BUSY, or accepted, and
after a thermal shutdown does nothing; a transition ends in its new state, and the tiles of an island that goes
OFF or comes back from it read zero; the limiter goes down from 100 °C and up below 97 °C by one step; 110 °C is
the fatal event with the TRIP word; bridge replays change nothing a program sees, and a bridge failure is fatal.
The agenda in it is the model's (log 1). It rests on the model's choices of logs 3 and 5 (memory reads zero and
registers their defaults where R5 and R80 state no value), 43, 49. -/
def Obligations.ResetAndPower : Prop :=
  ∀ (s : State) (n temp : Nat) (v : W32),
    let x := s.island n
    let st := fld v 9 8
    let f := fld v 6 0
    let becomes (P : Island → Prop) (t : State) : Prop := P (t.island n) ∧
      (∀ m, m ≠ n → t.island m = s.island m) ∧ { t with pwr := s.pwr, agenda := s.agenda } = s
    let lim (hot : Bool) (y : Island) : Prop := y.temp = some (BitVec.ofNat 8 temp) ∧ y.hot = hot ∧
      y.freq = x.freq ∧ y.freqNow = min y.freq y.lim ∧ y.throt = decide (y.freqNow < y.freq) ∧
      y.lim = if hot then min x.lim x.freqNow - 1 else if x.lim < x.freq then x.lim + 1 else 90
    let trips : Prop := s.pwr.trip.getLsbD 63 = true
    Completes .fundamentalReset s (fun t => (∀ a, isHost a = false → t.byteAt a = 0) ∧ (∀ k, t.thread k = {}) ∧
      (∀ k, t.blkOwn.look {} k = {} ∧ t.cluOwn.look {} k = {} ∧ t.hbmOwn.look {} k = {}) ∧
      (∀ q, t.prt q = {}) ∧ (∀ k, t.island k = {}) ∧ (∀ k, t.link k = {}) ∧ t.dbg = {}) ∧
    (trips → Completes (.pwrIslCtlWrite n v) s (· = s)) ∧
    (¬trips → f < 30 ∨ 90 < f → Completes (.pwrIslCtlWrite n v) s (becomes (· = { x with err := 1 }))) ∧
    (¬trips → 30 ≤ f → f ≤ 90 → st = 3 → Completes (.pwrIslCtlWrite n v) s (becomes (· = { x with err := 2 }))) ∧
    (¬trips → 30 ≤ f → f ≤ 90 → st = 1 ∨ st = 2 → s.islandOwned n = true →
      Completes (.pwrIslCtlWrite n v) s (becomes (· = { x with err := 3 }))) ∧
    (¬trips → s.islErr n st f = 0 → x.busy = true → Completes (.pwrIslCtlWrite n v) s
      (becomes (· = { x with queued := some (st, f), err := 0 }))) ∧
    (¬trips → s.islErr n st f = 0 → x.busy = false → st ≠ x.stNow → Completes (.pwrIslCtlWrite n v) s (fun t =>
      becomes (· = { x with freq := f, state := st, err := 0, busy := true }) t ∧
      t.agenda = s.agenda ++ [.islandTransitionDone n])) ∧
    (x.busy = true → x.queued = none → Completes (.islandTransitionDone n) s (fun t =>
      t.island n = { x with freqNow := min x.freq x.lim, throt := decide (min x.freq x.lim < x.freq)
                            stNow := x.state, busy := false } ∧
      (x.state ≠ 2 → x.stNow ≠ 2 → t.mem = s.mem) ∧
      (x.state = 2 ∧ x.stNow ≠ 2 ∨ x.stNow = 2 ∧ x.state ≠ 2 → n % 20 < 8 → ∀ b < 272, blockIsland b = n → ∀ k < 16, ∀ o < 0x10000,
        t.byteAt (tileAddr (tileSite b k) + o) = 0))) ∧
    (100 ≤ temp → Completes (.thermalThrottle n temp) s (becomes (lim true))) ∧
    (temp < 97 → Completes (.limiterStep n temp) s (becomes (lim false))) ∧
    (97 ≤ temp → temp < 100 → Completes (.limiterStep n temp) s (becomes (lim x.hot))) ∧
    (100 ≤ temp → Completes (.limiterStep n temp) s (becomes (lim true))) ∧
    Completes (.thermalShutdown n) s (fun t => t.dbg.fatal = true ∧ bitAt t.hif.errStat 6 = true ∧
      t.pwr.trip = BitVec.ofNat 64 (2 ^ 63 + n % 64) ∧
      (∀ i < 40, i % 20 ≠ 19 → (t.island i).stNow = 2) ∧
      (∀ m, (t.link m).up = false) ∧ ((∃ e ∈ s.lnk.links, (s.link e.1).up = true) → bitAt t.hif.errStat 2 = true) ∧
      ∀ a, t.byteAt a = if isHost a then s.byteAt a else 0) ∧
    Completes .bridgeReplay s (fun t =>
      t = { s with lnk := { s.lnk with bridgeReplays := s.lnk.bridgeReplays + 1 } }) ∧
    Completes .bridge s (fun t => t.dbg.fatal = true ∧ bitAt t.hif.errStat 7 = true ∧ t.mem = s.mem ∧
      (s.dbg.toc = .running → t.dbg.toc = .halting ∧ t.dbg.cause = 4))

/-! ## Events: the host (R49 to R66) -/

/-- R50 to R54, R58, R59: a bind write is ignored whole where a binding in force or a check forbids it; a
doorbell on the port that its binding selects, if that port has its clock, moves TAIL or is counted; a function-level reset empties its ring
or clears bindings; an error sets its bit of HIF_ERR and, of memory, records its address.
The agenda in it is the model's (log 1). It rests on the model's choices of logs 32, 56, 58. -/
def Obligations.HostFunctionsAndErrors : Prop :=
  ∀ (s : State) (n port a : Nat) (w : W32) (k : MemKind),
    let v := s.vf n
    let en := bitAt w 31
    let sel := bitAt w 8
    let q := fld w 5 0
    let becomes (y : Vf) (t : State) : Prop := t.vf n = y ∧ (∀ m, m ≠ n → t.vf m = s.vf m) ∧
      { t with hif := s.hif, agenda := s.agenda } = s
    (v.enable = true → sel ≠ v.port ∨ q ≠ v.prt → Completes (.vfBindWrite n w) s (· = s)) ∧
    (en = true → s.bindOk q v = false → Completes (.vfBindWrite n w) s (· = s)) ∧
    ((v.enable = true → sel = v.port ∧ q = v.prt) → (en = true → s.bindOk q v = true) →
      Completes (.vfBindWrite n w) s (becomes { v with enable := en, port := sel, prt := q })) ∧
    (v.enable = true ∧ b2n v.port ≠ port ∨ s.hostPort port = false → Completes (.doorbell n port w) s (· = s)) ∧
    (s.hostPort port = true → v.enable = false ∨ b2n v.port = port ∧ v.size ≤ fld w 15 0 →
      Completes (.doorbell n port w) s (becomes { v with baddb := min 255 (v.baddb + 1) })) ∧
    (s.hostPort port = true → v.enable = true → b2n v.port = port → fld w 15 0 < v.size →
      Completes (.doorbell n port w) s (fun t => becomes { v with tail := fld w 15 0 } t ∧
        t.agenda = s.agenda ++ [.jobRecordTake n])) ∧
    Completes (.vfFlr n) s (fun t => (t.vf n).head = 0 ∧ (t.vf n).tail = 0 ∧ (t.vf n).baddb = 0 ∧
      (t.vf n).badrec = 0) ∧
    Completes .pf0Flr s (fun t => ∀ m, (t.vf m).enable = false) ∧
    ((s.hif.vfs.map (·.1)).Nodup → Completes .pf1Flr s (fun t => ∀ m,
      ((s.vf m).port = true → (t.vf m).enable = false) ∧ ((s.vf m).port = false → t.vf m = s.vf m))) ∧
    Completes (.memoryUncorrectableError k a) s (fun t => t.mem = s.mem ∧ t.poisoned a 1 = true ∧
      bitAt t.hif.errStat (match k with | .sram => 3 | .ddr => 4 | .hbm => 5) = true ∧
      t.hif.errAddr = if fld s.hif.errStat 5 3 = 0 then a % 2 ^ 52 else s.hif.errAddr) ∧
    Completes .cxlerr s (fun t => bitAt t.hif.errStat 1 = true ∧
      { t with hif := s.hif, irqs := s.irqs } = s ∧
      (bitAt s.hif.errStat 1 = false → t.irqs = s.irqs ++ [⟨pf0, 0⟩])) ∧
    Completes .fwfail s (fun t => bitAt t.hif.errStat 0 = true ∧ t.hif.fwRuns = false ∧ t.mem = s.mem)

/-- R49, R60 to R66, R252: a CXL.mem request in the host-visible range reads or writes its 64 bytes, at the
destination below the watermark of an open redirect, with the device's
caches where none holds the line under a page that is not host-coherent, else in memory alone, where a word that
a cache holds newer is older and the caches keep what they hold; storage without clock takes no write; a snoop leaves no device copy of its line; an aperture access reads or writes bytes
at their homes; none of them passes a port without clock; the firmware's STATUS follows START, the end of
verification, ACTIVATE and its end; an attestation request is answered; an IDE key replaces the one of its port
and stream.
The agenda in it is the model's (log 1). It rests on the model's choices of logs 7, 10, 56, 57, 64. -/
def Obligations.HostMemoryAndFirmware : Prop :=
  ∀ (s : State) (addr pf off n port stream : Nat) (data : List Byte) (r : FwResult) (hash : BitVec 512)
    (svn : Byte) (raises : Bool) (key : BitVec 256) (rq : SpdmReq),
    let line := addr / 64 * 64
    let a := s.redirectHome line
    let h := hostWin + addr % 2 ^ 51 / 64 * 64
    let aper := if pf = 0 then s.hif.aper0 else s.hif.aper1
    let b := fld aper 51 32 * 2 ^ 32 + off
    (s.inHdm line = false → Completes (.hostCxlMemRequest false addr data) s (· = s) ∧
      Completes (.hostCxlMemRequest true addr data) s (· = s)) ∧
    (s.hostPort 0 = false → ∀ wr, Completes (.hostCxlMemRequest wr addr data) s (· = s) ∧
      Completes (.hostSnoop addr) s (· = s)) ∧
    (s.hostPort 0 = true → s.inHdm line = true →
      Completes (.hostCxlMemRequest false addr data) s (fun t => t.mem = s.mem ∧ t.copies = s.copies ∧
        t.outbox = s.outbox ++ [.hostRead line (if s.coherentLine a then Memory.readList s.mem a 64
          else ((List.range 8).map (fun i => a + 8 * i)).flatMap (fun w => leBytes 8 (s.hostWord w).toNat))] ∧
        a / 64 ∈ t.hif.lines) ∧
      (s.homeClock a = false → Completes (.hostCxlMemRequest true addr data) s (· = s)) ∧
      (s.waiters = [] → s.homeClock a = true → data.length = 64 →
        (s.coherentLine a = true → Completes (.hostCxlMemRequest true addr data) s (fun t =>
          Stored s t (List.range' a 64) (leNat data) ∧ ∀ c ∈ t.copies, c.addr / 64 ≠ a / 64)) ∧
        (s.coherentLine a = false → (∀ i < 8, s.copyAt hostLevel (a + 8 * i) = none) →
          Completes (.hostCxlMemRequest true addr data) s (fun t =>
            Stored s t (List.range' a 64) (leNat data) ∧ ∀ c ∈ s.copies, c ∈ t.copies)) ∧
        (s.coherentLine a = false → (∀ i < 8, s.copyAt hostLevel (a + 8 * i) ≠ none) →
          Completes (.hostCxlMemRequest true addr data) s (fun t => t.mem = s.mem ∧
            ∀ i < 8, t.hostWord (a + 8 * i) = BitVec.ofNat 64 (leNat ((data.drop (8 * i)).take 8)))))) ∧
    (s.hostPort 0 = true → Completes (.hostSnoop addr) s (fun t => t.mem = s.mem ∧
      t.outbox = s.outbox ++ [.snoopReply h (Memory.readList s.mem h 64)] ∧
      ∀ c ∈ t.copies, c.addr + 8 ≤ h ∨ h + 64 ≤ c.addr)) ∧
    (s.hostPort pf = false → ∀ wr, Completes (.hostBar2Access pf wr off n data) s (· = s)) ∧
    (s.hostPort pf = true → Completes (.hostBar2Access pf false off n data) s (fun t => t =
      { s with outbox := s.outbox ++
        [.bar2Read pf ((List.range n).map (fun i => s.bar2Byte (fld aper 5 0) (b + i)))] })) ∧
    (s.hostPort pf = true → (∀ i < data.length, s.bar2At (fld aper 5 0) (b + i) = .mem (b + i) ∧
        s.homeClock (b + i) = true) → s.waiters = [] →
      Completes (.hostBar2Access pf true off n data) s (fun t =>
        Stored s t (List.range' b data.length) (leNat data))) ∧
    (s.hif.fwStatus = 1 → Completes .fwStart s (· = s)) ∧
    (s.hif.fwStatus ≠ 1 → Completes .fwStart s (fun t => t.hif.fwStatus = 1 ∧ t.hif.staged = none ∧
      t.hif.fetching = true)) ∧
    (s.hif.fetching = true → Completes (.fwVerifyDone r hash svn raises) s (fun t =>
      t.hif.fetching = false ∧
      (r = .dmaErr → t.hif.fwStatus = 5) ∧ (r = .badSig → t.hif.fwStatus = 3) ∧
      (r = .rollback → t.hif.fwStatus = 4) ∧
      (r = .verified → svn.toNat < s.hif.min.toNat → t.hif.fwStatus = 4) ∧
      (r = .verified → s.hif.min.toNat ≤ svn.toNat → t.hif.fwStatus = 2 ∧
        t.hif.staged = some (hash, svn, raises)))) ∧
    (s.hif.staged = none ∨ s.jobsOpen = true → Completes .fwActivate s (fun t => t.hif.fwStatus = 7)) ∧
    (s.hif.staged = some (hash, svn, raises) → s.jobsOpen = false → Completes .fwActivate s (fun t =>
      t.hif.activating = s.hif.staged ∧ t.agenda = s.agenda ++ [.fwActivateDone])) ∧
    (s.hif.activating = some (hash, svn, raises) → Completes .fwActivateDone s (fun t =>
      t.hif.fwStatus = 6 ∧ t.hif.runHash = some hash ∧ t.hif.svn = some svn ∧ t.mem = s.mem ∧
      (∀ k, (t.thread k).st = .empty) ∧
      (raises = true → s.hif.min.toNat < svn.toNat → t.hif.min = svn))) ∧
    Completes (.spdmRequest pf rq) s (fun t =>
      t = { s with outbox := s.outbox ++ [.spdm pf (s.hif.spdm rq)] }) ∧
    s.hif.spdm .algorithms = .algorithms ["ML-DSA-87"] ["SHA3-512"] ∧
    (n ≠ 0 → s.hif.spdm (.certificate n) = .error) ∧
    (n = 0 ∨ 5 < n → s.hif.spdm (.measurement n) = .error) ∧
    s.hif.spdm (.measurement 4) = .measurement s.hif.rewHash ∧
    Completes (.ideKm port stream key) s (fun t => (port, stream, key) ∈ t.hif.ide ∧
      ∀ e ∈ t.hif.ide, e.1 = port → e.2.1 = stream → e.2.2 = key)

/-! ## Events: Peal links (R36 to R46) -/

/-- R36, R39, R44, R46: the link registers and the link's states: the package number is written once; a link
is enabled into training, held down, trained to UP8, UP4 or DUPID, goes down with its flits rerouted or
dropped, and trains again keeping the flits it holds, whose replays count anew; without power in its island it does not train.
It rests on the model's choices of logs 25, 48. -/
def Obligations.LinkStates : Prop :=
  ∀ (s : State) (n lanes peer q cls dst : Nat) (v : W32),
    let l := s.link n
    let p := s.prt q
    let becomes (y : Link) (t : State) : Prop := t.link n = y ∧ ∀ m, m ≠ n → t.link m = s.link m
    Completes (.lnkPkgidWrite v) s (fun t => t = if s.lnk.lock then s else
      { s with lnk := { s.lnk with pkgid := fld v 7 0, lock := true } }) ∧
    Completes (.linkClr n) s (becomes { l with replays := 0, drops := 0 }) ∧
    (bitAt v 1 = false → bitAt v 0 = true → l.enable = false → Completes (.linkEnable n v) s
      (becomes { l with enable := true, st := if s.linkPower n then .training else .down })) ∧
    (bitAt v 0 = false → Completes (.linkEnable n v) s (fun t => (t.link n).enable = false ∧
      (t.link n).st = .down ∧ (t.link n).out = [] ∧ (t.link n).hold = [])) ∧
    (l.st ≠ .training ∨ s.linkPower n = false → Completes (.linkTrainDone n lanes peer) s (· = s)) ∧
    (l.st = .training → s.linkPower n = true → peer = s.pkg → Completes (.linkTrainDone n lanes peer) s (fun t =>
      (t.link n).st = .dupid ∧ (t.link n).peer = 0 ∧ (t.link n).out = [] ∧ (t.link n).hold = [])) ∧
    (l.st = .training → s.linkPower n = true → peer ≠ s.pkg → Completes (.linkTrainDone n lanes peer) s (fun t =>
      becomes { l with st := if lanes = 8 then .up8 else .up4, peer := peer
                       replays := min 0xFFFF (l.replays + l.hold.length) } t ∧
      t.outbox = s.outbox ++ l.hold.map (fun x => Out.flit n x.flit))) ∧
    Completes (.linkDown n) s (fun t => (t.link n).out = [] ∧ (t.link n).hold = [] ∧
      (t.link n).st = (if l.enable then .training else .down) ∧
      (l.up = true → bitAt t.hif.errStat 2 = true)) ∧
    (l.up = true → Completes (.linkRetrain n) s (fun t =>
      becomes { l with st := .training, hold := l.hold.map (fun x => { x with tries := 0 }) } t ∧ bitAt t.hif.errStat 2 = true)) ∧
    Completes (.lnkPrtRtWrite q cls dst v) s (fun t => (t.prt q).rt.look 0 (rtKey cls dst) =
      if (bitAt v 9 && !bitAt p.linkMask (fld v 3 0)) || (bitAt v 8 && !bitAt p.linkMask (fld v 7 4))
      then p.rt.look 0 (rtKey cls dst) ||| 0x80000000 else v &&& 0x3FF) ∧
    Completes (.lnkLinkmaskWrite q v) s (fun t => (t.prt q).linkMask = v.setWidth 16 ∧ ∀ k,
      let e := (t.prt q).rt.look 0 k
      bitAt e 9 = true → bitAt (t.prt q).linkMask (fld e 3 0) = true ∧
        (bitAt e 8 = true → bitAt (t.prt q).linkMask (fld e 7 4) = true)) ∧
    Completes (.lnkDomainWrite q v) s (fun t => t.prt q =
      if bitAt v 31 = true ∧ fld v 11 0 = 0 then p
      else { p with domValid := bitAt v 31, domain := v.setWidth 12 })

/-- R37 to R40, R42, R45, R392: the flit at the head of the CONTROL class that overtakes none goes out under the next
sequence number with one credit fewer and is held; without a credit nothing goes out; a flit that fails its check is
answered NAK; one in sequence advances the expected number, is dropped and counted when its hops are spent, with a
notice to the package it came from, which tells the request of it that the flit carried, if any (R382), and which is
itself counted where it finds no route, or hands its message to the core it names; a route notice ends its engine command with NOROUTE; a request of
another package is performed and its answer sent.
It rests on the model's choices of logs 11, 25, 48. -/
def Obligations.LinkTraffic : Prop :=
  ∀ (s : State) (n req src domain q k va len : Nat) (f : Flit) (name core sender : W32)
    (w0 w1 : W64) (asid : W16) (data : List Byte) (x : RReq) (c : ACmd) (id hops : Nat) (y : Queued) (ys : List Queued),
    let l := s.link n
    let seqd : Prop := l.up = true ∧ s.linkPower n = true ∧ flitFormed f = true ∧ f.type = .data ∧ f.ackv = false ∧
      f.credits = 0 ∧ f.nak = false ∧ f.seq = l.expect
    let ask (root : Nat) : Agent := ⟨q, root, true, none⟩
    (l.up = true → s.linkPower n = true → l.hold.length < 512 → l.out = y :: ys → y.flit.cls = .control →
      0 < l.cr2 → s.overtakes n y = false → Completes (.flitTransmit n) s (fun t =>
        let g := { y.flit with seq := l.nextSeq, ack := (l.expect + 1023) % 1024, ackv := true, nak := false }
        t.link n = { l with out := ys, hold := l.hold ++ [{ y with flit := g, tries := 0 }]
                            nextSeq := (l.nextSeq + 1) % 1024, cr2 := min 16 (l.cr2 - 1) } ∧
        t.outbox = s.outbox ++ [.flit n g])) ∧
    (l.out = [y] → l.cr y.flit.cls = 0 ∨ s.overtakes n y = true → Completes (.flitTransmit n) s (· = s)) ∧
    (s.linkPower n = false → Completes (.flitTransmit n) s (· = s) ∧ Completes (.flitReceive n f true) s (· = s)) ∧
    (l.up = true → s.linkPower n = true → Completes (.flitReceive n f false) s (fun t => ∃ g, g.nak = true ∧
      t = { s with outbox := s.outbox ++ [.flit n g] })) ∧
    (l.up = true → s.linkPower n = true → f.seq ≠ l.expect → Completes (.flitReceive n f true) s (fun t =>
      ∃ g, g.nak = true ∧ t = { s with outbox := s.outbox ++ [.flit n g] })) ∧
    (seqd → f.dst ≠ s.pkg → f.hops ≤ 1 → Completes (.flitReceive n f true) s (fun t =>
      let g := mkFlit s.pkg f.src 0 .control (.notice (payloadOrigin f.payload))
      let m := fld (s.rtEntry g) 3 0
      (t.link n).expect = (l.expect + 1) % 1024 ∧
      (f.src = s.pkg ∨ s.route g ≠ none ∨ m ≠ n → (t.link n).drops = min 0xFFFF (l.drops + 1)) ∧
      (payloadOrigin f.payload = some req → f.src = s.pkg → .routeNotice req ∈ t.agenda) ∧
      (∀ k, f.src ≠ s.pkg → s.route g = some k → ∃ x ∈ (t.link k).out, x.flit = g) ∧
      (f.src ≠ s.pkg → s.route g = none → m ≠ n → (t.link m).drops = min 0xFFFF ((s.link m).drops + 1)))) ∧
    (seqd → f.dst = s.pkg → f.payload = .message name core w0 w1 sender req hops →
      s.domainPrt (fld f.tag 11 0) = some q → s.coreOf q core = some k →
      Completes (.flitReceive n f true) s (fun t => t.link n = { l with expect := (l.expect + 1) % 1024 } ∧
        ∃ m, t.msgs = s.msgs ++ [m] ∧ m.prt = q ∧ m.name = name ∧ m.core = k ∧ m.hops = hops ∧ m.w0 = w0 ∧
          m.w1 = w1 ∧ m.site = sender ∧ m.remote = some (f.src, req))) ∧
    (s.lnk.reqs.find? (fun y => y.id == req) = some x → x.cmd = some id → s.acmd id = some c →
      c.id = id → Completes (.routeNotice req) s (fun t =>
        ∀ d, t.acmd id = some d → d.ended = true ∧ d.status = 4)) ∧
    (∀ root b, s.domainPrt domain = some q → s.rootOf q asid = some root →
      (s.agentRead (ask root) va len = .ok b →
        s.route (mkFlit s.pkg src domain (if b.isEmpty then .lowLatency else .bulk) (.reply req b 0)) = some k →
        Completes (.remoteMemoryRequest src domain (.read asid va len req)) s (fun t => t.mem = s.mem ∧
          ∃ x, (t.link k).out = (s.link k).out ++ [x] ∧
            x.flit = mkFlit s.pkg src domain (if b.isEmpty then .lowLatency else .bulk) (.reply req b 0))) ∧
      (∀ u, s.engineWrite (ask root) va data = .ok u →
        Completes (.remoteMemoryRequest src domain (.write asid va data req)) s (fun t => t.mem = u.mem)))

/-! ## Events: Clapper, comparators, Tocsin (R69 to R75) -/

/-- R69 to R75: a trigger is taken while ARM is 1 and latches every record, else it counts as missed; a
comparator's control keeps its bits or ignores the write whole; Tocsin goes from running through halting to
halted, steps, and resumes, each only where the manual lets it.
The agenda in it is the model's (log 1). It rests on the model's choices of log 16. -/
def Obligations.DebugEvents : Prop :=
  ∀ (s : State) (n : Nat) (v : W32),
    let d := s.dbg
    let taken (src : Nat) (t : State) : Prop := t.mem = s.mem ∧
      (d.arm = true → t.dbg.arm = false ∧ t.dbg.latched = true ∧ t.dbg.seq = d.seq + 1 ∧
        t.dbg.source = src ∧ t.snap = s.latch) ∧
      (d.arm = false → t = { s with dbg := { d with missed := min 255 (d.missed + 1) } })
    let toc (st : TocSt) (t : State) : Prop := t.dbg = { d with toc := st } ∧ t.mem = s.mem
    (∀ g : GReg, let on := (s.prt s.thr.prt).dbgctl.getLsbD 1 && d.srcSnap
      (on = true → d.arm = true → Completes (.snap g) s (fun t => Took s t g 1 ∧ t.mem = s.mem ∧
        t.dbg.seq = d.seq + 1 ∧ t.dbg.source = 1)) ∧
      (on = true → d.arm = false → Completes (.snap g) s (fun t => Took s t g 0 ∧ t.snap = s.snap)) ∧
      (on = false → Completes (.snap g) s (Wrote s · g 0))) ∧
    Completes .clapperFire s (taken 0) ∧ Completes .remoteClapperTrigger s (taken 4) ∧
    (bitAt v 8 = false → Completes (.clapperArm v) s (fun t => t = { s with dbg := { d with
      clapProp := bitAt v 7, srcTocsin := bitAt v 3, srcEvent := bitAt v 2, srcSnap := bitAt v 1
      arm := bitAt v 0, latched := !bitAt v 0 && d.latched } })) ∧
    (fld v 30 29 = 3 ∨ fld v 23 22 = 3 → Completes (.dbgEvtWrite n v) s (· = s)) ∧
    (fld v 30 29 ≠ 3 → fld v 23 22 ≠ 3 → Completes (.dbgEvtWrite n v) s (fun t =>
      t.dbg.evts.look {} n = { d.evts.look {} n with ctl := v &&& 0xE0C0FFFF } ∧
      ∀ m, m ≠ n → t.dbg.evts.look {} m = d.evts.look {} m)) ∧
    (d.toc = .running → d.srcTocsin = false → d.tocProp = false →
      Completes .tocsinHalt s (fun t => t.dbg = { d with toc := .halting, cause := 0 } ∧
        t.agenda = s.agenda ++ [.tocsinHalted]) ∧
      Completes (.remoteTocsin false) s (fun t => t.dbg = { d with toc := .halting, cause := 3 } ∧
        t.agenda = s.agenda ++ [.tocsinHalted])) ∧
    (d.toc ≠ .running → Completes .tocsinHalt s (· = s)) ∧
    (d.toc = .halting → Completes .tocsinHalted s (fun t => toc .halted t ∧
      t.irqs = s.irqs ++ [⟨pf0, 2⟩])) ∧
    (d.toc = .stepping → Completes .tocsinStepEnd s (fun t => toc .halted t ∧
      t.irqs = s.irqs ++ [⟨pf0, 2⟩])) ∧
    (d.toc = .halted → d.fatal = false → d.steps ≠ 0 → (∀ e ∈ s.threads, e.2.lateTrap = none) →
      Completes .tocsinStep s (toc .stepping)) ∧
    (d.toc = .halted → d.fatal = false → d.tocProp = false → (∀ e ∈ s.threads, e.2.lateTrap = none) →
      Completes .tocsinResume s (toc .running) ∧ Completes (.remoteTocsin true) s (toc .running)) ∧
    (d.toc ≠ .halted ∨ d.fatal = true → Completes .tocsinResume s (· = s) ∧
      Completes .tocsinStep s (· = s))

/-! ## Events: elastic partitions (R85 to R113) -/

/-- R85, R86, R106, R113: a command starts PROPOSE with the proposal registers, waits in the queue behind the
running one, or is refused BUSY; a DESTROY proposes the empty shape; PRT_GRD_CLR zeroes the drop count and
VALID; a quota with a field above its range is ignored whole.
It rests on the model's choices of log 26. -/
def Obligations.PartitionCommands : Prop :=
  ∀ (s : State) (q : Nat) (sup : Bool) (v : W64),
    let p := s.prt q
    let refused (t : State) : Prop := (t.prt q).rszStatus = 1 ∧ (t.prt q).rszBusy = p.rszBusy ∧
      t.resize = s.resize ∧ t.resizeQ = s.resizeQ
    let asked (k : Nat) (z : Resize) : Prop := z.prt = q ∧ z.cmd = k ∧ z.step = 1 ∧
      z.origin = (if sup then 2 else 1) ∧ z.blk = (if k = 3 then 0 else p.propBlk) ∧
      z.clu = (if k = 3 then 0 else p.propClu) ∧ z.hbm = (if k = 3 then 0 else p.propHbm) ∧
      z.ddr = (if k = 3 then 0 else p.propDdr)
    let busy (t : State) : Prop := (t.prt q).rszBusy = true ∧ (t.prt q).rszOrigin = (if sup then 2 else 1)
    (∀ i k, (i, k) ∈ [(Instr.prtCreate q sup, 1), (.prtResize q sup, 2), (.prtDestroy q sup, 3)] →
      (p.rszBusy = true ∨ p.ctxState = 1 → s.waiters = [] → Completes i s refused) ∧
      (p.rszBusy = false → p.ctxState ≠ 1 → s.resize = none → Completes i s (fun t => busy t ∧
        (∃ z, t.resize = some z ∧ asked k z) ∧ (t.prt q).rszStep = 1 ∧ (t.prt q).rszStatus = 13)) ∧
      (p.rszBusy = false → p.ctxState ≠ 1 → ∀ y, s.resize = some y → Completes i s (fun t => busy t ∧
        t.resize = some y ∧ (∃ z, t.resizeQ = s.resizeQ ++ [z] ∧ asked k z) ∧
        (t.prt q).rszStatus = 12))) ∧
    Completes (.prtGrdClr q) s (fun t => t.prt q =
      { p with grdCnt := 0, grdRec0 := p.grdRec0 &&& 0x7FFFFFFFFFFFFFFF }) ∧
    Completes (.prtQuotaWrite q v) s (fun t => t.prt q =
      if 272 < fld v 8 0 ∨ 256 < fld v 24 16 ∨ 96 < fld v 31 25 ∨ 2048 < fld v 43 32 then p
      else { p with quota := v &&& 0x00000FFFFFFF01FF })

/-- R83 to R102: each step of the running command, while the package is not halted: a failed check ends the
command with its code and changes no resource, those of a DESTROY judged with its jobs cancelled; the steps
follow one another; a moved region, core or page is at its target, and a region moved twice keeps one
relocation entry; MIGRATE ends when nothing is left to move; a line goes to its new slice unless it is pinned,
with no value changed, and REHASH ends when no old slice holds one; departing resources are SCRUBBING after
REHASH, cleared and FREE after SCRUB; COMMIT gives the partition its new owner tags and group list, and CREATE
and DESTROY its existence.
It rests on the model's choices of logs 2, 7, 26, 27, 28, 54, 55. -/
def Obligations.ResizeSteps : Prop :=
  ∀ (s : State) (z : Resize) (sl c line : Nat) (w : W32), s.resize = some z → s.prtRuns none = true →
    let p := s.prt z.prt
    let entered (k : Nat) (t : State) : Prop := (t.prt z.prt).rszStep = k ∧
      ∃ y, t.resize = some y ∧ y.step = k ∧ y.prt = z.prt ∧ y.cmd = z.cmd
    let r := s.region z.prt sl
    let judged : State := if z.cmd = 3 ∧ z.origin ≠ 2 ∧ p.exist = true then s.destroyJobs z.prt else s
    let plan := judged.propose z
    (z.step = 1 → plan.1 ≠ 0 → s.resizeQ = [] → s.waiters = [] → Completes .resizePropose s (fun t =>
      t.resize = none ∧ (t.prt z.prt).rszBusy = false ∧ (t.prt z.prt).rszStep = 0 ∧
      (t.prt z.prt).rszStatus = plan.1 ∧ t.regions = s.regions ∧ t.blkOwn = s.blkOwn ∧
      t.cluOwn = s.cluOwn ∧ t.hbmOwn = s.hbmOwn)) ∧
    (z.step = 1 → plan.1 = 0 → z.cmd ≠ 3 → Completes .resizePropose s (fun t => entered 2 t ∧
      ∃ d, 0 < d ∧ d ≤ 2048 ∧
        t.resize = some { plan.2 with
          durs := plan.2.durs ++ [d], step := 2, oldBlk := bitmap 272 (s.blocksOf z.prt)
          oldClu := bitmap 256 (s.clustersOf z.prt) })) ∧
    (z.step = 1 → plan.1 = 0 → z.cmd = 3 → Completes .resizePropose s (entered 2)) ∧
    (z.step = 2 → Completes .resizeGuard s (entered (if z.cmd = 1 then 7 else 3))) ∧
    (z.step = 3 → z.cmd ≠ 3 → Completes .resizeDrain s (fun t => entered 4 t ∧
      (t.prt z.prt).drained = s.drains z)) ∧
    (z.step = 4 → z.regions.find? (fun e => e.1 == sl) = some (sl, w) → r.loaded = true →
      (r.clock ≠ 2 ∨ r.savedAt ≠ none) → Completes (.regionMove sl) s (fun t =>
        (t.region z.prt sl).x = regionX w ∧ (t.region z.prt sl).y = fld w 13 7 ∧
        ∃ y, t.resize = some y ∧ y.regions = z.regions.filter (fun e => e.1 != sl) ∧
          y.nreloc = z.nreloc + (if p.entryOf sl (fabSite s.pkg (siteAt r.x r.y) 0) = true then 0 else 1))) ∧
    (z.step = 4 → c ∈ z.cores → s.coreQuiet c = true → ∀ k o, s.targetCore z = some k →
      s.poolFit z.prt c k = some o → Completes (.coreMove c) s (fun t =>
        (∃ y, t.resize = some y ∧ y.cores = z.cores.filter (fun d => d != c) ∧ y.ncore = z.ncore + 1) ∧
        ∃ i, let e := (t.prt z.prt).reloc.look {} i
          e.valid = true ∧ e.core = true ∧ e.live = true ∧ e.old = coreSite s.pkg c ∧
            e.new = coreSite s.pkg k ∧ e.poolOff = 1024 * o)) ∧
    (z.step = 4 → s.sweepDone z = false → z.grow = true → Completes .hbmSweepPage s (fun t =>
      let a := hbmHome p.groups (4096 * z.w)
      let b := hbmHome z.groups (4096 * z.w)
      (∃ y, t.resize = some y ∧ y.w = z.w + 1) ∧
      (a ≠ b → ∀ i < 4096, t.byteAt (b + i) = (s.performPrt z.prt).byteAt (a + i)))) ∧
    (z.step = 4 → s.sweepDone z = false → z.grow = false → z.w ≤ p.sweepPages →
      Completes .hbmSweepPage s (fun t => ∃ y, t.resize = some y ∧ y.w = z.w - 1)) ∧
    (z.step = 4 → z.regions = [] → z.cores = [] ∨ z.cmd = 3 → s.sweepDone z = true →
      Completes .resizeMigrate s (entered 5)) ∧
    (z.step = 5 → Completes (.rehashSweepLine line) s (fun t => t.mem = s.mem ∧
      ∀ x, s.l2 = [x] → x.prt = z.prt → x.blk = line → x.die < 2 →
        let new := s.sliceOf x.prt x.die line
        (s.pinned x.die line = true ∨ x.slice = new → t.l2 = [x] ∧ t.resize = some z) ∧
        (s.pinned x.die line = false → x.slice ≠ new → t.l2 = [{ x with slice := new }] ∧
          t.resize = some { z with moved := z.moved + 1 }))) ∧
    (z.step = 5 → s.strayBlocks z ≠ [] → Completes .resizeRehash s (fun t => t = s)) ∧
    (z.step = 5 → s.strayBlocks z = [] → Completes .resizeRehash s (fun t => entered 6 t ∧
      (∀ b ∈ s.goneBlocks z, t.blkOwn.look {} b = ⟨.scrubbing, z.prt⟩) ∧
      (∀ m ∈ s.goneClusters z, t.cluOwn.look {} m = ⟨.scrubbing, z.prt⟩) ∧
      ∀ g ∈ s.goneGroups z, t.hbmOwn.look {} g = ⟨.scrubbing, z.prt⟩)) ∧
    (z.step = 6 → Completes .resizeScrub s (fun t => entered 7 t ∧
      (∀ b ∈ scrubbing s.blkOwn z.prt, t.blkOwn.look {} b = {} ∧
        ∀ k < 16, ∀ o < 0x10000, t.byteAt (tileAddr (tileSite b k) + o) = 0) ∧
      (∀ m ∈ scrubbing s.cluOwn z.prt, t.cluOwn.look {} m = {}) ∧
      ∀ g ∈ scrubbing s.hbmOwn z.prt, t.hbmOwn.look {} g = {})) ∧
    (z.step = 7 → s.resizeQ = [] → Completes .resizeCommit s (fun t => t.resize = none ∧
      (∀ b < 272, bitAt z.blk b = true → t.blkOwn.look {} b = ⟨.owned, z.prt⟩) ∧
      (∀ m < 256, bitAt z.clu m = true → t.cluOwn.look {} m = ⟨.owned, z.prt⟩) ∧
      (∀ g ∈ z.groups, t.hbmOwn.look {} g = ⟨.owned, z.prt⟩) ∧
      (t.prt z.prt).groups = z.groups ∧ (t.prt z.prt).rszSeq = p.rszSeq + 1 ∧
      (t.prt z.prt).rszStatus = 0 ∧ (t.prt z.prt).rszBusy = false ∧
      (t.prt z.prt).exist = (if z.cmd = 1 then true else if z.cmd = 3 then false else p.exist)))

/-! ## Events: the scheduler, tasks and messages (R114 to R139, R192, R200) -/

/-- R55, R117, R125 to R130, R135, R137, R139: a job record is taken and HEAD advances; a phase entry and a launch
record are read in their order; a ready launch is placed or its region's load is asked for; a launch that has
waited rises by one priority; gang messages fold their member's bit or make the phase short; SCH_CANCEL stops
a running counter; a counter read through SCH_CNTVAL is read from then on; a directory outside partition memory or of an
illegal size is not taken; a name whose core has changed gets a stub from the old core to the new one.
The agenda in it is the model's (log 1). It rests on the model's choices of logs 31, 42, 64. -/
def Obligations.SchedulerEvents : Prop :=
  ∀ (s : State) (q vf job g sl ph m i : Nat) (tag : W32) (v : W64) (l : List Byte),
    let p := s.prt q
    let u : Vf := s.hif.vfs.look {} vf
    let a := fld u.jqbase 51 12 * 4096 + 64 * u.head
    let jr : JobRun := p.jobRun.look {} job
    let gr : GraphRun := p.graphRun.look {} g
    let lr : LaunchRun := p.launchRun.look {} sl
    let pr : PhaseRun := p.phaseRun.look {} ph
    let bit : BitVec 256 := BitVec.ofNat 256 (2 ^ (m % 256))
    let lv := fld v 18 16
    let ix := fld v 11 0 % fileSize lv
    let stop := cancelStat (bitAt v 20)
    (u.enable = true → u.head ≠ u.tail → s.schedRuns u.prt = true →
      Completes (.jobRecordTake vf) s (fun t =>
        (t.hif.vfs.look {} vf).head = (u.head + 1) % fld u.jqsize 16 0 ∧
        ∀ h, s.inPrtMem u.prt a 64 = true → s.memHome u.prt a = some h → s.poisoned h 64 = false →
          s.jobReject u.prt (Memory.readList s.mem h 64) = none →
          let j := q8 (Memory.readList s.mem h 64) 0 % 16
          (t.cntr u.prt 4 j).running = true ∧ (t.cntr u.prt 4 j).gen = (s.cntr u.prt 4 j).gen + 1 ∧
          .phaseStart u.prt j ∈ t.agenda)) ∧
    (s.schedRuns q = true → s.phaseDue q job = true → s.active q jr.ctx = true →
      Completes (.phaseStart q job) s (fun t => ((t.prt q).jobRun.look {} job).next = jr.next + 1)) ∧
    (s.schedRuns q = true → (s.cntr q 2 g).running = true → (s.cntr q 2 g).stop = none →
      gr.next < gr.nlaunch → (s.cntr q 1 p.nextSlot).reusable = true →
      s.active q (p.jobRun.look {} (p.phaseRun.look {} gr.phase).job).ctx = true →
      Completes (.launchRecordRead q g) s (fun t =>
        ((t.prt q).graphRun.look {} g).next = gr.next + 1 ∧
        (s.schedRead q (p.jobRun.look {} (p.phaseRun.look {} gr.phase).job).root
            (gr.launches.toNat + 64 * gr.next) 64 64 = some l →
          s.launchReject q (p.jobRun.look {} (p.phaseRun.look {} gr.phase).job).root l = none →
          (t.prt q).nextSlot = (p.nextSlot + 1) % 4096))) ∧
    (∀ new r o, s.pickPrt = some (q, new) → s.pickLaunch q (s.readyLaunches q) = some (sl, r, .go o) →
      Completes .schedulerDecision s (fun t => ((t.prt q).launchRun.look {} sl).st = .placed ∧
        (∀ x y, o = some (x, y) → ∃ d ∈ t.loads, d.prt = q ∧ d.slot = sl ∧ d.image = r.image ∧
          d.sched = true ∧ d.origin = fabSite s.pkg (siteAt x y) 0))) ∧
    (lr.st = .ready → 4096 ≤ lr.waited → lr.prio < 3 → Completes (.launchPromote q sl) s (fun t =>
      (t.prt q).launchRun.look {} sl = { lr with prio := lr.prio + 1, waited := 0 })) ∧
    ((s.cntr q 3 ph).running = true → pr.gang = true → pr.armed = true → s.prtRuns (some q) = true →
      Completes (.gangDeadline q ph) s (fun t => ((t.prt q).phaseRun.look {} ph).armed = false ∧
        ((t.prt q).phaseRun.look {} ph).short = true)) ∧
    (p.exist = true → p.gangPhases tag = [ph] → Completes (.gangAckReceive q tag m) s (fun t =>
      ((t.prt q).phaseRun.look {} ph).acks = pr.acks ||| (bit &&& pr.members))) ∧
    (p.exist = true → p.gangPhases tag = [ph] → Completes (.gangCancelReceive q tag) s (fun t =>
      ((t.prt q).phaseRun.look {} ph).short = true)) ∧
    (p.exist = true → p.gangPhases tag = [] →
      Completes (.gangAckReceive q tag m) s (fun t => t.prt q = p.hold ⟨tag, bit, false⟩) ∧
      Completes (.gangCancelReceive q tag) s (fun t => t.prt q = p.hold ⟨tag, 0, true⟩)) ∧
    (p.exist = true → 1 ≤ lv → lv ≤ 4 → (s.cntr q lv ix).running = true → (s.cntr q lv ix).stop = none →
      Completes (.schCancelWrite q v) s (fun t => let d := t.cntr q lv ix
        (d.running = true → d.stop = some stop) ∧
        (d.running = false → d.st = stop.1 ∧ d.reason = stop.2))) ∧
    (p.exist = true → fld v 4 0 = 0 ∨ (7 ≤ fld v 4 0 ∧ fld v 4 0 ≤ 16 ∧
      s.inPrtMem q (fld v 51 12 * 4096) (32 * 2 ^ fld v 4 0) = true) →
      Completes (.epdirWrite q v) s (fun t =>
        t.prt q = { p with epdir := BitVec.ofNat 64 (fld v 51 12 * 4096 + fld v 4 0) })) ∧
    (p.exist = true → fld v 4 0 ≠ 0 → fld v 4 0 < 7 ∨ 16 < fld v 4 0 ∨
      s.inPrtMem q (fld v 51 12 * 4096) (32 * 2 ^ fld v 4 0) = false →
      Completes (.epdirWrite q v) s (· = s)) ∧
    (∀ name w0 c w2 w, s.epLook q name = some (w0, c, w2) →
      s.coreWord q (BitVec.ofNat 32 c) = some w →
      let old := p.eps.look 0 name.toNat
      Completes (.epsync q name) s (fun t => (t.prt q).eps.look 0 name.toNat = w.toNat + 1 ∧
        (old ≠ 0 → old ≠ w.toNat + 1 → ∀ k, s.coreOf q (BitVec.ofNat 32 (old - 1)) = some k →
          ⟨name, k, w⟩ ∈ (t.prt q).stubs))) ∧
    (u.enable = true → selected ((s.prt u.prt).cntsel.look 0 vf) = some (lv, i) →
      Completes (.cntvalRead vf) s (fun t =>
        t.outbox = s.outbox ++ [.cntval vf (s.cntr u.prt lv i).word] ∧
        ((s.cntr u.prt lv i).resolved = true → 1 ≤ lv → lv ≤ 4 → (t.cntr u.prt lv i).read = true)))

/-- R132, R133, R136, R192, R193, R200: a free slot that no drain row waits for takes the next packet, whose
thread starts READY with its registers; every packet whose wait has reached 4,096 rises; a message fills the
receive-queue entry at TAIL, starts a task, or goes back to its sender, who traps; a user-level interrupt is
taken; an outstanding relaxed load, store, AMO, CAS, STE, FESET or FECLR is performed at the homes of all its
parts, and a load, AMO or CAS writes its register.
The agenda in it is the model's (log 1). It rests on the model's choices of logs 8, 42. -/
def Obligations.TaskAndMessageEvents : Prop :=
  ∀ (s : State) (c q i id u n core w0 pc : Nat) (pk : Packet) (m : Msg) (tag : W64) (rest : List W64),
    let k := s.core c
    let u0 := s.refill c
    let due (y : Packet) : Bool := decide (4096 ≤ y.wait) && decide (y.prio < 3)
    let x := (s.prt m.prt).ctxActive
    let rq := (s.core m.core).rq.look {} (rqIdx x (nfld w0 51 48))
    let at' := s.rqEntry m.core x rq rq.tail
    let back (ret : Nat) (t : State) : Prop := t.agenda = s.agenda ++ [.messageReturn id] ∧
      ∀ y ∈ t.msgs, y.id = id → y.ret = ret
    let arrives : Prop := s.msgs.find? (fun y => y.id == id && y.ret == 0) = some m ∧ m.id = id ∧
      s.bridged (match m.sender with | some t => clusterDie (slotOf t / 128) | none => 9)
        (clusterDie (m.core / 8)) = true
    let held : Prop := arrives ∧ s.epLook m.prt m.name = some (w0, core, pc) ∧
      s.coreOf m.prt (BitVec.ofNat 32 core) = some m.core ∧ s.cluOwner (m.core / 8) = some m.prt
    let relaxed (r : Rlx) (P : State → Prop) : Prop := (s.thread u).rlxOut[n]? = some r →
      Completes (.memoryReply u n) s P
    let fewer : Thread := { s.thread u with rlxOut := (s.thread u).rlxOut.eraseIdx n }
    (s.cluOwner (c / 8) = some q → s.schedRuns q = true → s.clockOn (clusterIsland (c / 8)) = true →
      u0.nextPacket c q = some pk → u0.rowWaits c = false → u0.freeSlot c pk.kind = some i →
      pk.scbase = 0 → pk.moved = none →
      Completes (.taskDispatch c) s (fun t =>
        let th := t.thread (16 * c + i)
        th.st = .ready ∧ th.pc = pk.pc ∧ th.prt = pk.prt ∧ th.ctx = pk.ctx ∧ th.asid = pk.asid ∧
        th.root = pk.root ∧ th.lslot = pk.lslot ∧ th.prio = pk.prio ∧ th.sup = false ∧ th.ft = pk.ft ∧
        ∀ r, th.g.look 0 r = if pk.kind ≠ .escape ∧ r = 4 then
          (slotSite s.pkg (16 * c + i)).setWidth 64 else pk.regs.look 0 r)) ∧
    Completes (.taskPacketPromote c) s (fun t => (t.core c).queue =
      k.queue.filter (fun y => !due y) ++
        (k.queue.filter due).map (fun y => { y with prio := y.prio + 1, wait := 0 })) ∧
    (held → nbit w0 33 = false → rq.enable = true → rq.full = false → s.waiters = [] →
      Completes (.messageDelivery id) s (fun t =>
        Stored s t (List.range' at' 16) (m.w0.toNat + 2 ^ 64 * m.w1.toNat) ∧
        ((t.core m.core).rq.look {} (rqIdx x (nfld w0 51 48))).tail = (rq.tail + 1) % (rq.cap + 1) ∧
        (∀ y ∈ t.msgs, y.id ≠ id) ∧
        (m.sender = some u → (s.thread u).st = .memory → s.prtRuns (some (s.thread u).prt) = true →
          (t.thread u).st = .ready ∧ (t.thread u).pc = (s.thread u).pc + 4))) ∧
    (held → nbit w0 33 = false → (rq.enable = false ∨ rq.full = true) →
      Completes (.messageDelivery id) s (back 2)) ∧
    (held → nbit w0 33 = true → (s.core m.core).queue.length < 256 →
      Completes (.messageDelivery id) s (fun t => ∃ y, (t.core m.core).queue = (s.core m.core).queue ++ [y] ∧
        y.kind = .message ∧ y.pc = BitVec.ofNat 64 pc ∧ y.prt = m.prt ∧ y.target = some m.core)) ∧
    (arrives → s.epLook m.prt m.name = none → (s.prt m.prt).stubs = [] →
      Completes (.messageDelivery id) s (back 1)) ∧
    (s.msgs.find? (fun y => y.id == id && y.ret != 0) = some m → m.sender = some u →
      Vectored { s with tid := u } → s.heldUp u = false → Completes (.messageReturn id) s (fun t =>
        (t.thread u).tval = m.name.setWidth 64 ∧ (t.thread u).tepc = (s.thread u).pc ∧
        (t.thread u).intrap = true ∧
        (t.thread u).tcause.toNat % 256 = if m.ret = 1 then cSTALE else cQOVF)) ∧
    (s.thr.uiReady = true → s.thr.st = .ready ∨ s.thr.st = .blocked → s.thr.uiPend = tag :: rest →
      Completes .uiTake s (fun t => t.mem = s.mem ∧ t.thr.uiPend = rest ∧ t.thr.uiepc = s.thr.pc &&& ~~~3 ∧
        t.thr.uicause = tag ∧ t.thr.uiin = true ∧ t.thr.rlx = 0 ∧ t.thr.st = .ready ∧
        t.thr.sup = false ∧
        t.thr.pc = BitVec.ofNat 64 (s.thr.uivec.toNat / 4 * 4))) ∧
    (s.waiters = [] → ∀ ps b, (homeBytes ps).Nodup → ∀ d : V256,
      relaxed ⟨.store d, ps, b⟩ (fun t => Stored s t (homeBytes ps) d.toNat ∧ t.thread u = fewer)) ∧
    (s.waiters = [] → s.heldUp u = false → ∀ sx d ps b, (∀ p ∈ ps, p.cached = false) →
      relaxed ⟨.load sx d, ps, b⟩ (fun t => SameMemory s t ∧
        t.thread u = fewer.setDest d (loadExt sx b (s.valueAt ps)))) ∧
    (s.waiters = [] → s.heldUp u = false → ∀ fn (x cmp : W64) d p b, p.n = b → b = 4 ∨ b = 8 →
      let old : BitVec (8 * b) := BitVec.ofNat (8 * b) (s.valueAt [p])
      let took (t : State) : Prop := t.thread u = fewer.setDest d ((old.signExtend 64).setWidth 256)
      relaxed ⟨.amo fn x d, [p], b⟩ (fun t => took t ∧
        Stored s t (homeBytes [p]) (AmoFn.new fn old (x.setWidth (8 * b))).toNat) ∧
      relaxed ⟨.cas cmp x d, [p], b⟩ (fun t => took t ∧
        (old = cmp.setWidth (8 * b) → Stored s t (homeBytes [p]) (x.setWidth (8 * b)).toNat) ∧
        (old ≠ cmp.setWidth (8 * b) → SameMemory s t))) ∧
    (s.waiters = [] → ∀ (x : W64) f p, p.n = 8 →
      let bit (t : State) (b : Bool) : Prop :=
        t.fullAt p.pa = b ∧ ∀ y, y / 8 ≠ p.pa / 8 → t.fullAt y = s.fullAt y
      relaxed ⟨.ste x, [p], 8⟩ (fun t => Stored s t (homeBytes [p]) x.toNat ∧ bit t false ∧
        t.thread u = fewer) ∧
      relaxed ⟨.febit f, [p], 8⟩ (fun t => (∀ a, t.byteAt a = s.byteAt a) ∧ bit t f ∧ t.thread u = fewer))

/-! ## Events: translation (R246 to R253) -/

/-- R192, R246, R248 to R250, R252, R253: a walk that ends fills the TLB and lets its data access go on in
MEMORY or its fetch be made again, or leaves the fault it found; an
agent's acknowledgement drops its matching translations, and the last one completes the shoot-down and answers
its TLBINV; GO starts one unless four are outstanding; a migration is opened or refused with its reason, copies
granule after granule, and ends DONE after the leaf's shoot-down.
The agenda in it is the model's (log 1). It rests on the model's choices of log 21. -/
def Obligations.TranslationEvents : Prop :=
  ∀ (s : State) (q m i u d n : Nat) (f wr b : Bool) (v : W64) (w : Walk) (h : Shoot) (x : Mig),
    let p := s.prt q
    let mg := p.migSlot i
    let y := { mg with asid := BitVec.ofNat 16 (fld v 63 48) }
    let found := s.walk (clusterDie m) w.prt w.root (w.va * 4096) (Config.choice s.fresh)
    ((s.clu m).walks = [w] → s.walkRuns m w = true → w.who = [(u, f, wr, b)] → (s.thread u).st = .walk →
      Completes (.pageWalkDone m) s (fun t => (t.clu m).walks = [] ∧ t.mem = s.mem ∧
        (∀ l, found = .leaf l → (t.thread u).st = (if f = true then .ready else .memory) ∧
          (t.thread u).filled = (if f = true then (s.thread u).filled else true) ∧
          ∃ e, e.attr = l.attr ∧ e.size = l.size ∧ e.asid = w.asid ∧
            e.vpage = w.va * 4096 / 2 ^ pageBits l.size ∧ e.ppage = l.addr / 2 ^ pageBits l.size ∧
            (t.thread u).fills = (s.thread u).fills ++ [e] ∧ e ∈ (t.core (u / 16)).tlb) ∧
        (∀ bad, found = .fault bad → (t.thread u).st = .ready ∧
          (t.thread u).wfault = (s.thread u).wfault ++ [(w.va, bad)]))) ∧
    (p.shoots = [h] → h.wait = [walkerAgent m] → m < 256 → s.bridged h.die (clusterDie m) = true →
      Completes (.shootdownAck q (walkerAgent m)) s (fun t =>
      (t.prt q).shoots = [] ∧ (t.prt q).genDone = h.gen ∧
      (h.tid = some (u, d) → (s.thread u).st = .memory → s.heldUp u = false → (t.thread u).st = .ready ∧
        (t.thread u).pc = (s.thread u).pc + 4))) ∧
    (p.shoots.find? (fun e => e.wait.contains n) = some h → n < 2048 →
      s.bridged h.die (clusterDie (n / 8)) = true → Completes (.shootdownAck q n) s (fun t => ∀ e ∈ (t.core n).tlb, h.coversTlb e = false)) ∧
    (bitAt v 20 = true → p.shoots.length < 4 → p.exist = true → Completes (.mmuInvctlGo q v) s (fun t =>
      (t.prt q).genIssued = p.genIssued + 1 ∧ ∃ e, (t.prt q).shoots = p.shoots ++ [e] ∧
        e.gen = p.genIssued + 1 ∧ e.first = fld p.invAddr 63 12 % 2 ^ 44 ∧ e.pages = fld v 19 0 ∧
        e.wait = s.agents q)) ∧
    (bitAt v 20 = false → Completes (.mmuInvctlGo q v) s (fun t =>
      t = s.setPrt q { p with invCtl := v &&& 0xFFFF0000006FFFFF })) ∧
    (bitAt v 0 = false → Completes (.migStart q i v) s (fun t => (t.prt q).migSlot i = y)) ∧
    (bitAt v 0 = true → (∀ e, s.migCheck q i y = .error e → Completes (.migStart q i v) s (fun t =>
        (t.prt q).migSlot i = { y with state := 3, reason := e })) ∧
      (∀ l a, s.migCheck q i y = .ok (l, a) → Completes (.migStart q i v) s (fun t =>
        (t.prt q).migSlot i = { y with
          state := 1, reason := 0, w := 0, src := l.addr, size := 2 ^ pageBits l.size, leaf := a, inv := none
          run := true, rva := y.va.toNat, rdst := y.dst.toNat, rasid := y.asid } ∧
        t.agenda = s.agenda ++ [.migGranuleCopy q i]))) ∧
    (∀ a e, x = mg → mg.run = true → mg.w < mg.size → s.memHome q (mg.src + mg.w) = some a →
      s.memHome q (mg.rdst + mg.w) = some e → Completes (.migGranuleCopy q i) s (fun t =>
        (t.prt q).migSlot i = { x with w := x.w + 64 } ∧
        ∀ o < 64, t.byteAt (e + o) = (s.performPrt q).byteAt (a + o))) ∧
    (mg.run = true → mg.size ≤ mg.w → mg.inv = none → p.shoots.length < 4 →
      Completes (.migComplete q i) s (fun t => ((t.prt q).migSlot i).inv = some (p.genIssued + 1) ∧
        (t.prt q).genIssued = p.genIssued + 1)) ∧
    (∀ gen, mg.run = true → mg.size ≤ mg.w → mg.inv = some gen → p.genDone = gen →
      Completes (.migComplete q i) s (fun t =>
        (t.prt q).migSlot i = { mg with state := 2, inv := none, run := false }))

/-! ## Events: contexts and registers (R48 to R54, R196, R197, R263 to R273, R419) -/

/-- R48, R197, R263 to R273, R419: a context command starts, waits or is refused with its status; a swap
exchanges the slots, a spill leaves its shares zero, a fill puts the bytes, full bits and threads of its image
back; each waits while its package is halted or a region is scanned out; FRACK resumes a region;
POOLPW, MTPW, FRBASE and a receive-queue descriptor are taken whole or not at all; a register write has its
row's effect, and PF1 writes nothing.
The agenda in it is the model's (log 1). It rests on the model's choices of logs 13, 19, 33, 41, 61. -/
def Obligations.ContextAndRegisterEvents : Prop :=
  ∀ (s : State) (q core n fn off : Nat) (v : W64) (e : Spill),
    let p := s.prt q
    let x := 1 - p.ctxActive
    let a := fld p.ctxSpill 51 12 * 4096
    let k := s.core core
    let sl := fld v 11 0
    let r := s.region q sl
    let cmds := [Instr.ctxSwap q, .ctxSpill q, .ctxFill q]
    let at' (st status : Nat) (t : State) : Prop := t.prt q = { p with ctxState := st, ctxStatus := status }
    let runs : Prop := s.prtRuns (some q) = true
    (∀ j ∈ cmds, p.exist = true → p.ctxState ≠ 0 →
      Completes j s (fun t => t.prt q = { p with ctxStatus := 1 })) ∧
    (∀ j c, (j, c) ∈ cmds.zip [1, 2, 3] → p.exist = true → p.ctxState = 0 → s.ctxHeldUp q = true →
      Completes j s (fun t => t.prt q = { p with ctxState := 4, ctxStatus := 0, ctxWait := c })) ∧
    (p.exist = true → p.ctxState = 0 → s.ctxHeldUp q = false →
      Completes (.ctxSwap q) s (fun t => at' 1 0 t ∧ t.agenda = s.agenda ++ [.ctxSwapDone q]) ∧
      (s.inPrtMem q a (s.spillBytes q x) = true → Completes (.ctxSpill q) s (fun t => at' 2 0 t ∧
        t.agenda = s.agenda ++ [.ctxSpillDone q])) ∧
      (s.inPrtMem q a (s.spillBytes q x) = false → Completes (.ctxSpill q) s (at' 0 4)) ∧
      (bitAt p.ctxHeld x = true → Completes (.ctxFill q) s (at' 0 2)) ∧
      (bitAt p.ctxHeld x = false → s.imageAt q a = some e → e.slot = x →
        s.inPrtMem q a 4096 = true → s.shareShort q x e.words = false →
        Completes (.ctxFill q) s (fun t => at' 3 0 t ∧ t.agenda = s.agenda ++ [.ctxFillDone q]))) ∧
    (p.ctxState = 1 → s.cfgPending q = false → s.scanning q = false → runs → Completes (.ctxSwapDone q) s (fun t =>
      (t.prt q).ctxActive = x ∧ (t.prt q).ctxState = 0)) ∧
    (p.ctxState = 1 → ¬runs ∨ s.scanning q = true → Completes (.ctxSwapDone q) s (· = s)) ∧
    (p.ctxState = 2 → ¬runs ∨ s.scanning q = true → Completes (.ctxSpillDone q) s (· = s)) ∧
    (p.ctxState = 3 → ¬runs ∨ s.scanning q = true → Completes (.ctxFillDone q) s (· = s)) ∧
    (p.ctxState = 2 → s.sharesBusy q x = false → s.scanning q = false → p.ctxActive ≤ 1 → runs → s.waiters = [] →
      Completes (.ctxSpillDone q) s (fun t =>
        (t.prt q).ctxState = 0 ∧ (t.prt q).ctxSpilled = true ∧ bitAt (t.prt q).ctxHeld x = false ∧
        (∃ z ∈ (t.prt q).spills, z.slot = x ∧ z.img.length = s.spillBytes q x) ∧
        ((∀ b h, s.memHome q b = some h → ∀ o < 64, s.shareKey q x (h + o) = none) →
          ∀ y, s.shareKey q x y ≠ none → t.byteAt y = 0))) ∧
    (p.ctxState = 3 → s.sharesBusy q x = false → s.scanning q = false → p.ctxActive ≤ 1 → runs →
      s.imageAt q a = some e → Completes (.ctxFillDone q) s (fun t =>
        (t.prt q).ctxState = 0 ∧ (t.prt q).ctxSpilled = false ∧ bitAt (t.prt q).ctxHeld x = true ∧
        (∀ z ∈ (t.prt q).spills, z.id ≠ e.id) ∧
        (∀ y, t.byteAt y = match e.cells.reverse.find? (fun c => s.shareAddr q x c.1 == y) with
          | some c => c.2
          | none => if (s.shareKey q x y).isSome then 0 else s.byteAt y) ∧
        (∀ y, t.full.look .unset y = match e.full.reverse.find? (fun c => s.shareAddr q x c.1 / 8 == y) with
          | some c => c.2
          | none => if (s.shareKey q x (8 * y)).isSome then .unset else s.full.look .unset y) ∧
        ((s.threads.map (·.1)).Nodup → ∀ j th, (j, th) ∈ s.threads → th.st ≠ .empty → th.prt = q →
          th.ctx = 2 + e.id → spillKey e.id ≤ j → j < spillKey e.id + 65536 →
          (s.thread (j - spillKey e.id + outKey)).st = .empty →
          t.thread (j - spillKey e.id + outKey) = { th with ctx := x }))) ∧
    (bitAt v 63 = false → Completes (.frackResume q v) s (· = s)) ∧
    (bitAt v 63 = true → r.loaded = true → r.savedAt ≠ none → Completes (.frackResume q v) s (fun t =>
      t.region q sl = { r with reload := true } ∧ t.agenda = s.agenda ++ [.regionReload q sl])) ∧
    (bitAt v 63 = true → r.loaded = true → r.savedAt = none → r.clock = 1 → r.retryable = true →
      Completes (.frackResume q v) s (fun t => (t.region q sl).clock = 0 ∧
        (t.region q sl).faulted = false)) ∧
    (s.poolOk core n (v &&& 0x00000FFFFFFC01FF) = false → Completes (.poolpwWrite core n v) s (fun t =>
      t = s.setCore core { k with pwRefused := true })) ∧
    (s.poolOk core n (v &&& 0x00000FFFFFFC01FF) = true → Completes (.poolpwWrite core n v) s (fun t =>
      (t.core core).poolpw n = v &&& 0x00000FFFFFFC01FF ∧ (t.core core).pwRefused = false)) ∧
    (fld v 14 8 + fld v 6 0 ≤ 64 → fld v 6 0 = 0 →
      (∀ z ∈ s.regions, z.1 / 4096 = q → z.2.loaded = true → z.2.ctx ≠ 0) →
      Completes (.mtpwWrite q 0 v) s (fun t => t.prt q = { p with mtpw0 := v &&& 0x7F7F })) ∧
    (64 < fld v 14 8 + fld v 6 0 → Completes (.mtpwWrite q n v) s (· = s)) ∧
    (fld v 4 0 = 0 ∨ (6 ≤ fld v 4 0 ∧ fld v 4 0 ≤ 12) → Completes (.frbaseWrite q v) s (fun t =>
      t.prt q = { p with frbase := v &&& 0x000FFFFFFFFFF01F })) ∧
    (fld v 4 0 ≠ 0 → fld v 4 0 < 6 ∨ 12 < fld v 4 0 → Completes (.frbaseWrite q v) s (· = s)) ∧
    ((fld v 11 0 ≠ 0 ∨ bitAt v 63 = false) →
      fld v 49 32 + 16 * (fld v 11 0 + 1) ≤ 1024 * (s.pw core off).scrkb →
      Completes (.rqdescWrite core off n v) s (fun t => (t.core core).rq.look {} (rqIdx off n) =
        { enable := bitAt v 63, base := fld v 49 32, cap := fld v 11 0, head := 0, tail := 0 })) ∧
    ((fld v 11 0 = 0 ∧ bitAt v 63 = true) ∨
      1024 * (s.pw core off).scrkb < fld v 49 32 + 16 * (fld v 11 0 + 1) →
      Completes (.rqdescWrite core off n v) s (· = s)) ∧
    Completes (.registerWrite 257 off v) s (· = s) ∧
    (fn < 256 → exec (.registerWrite fn 0 v) s =
      exec (.doorbell fn (b2n (s.vf fn).port) (v.setWidth 32)) s ∧
      Completes (.registerWrite fn 0x2018 v) s (· = s)) ∧
    Completes (.registerWrite 256 0x208 v) s (fun t => t.hif = { s.hif with fwAddr := v &&& ~~~0xFFF }) ∧
    Completes (.registerWrite 256 0x1600008 v) s (fun t => t.dbg = { s.dbg with stepMask := v }) ∧
    (q < 64 → Completes (.registerWrite 256 (0x140018 + 0x1000 * q) v) s (fun t =>
      t.prt q = { p with weight := v.setWidth 32 }))

/-! ## Events: units of the fabric (R141 to R174, R33) -/

/-- R148 to R173, R33: what each event of a unit does, at a unit of a running region. A firing puts its results
in order and ORs its flags; results enter every place that selects their output (R151); a token hops or is
dropped by the guard; a BUFFER tile reads, updates and answers; a FIFO tile's ring; a line that fills a CACHE
tile; a fibre unit's step; a generator's walk and its D; a patch miss and its refill; the transcendental unit's
grant and reply; an escape thread's start and an ESC element's tokens leaving; a circuit's buffer.
The agenda in it is the model's (log 1). It rests on the model's choices of logs 6, 22, 23, 24, 34, 35. -/
def Obligations.FabricUnits : Prop :=
  ∀ (s : State) (i q sl : Nat) (r : Region) (x : Site), s.unitAt i = some (q, sl, r, x) →
    let after (t : State) : Region := t.region q sl
    let put (t : State) : Site := (after t).site i
    let unchanged (t : State) : Prop := t = s
    let fires : Prop := x.cfg.kind = 1 ∧ x.cfg.copyOf = none ∧ x.flt.code = 0 ∧ x.rolled = false ∧
      x.started = true ∧ (oOp x.cfg.op = 0x1E ∨ x.held = [])
    let tile (role : Nat) : Prop := x.cfg.role = role ∧ x.flt.code = 0 ∧ x.rolled = false
    let el := elBytes x.cfg.tFmt
    (fires → r.fireRoom i x = true → ∀ y es fl, s.firing q r i x = .go y es fl [] none none →
      Completes (.elementFire i) s (fun t => put t = { y with res := y.res ++ es } ∧
        (after t).flags = r.flags ||| fl ∧ t.mem = s.mem)) ∧
    (fires → r.fireRoom i x = true → ∀ c p a, s.firing q r i x = .fail c p a → c ≠ 0 →
      Completes (.elementFire i) s (fun t => (put t).flt.code = c ∧ t.mem = s.mem)) ∧
    (r.fireRoom i x = false → x.rollClash = none → Completes (.elementFire i) s unchanged) ∧
    (∀ o tok rest, x.res = [(o, tok)] :: rest →
      (x.roomFor (5 + o) = true → Completes (.elementResult i) s (fun t =>
        x.Gets (put t) (5 + o) tok ∧ (put t).res = rest ∧ t.mem = s.mem)) ∧
      (x.roomFor (5 + o) = false → Completes (.elementResult i) s unchanged)) ∧
    (∀ d j tok rest, d < 4 → x.buf d = tok :: rest → linkTo i d = .site j → i ≠ j →
      r.attached i d = none → r.attached j (opp d) = none →
      let src := srcOf (opp d)
      let y := r.site j
      (r.has j = true → (∀ b, siteBlock j = some b → s.holdsBlock q b = true) → swDests y.cfg src ≠ [] →
        (y.roomFor src = true → Completes (.tokenHop i d) s (fun t =>
          y.Gets ((after t).site j) src tok ∧ put t = x.setBuf d rest ∧ t.mem = s.mem)) ∧
        (y.roomFor src = false → Completes (.tokenHop i d) s unchanged)) ∧
      (r.has j = false → bitAt (s.prt q).grdEp 63 = false → Completes (.tokenHop i d) s (fun t =>
        put t = x.setBuf d rest ∧ (t.prt q).grdCnt = Nat.min 0xFFFFFFFF ((s.prt q).grdCnt + 1) ∧
        (bitAt (s.prt q).grdRec0 63 = false → (t.prt q).grdRec1 = tok.payload ∧
          bitAt (t.prt q).grdRec0 63 = true)))) ∧
    (∀ tok rest, tile 1 → x.tileRoll = none → x.portBReady = false → x.a = tok :: rest →
      tok.isRoll = false → tok.isValue = true → x.roomFor 5 = true →
      let a := tok.payload.toNat % 2 ^ 32
      (s.tileOk q r.ctx el a = true → Completes (.tileRead i) s (fun t => t.mem = s.mem ∧
        (x.pop 0).Gets (put t) 5 (elemTok x.cfg.tFmt (s.readHome (s.tileByte q r.ctx i a) el)))) ∧
      (s.tileOk q r.ctx el a = false → Completes (.tileRead i) s (fun t =>
        (put t).flt.code = 8 ∧ (put t).a = x.a))) ∧
    (tile 1 → x.tileRoll = none → x.portBReady = true → x.roomFor 5 = true → x.a ≠ [] →
      (∀ tok ∈ x.a, tok.isRoll = false) →
      Completes (.tileRead i) s (fun t => put t = x ∧ t.mem = s.mem ∧ .tilePortBOp i ∈ t.agenda)) ∧
    (∀ p, tile 1 → x.tileRoll = some (x.fail 4 p 0) → x.fail 4 p 0 ≠ x → ∀ j ∈ [Instr.tileRead i, .tilePortBOp i],
      Completes j s (fun t => (put t).flt.code = 4 ∧ (put t).a = x.a ∧ (put t).b = x.b ∧ t.mem = s.mem)) ∧
    (∀ tok u b c, tile 1 → x.tileRoll = none → x.b = tok :: b → x.c = u :: c → tok.isRoll = false → u.isRoll = false →
      tok.cls = u.cls → tok.isValue = true → s.waiters = [] →
      let a := tok.payload.toNat % 2 ^ 32
      let h := s.tileByte q r.ctx i a
      let old := s.readHome h el
      let new := (rmwElem x.cfg.tRmw x.cfg.tFmt old (u.payload.toNat % 256 ^ el)).1 % 256 ^ el
      s.tileOk q r.ctx el a = true →
        (x.cfg.tRet = false → Completes (.tilePortBOp i) s (fun t => Stored s t (List.range' h el) new ∧
          (put t).b = b ∧ (put t).c = c ∧ (put t).a = x.a)) ∧
        (x.cfg.tRet = true → x.cfg.tRmw ≠ 5 → x.roomFor 6 = true → Completes (.tilePortBOp i) s (fun t =>
          Stored s t (List.range' h el) new ∧
          (x.popAll [1, 2]).Gets (put t) 6 (elemTok x.cfg.tFmt old)))) ∧
    (∀ tok rest, tile 2 → x.flagX = false → x.fifoFull = false → x.a = tok :: rest → s.waiters = [] →
      Completes (.fifoAppend i) s (fun t => (put t).a = rest ∧ (put t).tail = x.fifoNext x.tail ∧
        Stored s t (List.range' (s.tileByte q r.ctx i (16 * x.tail)) 16)
          (tok.payload.toNat + 2 ^ 64 * tok.tag.toNat))) ∧
    (tile 2 → x.fifoEmpty = false → swDests x.cfg 5 ≠ [] → x.roomFor 5 = true →
      let tok := s.fifoHead q r.ctx i x
      (tok.isRoll = false → Completes (.fifoEmit i) s (fun t => (put t).head = x.fifoNext x.head ∧
        t.mem = s.mem ∧ x.Gets (put t) 5 tok)) ∧
      (tok.isRoll = true → x.shadow ≠ none → Completes (.fifoEmit i) s (fun t =>
        (put t).head = x.fifoNext x.head ∧ (put t).rolled = true)) ∧
      (tok.isRoll = true → x.shadow = none → Completes (.fifoEmit i) s (fun t =>
        (put t).flt.code = 5 ∧ (put t).head = x.head))) ∧
    (∀ vl pl rest h, x.miss = (vl, pl) :: rest → s.homeOf q (128 * pl) 128 = .at h →
      s.poisoned h 128 = false → isSram h = true → Completes (.cacheLineFill i) s (fun t =>
        (put t).miss = rest ∧ (put t).lines.look 0 vl = BitVec.ofNat 1024 (s.readHome h 128) ∧
        t.mem = s.mem)) ∧
    (∀ y outs fl reads, x.cfg.kind = 3 → x.flt.code = 0 → x.paused = false → x.rolled = false →
      x.started = true → fRoll x = none → s.fibreStep q r i x = .go y outs fl [] reads →
      ((∀ o ∈ outs, x.roomFor (5 + o.1) = true) → Completes (.fibreUnitFire i) s (fun t =>
        put t = outs.foldl (fun y o => y.deliver (5 + o.1) o.2) { y with
          extents := touchExtents x.extents (if x.cfg.fCache = true then [] else reads.map (·.1)) } ∧
        (after t).flags = r.flags ||| fl ∧ t.mem = s.mem)) ∧
      ((∃ o ∈ outs, x.roomFor (5 + o.1) = false) → Completes (.fibreUnitFire i) s unchanged)) ∧
    (∀ n, let key := 4 * i + n
      let g := r.gen key
      let e := (genEdge key).1
      let src := srcOf (genEdge key).2
      let emits (tok : Token) (g' : Gen) : Prop := Completes (.generatorLoadEmit i n) s (fun t =>
        (r.site e).Gets ((after t).site e) src tok ∧ (after t).gen key = g' ∧ t.mem = s.mem)
      (g.isLoad = true → g.flt.code = 0 → g.paused = false → g.rolled = false → r.edgeRoom key = true →
        (∀ k, g.stop = some k → emits (tokStop k) { g with stop := none }) ∧
        (g.stop = none → g.done = true → g.dSent = false → emits tokDone { g with dSent := true }) ∧
        (∀ v, g.stop = none → g.done = false → s.genLoad q r key g = .ok v → g.single = false →
          g.run = g.perTok → emits (tokVal 0 v) { g with extents := touchExtents g.extents (if g.cache = true
            then [] else (List.range g.run).map (fun k => g.addr (g.i.1 + k, g.i.2))) }.afterRun)) ∧
      (∀ tok rest, g.isStore = true → g.flt.code = 0 → g.paused = false → g.rolled = false →
        g.inbox = tok :: rest →
        (∀ a g' p, tok.isValue = true → g.single = true → { g with inbox := rest }.visits 1 = some ([a], g') →
          s.unitLook q g.extents .store a g.esize = .ok [p] → p.n = g.esize → s.waiters = [] →
          Completes (.generatorStoreWrite i n) s (fun t =>
            Stored s t (List.range' p.pa p.n) (tok.payload.toNat % 256 ^ g.esize) ∧
            ((after t).gen key).inbox = g'.inbox ∧ ((after t).gen key).i = g'.i)) ∧
        (tok.isValue = false → tok.isStop = true → Completes (.generatorStoreWrite i n) s (fun t =>
          ((after t).gen key).inbox = rest ∧ t.mem = s.mem)) ∧
        (tok.isValue = false → tok.isStop = false → tok.isDone = true →
          Completes (.generatorStoreWrite i n) s (fun t =>
            ((after t).gen key).inbox = rest ∧ ((after t).gen key).dSent = true ∧ t.mem = s.mem)))) ∧
    (x.cfg.kind = 3 → x.want ≠ 0 → x.paused = false →
      (∀ e ∈ x.extents, e.has (vpageOf (x.want - 1)) = false) → Completes (.patchMiss i 4) s (fun t =>
        put t = { x with paused := true } ∧ .extentRefill i 4 ∈ t.agenda)) ∧
    (x.paused = true → let walked := s.draw.2.walkExtent (siteDie i) q r.root x.cfg.need (x.want - 1)
      (∀ e, walked = .ok e → Completes (.extentRefill i 4) s (fun t =>
        put t = { x with paused := false, want := 0, extents := addExtent x.extents e } ∧
        t.cfg.misses = s.cfg.misses + 1)) ∧
      (∀ c, walked = .error c → x.flt.code = 0 →
        Completes (.extentRefill i 4) s (fun t =>
          put t = ({ x with paused := false, want := 0 }.fail c 0 0)))) ∧
    (∀ j tok, x.leaving = some j → x.itemOld j = true → x.held[j]? = some (.pass tok) →
      (∀ p ∈ swDests (x.itemCfg j) 5, (x.buf p).length < bufCap p) →
      Completes (.escapeTokenLeave i) s (fun t => (put t).held = x.held.eraseIdx j ∧ t.mem = s.mem)) ∧
    (∀ j, x.cfg.kind = 1 → oOp x.cfg.op = 0x1E → x.outRoom 0 = true → x.leaving = some j → x.old = none →
      (∀ tok, x.held[j]? = some (.pass tok) → Completes (.escapeTokenLeave i) s (fun t =>
        (put t).held = x.held.eraseIdx j ∧ (put t).res = x.res ++ [[(0, tok)]])) ∧
      (∀ k, x.held[j]? = some (.park k) → Completes (.escapeTokenLeave i) s (fun t =>
        (put t).held = x.held.eraseIdx j ∧ ((put t).tickets.look {} k).st = 0 ∧
        (put t).res = x.res ++ (x.tickets.look {} k).reply.map (fun u => [(0, u)])))) ∧
    (∀ k m j tl, x.held = .park k :: tl → (x.tickets.look {} k).st = 1 → (x.tickets.look {} k).asked = false →
      s.clockOn (20 * siteDie i + 18) = true → s.escCluster q i = some m →
      let c := 8 * m + ((s.clu m).escNext + 0) % 8
      s.freeSlot c .escape = some j → Completes (.escapeThreadStart i) s (fun t =>
        let th := t.thread (16 * c + j)
        th.st = .ready ∧ th.kind = .escape ∧ th.pc = (x.itemCfg 0).handler ∧
        th.held = some ⟨q, sl, i, k, (x.tickets.look {} k).gen⟩ ∧
        ((put t).tickets.look {} k).asked = true ∧ t.mem = s.mem)) ∧
    ((∀ col, let u := s.trans.look {} col
      u.next < 8 →
      (∀ e rest, u.wait.look [] u.next = e :: rest → Completes (.transGrant col) s (fun t =>
        (t.trans.look {} col).run = u.run ++ [e] ∧ (t.trans.look {} col).wait.look [] u.next = rest ∧
        (t.trans.look {} col).next = (u.next + 1) % 8)) ∧
      (∀ e rest, u.run = e :: rest → e.key = rgnKey q sl → e.site = i → s.region q sl = r →
        let ty := oType x.cfg.op
        let sp := firingSpan x.cfg [(0, e.tok)]
        let v := mapLanes (tyBits ty) sp.n (fun k =>
          transLane (x.cfg.modOf 0 % 8) ty (lane (tyBits ty) e.tok.payload.toNat k))
        Completes (.transReply col) s (fun t => (t.trans.look {} col).run = rest ∧
          (after t).flags = r.flags ||| v.2 ∧
          (put t).res = fillReply ((x.cfg.mask.filter (fun o => if o = 0 then x.cfg.out0 else x.cfg.out1)).map
            (fun o => (o, tokVal sp.tag v.1))) x.res))) ∧
    ∀ c idx, s.region q sl = r → s.bridgeClock = true → r.circs.find? (fun e => e.index == idx) = some c →
      let held (t : State) : Option (List Token) :=
        ((after t).circs.find? (fun e => e.index == idx)).map (fun e => e.buf)
      (∀ tok rest, c.buf = [] → (r.site c.src).buf (bridgeDir c.src) = tok :: rest →
        s.siteClock c.src = true → Completes (.circuitTransfer q sl idx) s (fun t =>
          held t = some [tok] ∧ ((after t).site c.src).buf (bridgeDir c.src) = rest)) ∧
      (∀ tok rest, c.buf = tok :: rest → c.src ≠ c.dst → (r.site c.src).buf (bridgeDir c.src) = [] →
        s.siteClock c.dst = true → swDests (r.site c.dst).cfg (srcOf (bridgeDir c.dst)) ≠ [] →
        (r.site c.dst).roomFor (srcOf (bridgeDir c.dst)) = true →
        Completes (.circuitTransfer q sl idx) s (fun t => held t = some rest ∧
          (r.site c.dst).Gets ((after t).site c.dst) (srcOf (bridgeDir c.dst)) tok)))

/-! ## Events: a region as a whole (R164, R173 to R187, R212, R261 to R265) -/

/-- R173, R175 to R177, R179, R182, R185, R212, R261 to R265: what the events of a region do. A window's
publication; the sweep that finds the region quiescent, ends it, or looks for a stall; the end of a
configuration load; START; a site's swap at the roll; the tokens of a fabric-mode matrix tile; a fault, the
clock's stop, the scan-out of a PAGE fault and the reload after it.
The agenda in it is the model's (log 1). It rests on the model's choices of logs 29, 30, 36, 39. -/
def Obligations.FabricRegions : Prop :=
  ∀ (s : State) (q sl : Nat),
    let r := s.region q sl
    let after (t : State) : Region := t.region q sl
    let ends (z : Region) : State :=
      (((s.setRegion q sl z).releaseAt 0 4).releaseAt 1 4).regionUnitEnd q sl .done 0
    let landed := s.landRequests q sl
    (∀ w, let x := r.wins.look {} w
      (x.due ≠ 0 → Completes (.windowPublish q sl w) s (fun t => t.mem = s.mem ∧
        (after t).wins.look {} w = { x with due := x.due - 1, count := x.count + 1 })) ∧
      (x.due = 0 → Completes (.windowPublish q sl w) s (fun t => t = s))) ∧
    (s.regionRuns q r = true →
      let quiet : Prop := r.tokens = 0 ∧ r.memReqs = 0 ∧ r.selfFiring = false ∧ r.endq = false
      let swept (z : Region) : Region := { z with touched := [], acted := false }
      (quiet → r.finished = false → Completes (.hushSweep q sl) s (fun t =>
        after t = { swept r with quiescent := true })) ∧
      (quiet → r.finished = true → (∀ e ∈ r.wins, e.2.due = 0) →
        exec (.hushSweep q sl) s = .next (ends { swept r with quiescent := true })) ∧
      (r.tokens = 0 → r.memReqs = 0 → r.selfFiring = false → r.endq = true →
        exec (.hushSweep q sl) s = .next (ends (Region.publishAll { swept r with quiescent := true }))) ∧
      (0 < r.tokens → r.acted = true ∨ r.touched ≠ [] → Completes (.hushSweep q sl) s (fun t =>
        after t = swept r ∧ .hushSweep q sl ∈ t.agenda)) ∧
      (0 < r.tokens → r.acted = false → r.touched = [] → Completes (.hushSweep q sl) s (fun t =>
        .hushStall q sl ∈ t.agenda)) ∧
      (0 < r.tokens → r.acted = false → r.touched = [] → r.ticketHeld = false → r.stall = false →
        Completes (.hushStall q sl) s (fun t =>
        after t = { r with stall := true, stalls := Nat.min 255 (r.stalls + 1) })) ∧
      (r.acted = true ∨ r.touched ≠ [] ∨ r.ticketHeld = true ∨ r.stall = true →
        Completes (.hushStall q sl) s (fun t => t = s))) ∧
    (∀ p l tt d, s.loads.find? (fun e => e.port == p) = some l → l.sched = false →
      s.loadHeld l = false → s.prtRuns (some l.prt) = true → s.clockOn (20 * (p / 256) + 18) = true → l.waiter = some (tt, d) →
      0 < d → d < 56 →
      let z := (State.loadPortsDone { s with loads := s.loads.erase l } l).doLoadImage l
      Completes (.configLoadComplete p) s (fun t => (t.thread tt).st = .ready ∧
        (t.thread tt).pc = (z.2.thread tt).pc + 4 ∧
        (t.thread tt).readG (BitVec.ofNat 6 d) = loadWord z.1.2 z.1.1 0 l.slot)) ∧
    (r.onFab = true → r.arming = true → s.tilesIdle r = true → s.active q r.ctx = true →
      s.prtRuns (some q) = true →
      (r.armWait = none → ((s.prt q).launchRun.look {} sl).ntask = 0 → Completes (.regionArm q sl) s (fun t =>
        (after t).armed = true ∧ (after t).flags = 0 ∧ (after t).stalls = 0 ∧
        (∀ e ∈ (after t).sites, e.2.started = true) ∧ ∀ e ∈ (after t).wins, e.2.count = 0)) ∧
      ∀ tt d, r.armWait = some (tt, d) → Completes (.regionArm q sl) s (fun t =>
        (after t).armed = true ∧ (t.thread tt).st = .ready ∧ (t.thread tt).pc = (s.thread tt).pc + 4)) ∧
    (∀ i x c, s.unitAt i = some (q, sl, r, x) → x.rolled = true → x.shadow = some c → x.res = [] →
      Completes (.siteSwap i) s (fun t =>
        ((after t).site i).cfg = c ∧ ((after t).site i).shadow = none)) ∧
    (∀ m f, s.fabTile m = some (q, sl, r, f) → f.flt.code = 0 → f.rolled = false →
      r.edgeRoom (tileGen m) = true →
      let e := (genEdge (tileGen m)).1
      let emits (tok : Token) : Prop := Completes (.matrixTileEmit m) s (fun t =>
        (r.site e).Gets ((after t).site e) (srcOf (genEdge (tileGen m)).2) tok)
      (f.stop = some 4 → emits tokDone) ∧
      (∀ i j, f.emit = some (i, j) → (f.stop = some 0 → emits (tokStop 0)) ∧
        (f.stop = some 1 → emits (tokStop 1)) ∧
        (∀ g, f.stop = none → mxFmt f.fmt = some g → emits (s.fabToken r f g i j)))) ∧
    (∀ i code, s.regionAt i = some (q, sl, r) → (r.site i).flt.code = code → (r.site i).flt.told = false →
      Completes (.fabricFault i code) s (fun t => (after t).faulted = true ∧
        (after t).fcode = (if r.fcode = 0 then code else r.fcode) ∧ .regionClockStop q sl ∈ t.agenda)) ∧
    (s.dueFaults r ≠ [] → r.onFab = true →
      let pages : Prop := ∀ e ∈ s.dueFaults r, e.2.2.1.code = 10
      (¬pages → Completes (.regionClockStop q sl) s (fun t =>
        (after t).clock = (if r.clock = 0 then 1 else r.clock))) ∧
      (pages → r.clock = 0 → (s.saveRoom q r).isSome = true → Completes (.regionClockStop q sl) s (fun t =>
        (after t).clock = 2 ∧ .fabricPageFaultScanout q sl ∈ t.agenda)) ∧
      (pages → r.clock = 0 → s.saveRoom q r = none → Completes (.regionClockStop q sl) s (fun t =>
        (after t).clock = 1))) ∧
    (∀ off, r.clock = 2 → r.savedAt = none → landed.saveRoom q (landed.region q sl) = some off →
      Completes (.fabricPageFaultScanout q sl) s (fun t => (after t).savedAt = some off ∧
        (t.prt q).saved = (s.prt q).saved ++ [(sl, off, (landed.region q sl).blocks.length * saveBlock)])) ∧
    (r.reload = true → r.savedAt.isSome = true → s.active q r.ctx = true → s.prtRuns (some q) = true →
      ((s.prt q).launchRun.look {} sl).anyplace = false → s.targetFree q sl r.ctx r.rect = true →
      Completes (.regionReload q sl) s (fun t => (after t).savedAt = none ∧ (after t).clock = 0 ∧
        (after t).faulted = false ∧ (t.prt q).saved = (s.prt q).saved.filter (fun e => e.1 != sl)))

/-! ## Events: matrix tiles and async engines (R205 to R212, R386 to R394) -/

/-- R207 to R211, R290, R386, R390, R392, R394: the arbiter grants a K step or ends a command whose operand
faults; the step's sums are in memory when it is done, for a queue and in fabric mode; a drain row is released,
or its handler started, and a released row is written; an async command's part is copied, its completion
counted and told to its issuer; collective data are taken, or a disagreement ends the group with MISMATCH.
The agenda in it is the model's (log 1). It rests on the model's choices of log 45. -/
def Obligations.EngineEvents : Prop :=
  ∀ (s : State) (m k id : Nat),
    let queue (t : State) : List MxCmd := (t.clu m).queues.look [] k
    let ends (t : State) (c : MxCmd) (status : Nat) : Prop := (∀ e ∈ queue t, e.id ≠ c.id) ∧
      ∃ a ∈ t.acmds, a.id = c.id ∧ a.ended = true ∧ a.status = status
    let sums (u : State) (g : Fmt) (clear sat : Bool) (c0 m n : Nat) (rc : List OpRow × List OpRow) : State :=
      ((if clear then u.mxClear g c0 m n else u).mxStepAt g sat c0 rc.1 rc.2).1
    (∀ c streak g, s.fabTile m = none → s.tileRuns m = true →
      (∀ j < 8, ∀ e ∈ (s.clu m).queues.look [] j, e.granted = false) → s.mxPick m = some (k, streak) →
      s.mxHead m k = some c → mxFmt (fld c.shape 51 48) = some g →
      let got := ((s.setClu m { s.clu m with lastQ := k, streak := streak }).mxFetch c g).1
      (∀ rc, got = .ok rc → Completes (.kStepGrant m) s (fun t => t.mem = s.mem ∧
        (t.clu m).lastQ = k ∧ (t.clu m).streak = streak ∧ .kStepDone m ∈ t.agenda ∧
        ∀ e ∈ queue t, e.id = c.id → e.granted = true ∧ e.fetched = some rc)) ∧
      (∀ e, got = .error e → Completes (.kStepGrant m) s (fun t => t.mem = s.mem ∧
        ends t c (faultStatus e.1)))) ∧
    (∀ c g rc, s.fabTile m = none → s.mxGranted m = some (k, c) → mxFmt (fld c.shape 51 48) = some g →
      c.fetched = some rc → Completes (.kStepDone m) s (fun t =>
        t.mem = (sums (s.unpin m) g (decide (c.kdone = 0) && bitAt c.shape 53) (bitAt c.shape 54)
          (s.accHome (8 * m + k) c.ctx c.lw c.off) (fld c.shape 5 0 + 1) (fld c.shape 13 8 + 1) rc).mem ∧
        (fld c.shape 47 16 ≤ (c.kdone + 1) * mxStep g → ends t c 0))) ∧
    (∀ q sl r f g, s.fabTile m = some (q, sl, r, f) → mxFmt f.fmt = some g → f.cluster = m →
      ∀ rc,
      (f.canStep = true → (s.fabFetch q r f g).1 = .ok rc → Completes (.kStepGrant m) s (fun t =>
        t.mem = s.mem ∧ .kStepDone m ∈ t.agenda ∧
        ∀ e ∈ (t.region q sl).mxs, e.cluster = m → e.granted = true ∧ e.fetched = some rc)) ∧
      (f.granted = true → f.fetched = some rc → Completes (.kStepDone m) s (fun t =>
        t.mem = (sums (s.unpin m) g (decide (f.kdone = 0) && f.clear) f.sat (s.accHome (8 * m + f.core) r.ctx none f.off)
          f.m f.n rc).mem))) ∧
    (∀ c, s.tileRuns m = true → k < 8 → s.drainHead m k = some c → (∀ j < 8, j ≠ k → s.drainHead m j = none) →
      c.rowStart < drainRows c →
      (c.mxhpc.toNat / 4 = 0 → Completes (.drainRowStart m) s (fun t => ∃ e, t.drainHead m k = some e ∧
        e.rowStart = c.rowStart + 1 ∧ c.rowStart ∈ e.released)) ∧
      (∀ i, c.mxhpc.toNat / 4 ≠ 0 → (s.prt c.prt).ctxState ≠ 1 → s.freeSlot (8 * m + k) .drain = some i →
        Completes (.drainRowStart m) s (fun t => let th := t.thread (16 * (8 * m + k) + i)
          th.st = .ready ∧ th.kind = .drain ∧ th.pc = c.mxhpc ∧ th.row = some (c.id, c.rowStart)))) ∧
    (∀ c g, s.tileRuns m = true → k < 8 → s.drainHead m k = some c → (∀ j < k, s.drainHead m j = none) →
      c.rowNext ∈ c.released → drainOut c.dword = some g →
      let w := s.engineWrite c.agent ((c.dst.toNat + c.rowNext * fld c.dword 55 32) % 2 ^ 64)
        (s.drainRow m k c g c.rowNext)
      let bad := s.drainPoison m k c c.rowNext
      (∀ u, bad = false → w = .ok u → Completes (.drainRowWrite m) s (fun t => t.mem = u.mem)) ∧
      (∀ e, bad = false → w = .error e → e.1 ≠ cWAIT → Completes (.drainRowWrite m) s (fun t =>
        t.mem = s.mem ∧ ends t c (faultStatus e.1))) ∧
      (bad = true → Completes (.drainRowWrite m) s (fun t => t.mem = s.mem ∧ ends t c 6))) ∧
    (∀ c, s.acmd id = some c → s.cmdRuns c = true → s.oldest c = true →
      let th := s.thread c.tid
      (c.ended = true → c.status ≠ 1 → s.waiters = [] →
        Completes (.asyncCommandComplete id) s (fun t => (∀ e ∈ t.acmds, e.id ≠ id) ∧
          (th.life = c.life → th.st ≠ .empty → (t.thread c.tid).fflags = th.fflags ||| c.flags ∧
            ((c.handle, none) ∈ th.cmds → (c.handle, some c.status) ∈ (t.thread c.tid).cmds)) ∧
          (c.counter = 0 → t.mem = s.mem) ∧
          (∀ p b, c.counter ≠ 0 →
            s.agentParts c.agent { rd := true, wr := true, counter := true } c.counter.toNat 8 = .ok [(p, b)] →
            Stored s t (List.range' p.pa 8) (BitVec.ofNat 64 (s.readHome p.pa 8) +
              (if c.status = 0 then 1 else 0x100000001)).toNat))) ∧
      (c.ended = false → c.wait = false → c.op = 0 → bitAt c.aux1 24 = false → bitAt c.aux1 8 = false →
        let from' := s.agentRead c.agent ((c.src.toNat + c.done) % 2 ^ 64) c.partLen
        let took := s.agentTook c.agent ((c.src.toNat + c.done) % 2 ^ 64) c.partLen
        let into (l : List Byte) := took.engineWrite c.agent ((c.dst.toNat + c.done) % 2 ^ 64) l
        (∀ l u, from' = .ok l → into l = .ok u → Completes (.asyncEngineTransfer id) s (fun t =>
          t.mem = u.mem ∧ ∃ e, t.acmd id = some e ∧ e.done = c.done + c.partLen ∧
            (c.len.toNat ≤ c.done + c.partLen → e.ended = true ∧ e.status = 0))) ∧
        (∀ e, from' = .error e → e.1 ≠ cWAIT → Completes (.asyncEngineTransfer id) s (fun t => t.mem = s.mem ∧
          ∃ a, t.acmd id = some a ∧ a.ended = true ∧ a.status = faultStatus e.1 ∧ a.faddr = e.2)))) ∧
    (∀ c rank gtag n len op fmt red data, s.acmds = [c] → c.id = id → c.op = 3 → c.ended = false →
      c.sent = true →
      (gtag = c.gtag → n = c.n → len = c.len.toNat → op = collOp c → fmt = fld c.aux1 7 4 → red = collRed c →
        (∀ e ∈ c.got, e.1 ≠ rank) →
        Completes (.collectiveDataReceive id rank gtag n len op fmt red data) s (fun t =>
          t.acmds = [{ c with got := c.got ++ [(rank, data)] }] ∧ t.mem = s.mem)) ∧
      (gtag ≠ c.gtag ∨ ((∀ e ∈ c.got, e.1 ≠ rank) ∧ (n ≠ c.n ∨ len ≠ c.len.toNat)) →
        c.remotes s.pkg = [] → c.rank < c.members.length →
        Completes (.collectiveDataReceive id rank gtag n len op fmt red data) s (fun t => ∃ e,
          t.acmds = [e] ∧ e.ended = true ∧ e.status = 3)))

/-! ## The machine as a whole -/

/-- R293 to R297: words written out field by field, one of each group of R296 and each format at least, decode to the instructions
they stand for. -/
def Obligations.DecodeWords : Prop :=
  decode 0x08500008 = .ok (.addi 5 0 8) ∧
  decode 0x0430C700 = .ok (.add 3 3 7) ∧
  decode 0x18710020 = .ok (.shli 7 4 32) ∧
  decode 0x25114000 = .ok (.cmpi 2 .ne 5 0) ∧
  decode 0x28942345 = .ok (.lih 9 1 0x2345) ∧
  decode 0x4070800C = .ok (.ld 7 2 0 .d false false) ∧
  decode 0x48204000 = .ok (.ldv 1 1 0 false) ∧
  decode 0x5C118768 = .ok (.cas 1 6 7 false true true) ∧
  decode 0x617FFFFB = .ok (.br 2 true 0x3FFFFB) ∧
  decode 0x6C000001 = .ok .exit ∧
  decode 0x7820C502 = .ok (.cntwait 2 3 5) ∧
  decode 0x80408060 = .ok (.frcp .f32 4 2) ∧
  decode 0x806088F4 = .ok (.fcvti .f32 6 2 .i8 .rtz) ∧
  decode 0x8C011360 = .ok (.vdot 0 1 2 .bf16 .rne 0) ∧
  decode 0x90318001 = .ok (.vmovg 3 3 0 .f32) ∧
  decode 0x9C700009 = .ok (.ereply 7 0 0 1) ∧
  decode 0x38108303 = .ok (.lea 1 2 3 3) ∧
  decode 0x3C841818 = .ok (.plog 1 2 3 8) ∧
  decode 0x58000024 = .ok (.fence .package) ∧
  decode 0x67FFFFFD = .ok (.jmp 0x3FFFFFD) ∧
  decode 0x68000008 = .ok (.jal 8) ∧
  decode 0x74000005 = .ok (.svc 5) ∧
  decode 0x94518702 = .ok (.mxc 5 6 7) ∧
  decode 0x94000005 = .ok .mxrel ∧
  decode 0x98900A83 = .ok (.acoll 9 10 true) ∧
  decode 0x98100204 = .ok (.await 1 2) ∧
  decode 0xA0108300 = .ok (.launch 1 2 3) ∧
  decode 0xFC011003 = .ok (.mts 4 3) ∧
  decode 0xFC61E005 = .ok (.tlbinv 6 7)

/-- R293 to R298, both ways: every well-formed thread instruction, with every operand at every value the
encoding admits, has a word that decodes to it; and every word that decodes is the one word of its
instruction, so that no bit of an encoding is dropped or ignored. -/
def Obligations.DecodeEncode : Prop :=
  (∀ i, isThreadInstr i = true → WellFormed i = true → ∃ w, encode i = some w ∧ decode w = .ok i) ∧
  (∀ w i, decode w = .ok i → encode i = some w ∧ isThreadInstr i = true ∧ WellFormed i = true)

/-- R190, R192, R202, R314, R331: with no event due a step is the turn of core `cur`, whose rotation has
reached a READY thread with no user-level interrupt to take: the four bytes at its pc are fetched, from the
instruction cache or from their home, and the instruction they decode to is executed by that thread, in a state
that differs from the one before in the rotation and in what a fetch changes only: the order of the core's TLB,
the line its cluster's instruction cache gains, and the L2. What walks found is forgotten after it, and a waiting
instruction keeps its word. A word that decodes to nothing, and a fetch that faults, take their exceptions; a
translation that is missing starts a walk; a line whose home has no clock is waited for; PENDREG waits. A
well-formed event that is due is executed.
The agenda and its rounds are the model's (log 1). It rests on the model's choices of logs 7, 17, 56. -/
def Obligations.StepRunsDecoded : Prop :=
  (∀ (s : State) (slot d : Nat),
    let c := s.cur
    let t := 16 * c + slot
    let m := t / 128
    let th := s.thread t
    let k := s.core c
    let u : State := { (s.setCore c { k with rot := (slot + 1) % 16, cycle := k.cycle + BitVec.ofNat 64 (d + 1) })
      with cur := (c + 1) % 2048, due := if c = 2047 then s.agenda.length else 0, tid := t }
    let turn (x : Host.Outcome State Fault Refusal) : Prop := step s = onNext (forgetWalk t) x
    let at' := u.xlate t .fetch (fetchAddr th.pc) 4
    let runs (p : Part) (w : W32) : Prop := ∃ v, Fetches u v p ∧
      (∀ i, decode w = .ok i → th.pendReg i = false → turn (onNext (holdWord t w) (exec i v))) ∧
      (∀ i, decode w = .ok i → th.pendReg i = true → turn (.next (v.waitIn .pendreg true))) ∧
      (∀ e, decode w = .error e → turn (exec (.unassignedEncoding w) v))
    s.agenda = [] ∨ s.due = 0 → (c = 0 → s.resize = none) → s.coreRuns (c / 8) = true →
    s.nextSlot c k.rot 16 0 = some (slot, d) → th.st = .ready → th.uiReady = false →
    (∀ p ps, at' = .ok (p :: ps) → u.lineThere m p = true → u.poisoned p.pa 4 = false →
      (∀ l, (s.clu m).icache.find? (fun x => x.line == p.pa / 128) = some l →
        runs p (BitVec.ofNat 32 (l.data.toNat / 2 ^ (8 * (p.pa % 128))))) ∧
      ((∀ l ∈ (s.clu m).icache, l.line ≠ p.pa / 128) → p.pa % 4 = 0 →
        u.lineHomes p = [p.pa / 128 * 128, p.pa / 128 * 128 + 64] →
        (∀ x ∈ s.copies, x.addr = p.pa / 8 * 8 → x.level = dieLevel (clusterDie m) →
          x.val.toNat = s.readHome x.addr 8) →
        runs p (BitVec.ofNat 32 (s.readHome p.pa 4)))) ∧
    (∀ p ps, at' = .ok (p :: ps) → u.lineThere m p = true → u.poisoned p.pa 4 = true →
      turn (exec .instructionFetchFault u)) ∧
    (∀ p ps, at' = .ok (p :: ps) → u.lineThere m p = false → turn (.next u)) ∧
    (∀ va, at' = .miss va → turn (.next (u.startWalk va true false))) ∧
    (∀ cause det tv, at' = .fault cause det tv → turn (exec .instructionFetchFault u))) ∧
  (∀ (s : State) e rest n, s.agenda = e :: rest → s.due = n + 1 → WellFormed e = true → isEvent e = true →
    step s = exec e { s with agenda := rest, due := n })

/-- R5, R20, R80, R111, R115, R214: what reset leaves: islands ON at 90 units of 25 MHz; every block, cluster
and channel group FREE and no resize; every counter FREE and zero; every tile weight 1; no thread. Memory
meets the invariant and, by the model's choice (log 3), reads zero. -/
def Obligations.ResetState : Prop :=
  let s := State.reset
  s.Inv ∧ (∀ a, s.byteAt a = 0) ∧
  (∀ n, (s.island n).state = 0 ∧ (s.island n).freq = 90 ∧ (s.island n).stNow = 0 ∧
    (s.island n).freqNow = 90 ∧ (s.island n).busy = false ∧ (s.island n).err = 0) ∧
  (∀ n, (s.blkOwn.look {} n).st = .free ∧ (s.cluOwn.look {} n).st = .free ∧ (s.hbmOwn.look {} n).st = .free) ∧
  s.resize = none ∧ s.resizeQ = [] ∧
  (∀ q lvl i, let c := s.cntr q lvl i
    c.running = false ∧ c.st = .free ∧ c.out = 0 ∧ c.gen = 0) ∧
  (∀ m, (s.clu m).mxweight = 0x11111111) ∧ (∀ t, (s.thread t).st = .empty) ∧ s.dbg.toc = .running

/-- Memory keeps its canonical form: from every state in which it has it, reached or not, every step, whatever
instruction or event it runs, leaves a state in which it has it. -/
def Obligations.StepKeepsMemory : Prop :=
  ∀ s t : State, s.Inv → step s = .next t → t.Inv
end

