-- ==== Sys2Proof/Laws/Cache.lean ====
section
/-!
SUPPORT. The caches: an operation on the L1 copies and the L2 blocks changes them, the slices that have held a block, the count of
lines a rehash has moved, the lines the host may hold and the source of free choices, and nothing else. Memory, the
full bits and every register are as before.
-/

namespace Sys2Proof.Machine

open Sys2Proof

/-- `t` differs from `s` in the caches only (R222 to R225, R60, R98). -/
def CachesOnly (s t : State) : Prop :=
  { t with copies := s.copies, l2 := s.l2, l2used := s.l2used, resize := s.resize, fresh := s.fresh
           hif := s.hif } = s

theorem CachesOnly.refl (s : State) : CachesOnly s s := rfl

theorem CachesOnly.trans {s t u : State} (h : CachesOnly s t) (k : CachesOnly t u) : CachesOnly s u := by
  cases s; cases t; cases u
  simp only [CachesOnly, State.mk.injEq] at *
  simp_all only [and_self]

theorem CachesOnly.mem {s t : State} (h : CachesOnly s t) : t.mem = s.mem := by
  rw [← h]
theorem CachesOnly.full {s t : State} (h : CachesOnly s t) : t.full = s.full := by
  rw [← h]
theorem CachesOnly.threads {s t : State} (h : CachesOnly s t) : t.threads = s.threads := by
  rw [← h]
theorem CachesOnly.cores {s t : State} (h : CachesOnly s t) : t.cores = s.cores := by
  rw [← h]
theorem CachesOnly.clusters {s t : State} (h : CachesOnly s t) : t.clusters = s.clusters := by
  rw [← h]
theorem CachesOnly.prts {s t : State} (h : CachesOnly s t) : t.prts = s.prts := by
  rw [← h]
theorem CachesOnly.regions {s t : State} (h : CachesOnly s t) : t.regions = s.regions := by
  rw [← h]

/-- A further update of the caches. -/
theorem CachesOnly.upd {s t : State} (h : CachesOnly s t) (c : List Copy) (l : List Block) (u : List Nat)
    (z : Option Resize) (n : Nat) (x : Hif) :
    CachesOnly s { t with copies := c, l2 := l, l2used := u, resize := z, fresh := n, hif := x } := h

/-- Folding such operations over a list. -/
theorem CachesOnly.foldl {β : Type} (f : State → β → State) (hf : ∀ s b, CachesOnly s (f s b)) (l : List β)
    (s : State) : CachesOnly s (l.foldl f s) := by
  induction l generalizing s with
  | nil => rfl
  | cons b r ih => exact (hf s b).trans (ih (f s b))

theorem State.evictBlock_caches (s : State) (x : Block) : CachesOnly s (s.evictBlock x) :=
  (CachesOnly.refl s).upd _ _ _ _ _ _

theorem State.choice_caches (s : State) : CachesOnly s s.choice.2 := (CachesOnly.refl s).upd _ _ _ _ _ _

theorem State.makeRoom_caches (s : State) (slice blk : Nat) : CachesOnly s (s.makeRoom slice blk) := by
  simp only [State.makeRoom]
  split
  · exact CachesOnly.refl s
  · split
    · exact CachesOnly.refl s
    · exact s.choice_caches.trans (State.evictBlock_caches _ _)

theorem State.findBlock_caches (s : State) (d blk : Nat) : CachesOnly s (s.findBlock d blk) := by
  simp only [State.findBlock]
  split
  · exact CachesOnly.refl s
  · split
    · exact CachesOnly.refl s
    · exact (s.makeRoom_caches _ _).upd _ _ _ _ _ _

theorem State.takeUnit_caches (s : State) (d q grain : Nat) (hc ex : Bool) (a : Nat) :
    CachesOnly s (s.takeUnit d q grain hc ex a) := by
  simp only [State.takeUnit]
  refine CachesOnly.upd ?_ _ _ _ _ _ _
  have h := s.findBlock_caches d (a / 512)
  generalize s.findBlock d (a / 512) = t at *
  split
  · exact h
  · exact (h.trans (t.makeRoom_caches _ _)).upd _ _ _ _ _ _

theorem State.wroteBack_caches (s : State) (d : Nat) (c : Copy) : CachesOnly s (s.wroteBack d c) :=
  s.takeUnit_caches _ _ _ _ _ _

theorem State.evictLine_caches (s : State) (m line : Nat) : CachesOnly s (s.evictLine m line) := by
  simp only [State.evictLine]
  exact ((CachesOnly.refl s).upd _ _ _ _ _ _).trans (CachesOnly.foldl _ (fun s c => s.wroteBack_caches _ c) _ _)

theorem State.l1Room_caches (s : State) (m : Nat) (p : Part) (w : Nat) : CachesOnly s (s.l1Room m p w) := by
  simp only [State.l1Room]
  split
  · exact CachesOnly.refl s
  · exact s.choice_caches.trans (State.evictLine_caches _ _ _)

/-- The home takes a word's unit and the L1 makes room for it. -/
theorem State.takeRoom_caches (s : State) (d m q grain : Nat) (hc ex : Bool) (p : Part) (w : Nat) :
    CachesOnly s ((s.takeUnit d q grain hc ex w).l1Room m p w) :=
  (s.takeUnit_caches _ _ _ _ _ _).trans (State.l1Room_caches _ _ _ _)

theorem State.keepCopies_caches (s : State) (m : Nat) (p : Part) (w : Nat) :
    CachesOnly s (s.keepCopies m p w) := by
  simp only [State.keepCopies]
  split
  · exact CachesOnly.refl s
  · exact (s.takeRoom_caches _ _ _ _ _ _ _ _).upd _ _ _ _ _ _

theorem State.homeWrote_caches (s : State) (d : Nat) (p : Part) (w : Nat) :
    CachesOnly s (s.homeWrote d p w) := by
  simp only [State.homeWrote]
  exact (s.takeUnit_caches _ _ _ _ _ _).upd _ _ _ _ _ _

theorem State.l1Wrote_caches (s : State) (m : Nat) (p : Part) (w : Nat) : CachesOnly s (s.l1Wrote m p w) := by
  simp only [State.l1Wrote]
  exact (s.takeRoom_caches _ _ _ _ _ _ _ _).upd _ _ _ _ _ _

theorem State.behind_caches (s : State) (p : Part) : CachesOnly s (s.behind p) := by
  simp only [State.behind]
  split
  · refine CachesOnly.foldl _ (fun s w => ?_) _ _
    split
    · exact CachesOnly.refl s
    · exact (CachesOnly.refl s).upd _ _ _ _ _ _
  · exact CachesOnly.refl s

theorem State.behindDie_caches (s : State) (d : Nat) (p : Part) : CachesOnly s (s.behindDie d p) := by
  simp only [State.behindDie]
  split
  · refine CachesOnly.foldl _ (fun s w => ?_) _ _
    split
    · exact CachesOnly.refl s
    · exact (CachesOnly.refl s).upd _ _ _ _ _ _
  · exact CachesOnly.refl s

theorem State.acquireAt_caches (s : State) (m scope : Nat) : CachesOnly s (s.acquireAt m scope) := by
  simp only [State.acquireAt]
  split
  · exact (CachesOnly.refl s).upd _ _ _ _ _ _
  · exact CachesOnly.refl s

theorem State.releaseAt_caches (s : State) (d scope : Nat) : CachesOnly s (s.releaseAt d scope) := by
  simp only [State.releaseAt]
  split
  · exact (CachesOnly.foldl _ (fun s c => s.wroteBack_caches _ c) _ _).upd _ _ _ _ _ _
  · exact CachesOnly.refl s

theorem State.flushRange_caches (s : State) (lo hi : Nat) : CachesOnly s (s.flushRange lo hi) :=
  (CachesOnly.refl s).upd _ _ _ _ _ _

end Sys2Proof.Machine
end

