-- ==== Sys2Proof/Laws/Tbl.lean ====
section
/-!
SUPPORT. Sparse tables: what a read after a write gives, in every table; and that writes keep the
canonical form.
-/

namespace Sys2Proof.Machine.Tbl

variable {α : Type}

theorem look_drop (d : α) (t : Tbl α) (k j : Nat) :
    (t.drop k).look d j = if j = k then d else t.look d j := by
  unfold drop
  induction t with
  | nil => simp [look]
  | cons e r ih =>
    obtain ⟨i, x⟩ := e
    by_cases hik : i = k
    · subst hik
      by_cases hj : j = i
      · subst hj; simpa using ih
      · simp [look, ih, hj, Ne.symm hj]
    · by_cases hij : i = j
      · subst hij; simp [look, hik]
      · simp [look, hik, hij, ih]

theorem look_ins (d : α) (t : Tbl α) (k j : Nat) (x : α) :
    (t.ins k x).look d j = if j = k then x else t.look d j := by
  induction t with
  | nil => by_cases h : k = j <;> simp [ins, look, h, eq_comm]
  | cons e r ih =>
    obtain ⟨i, y⟩ := e
    unfold ins
    split
    · rename_i h1; subst h1
      by_cases h : i = j
      · simp [look, h]
      · simp [look, h, Ne.symm h]
    · rename_i h1
      split
      · by_cases h : k = j
        · simp [look, h]
        · simp [look, h, Ne.symm h]
      · by_cases h : i = j
        · subst h; simp [look, h1]
        · simp [look, h, ih]

/-- Keys rise strictly: the head's key is below every other. -/
theorem sorted_cons (e : Nat × α) (r : Tbl α) :
    sorted (e :: r) = true ↔ (∀ f ∈ r, e.1 < f.1) ∧ sorted r = true := by
  induction r generalizing e with
  | nil => simp [sorted]
  | cons f r ih =>
    obtain ⟨i, x⟩ := e
    obtain ⟨j, y⟩ := f
    have h := ih (j, y)
    simp only [sorted, Bool.and_eq_true, decide_eq_true_eq, List.mem_cons, forall_eq_or_imp]
    constructor
    · rintro ⟨h1, h2⟩
      exact ⟨⟨h1, fun f hf => Nat.lt_trans h1 ((h.1 h2).1 f hf)⟩, h2⟩
    · rintro ⟨⟨h1, _⟩, h2⟩
      exact ⟨h1, h2⟩

theorem sorted_drop (t : Tbl α) (k : Nat) (h : t.sorted = true) : (t.drop k).sorted = true := by
  unfold drop
  induction t with
  | nil => rfl
  | cons e r ih =>
    rw [sorted_cons] at h
    rw [List.filter_cons]
    split
    · rw [sorted_cons]
      exact ⟨fun f hf => h.1 f ((List.mem_filter.1 hf).1), ih h.2⟩
    · exact ih h.2

theorem mem_ins (t : Tbl α) (k : Nat) (x : α) (e : Nat × α) (h : e ∈ t.ins k x) :
    e = (k, x) ∨ e ∈ t := by
  induction t with
  | nil => simpa [ins] using h
  | cons f r ih =>
    obtain ⟨i, y⟩ := f
    unfold ins at h
    split at h
    · rcases List.mem_cons.1 h with h | h
      · exact .inl h
      · exact .inr (List.mem_cons_of_mem _ h)
    · split at h
      · rcases List.mem_cons.1 h with h | h
        · exact .inl h
        · exact .inr h
      · rcases List.mem_cons.1 h with h | h
        · exact .inr (h ▸ List.mem_cons_self)
        · rcases ih h with h | h
          · exact .inl h
          · exact .inr (List.mem_cons_of_mem _ h)

theorem sorted_ins (t : Tbl α) (k : Nat) (x : α) (h : t.sorted = true) :
    (t.ins k x).sorted = true := by
  induction t with
  | nil => rfl
  | cons f r ih =>
    obtain ⟨i, y⟩ := f
    have h' := (sorted_cons _ _).1 h
    unfold ins
    split
    · rename_i e; subst e
      exact (sorted_cons _ _).2 ⟨fun g hg => h'.1 g hg, h'.2⟩
    · split
      · rename_i hk
        refine (sorted_cons _ _).2 ⟨fun g hg => ?_, h⟩
        rcases List.mem_cons.1 hg with rfl | hg
        · exact hk
        · exact Nat.lt_trans hk (h'.1 g hg)
      · rename_i h1 h2
        refine (sorted_cons _ _).2 ⟨fun g hg => ?_, ih h'.2⟩
        rcases mem_ins r k x g hg with rfl | hg
        · show i < k; omega
        · exact h'.1 g hg

variable [DecidableEq α]

/-- A write keeps the canonical form. -/
theorem wf_put (d : α) (t : Tbl α) (k : Nat) (x : α) (h : t.wf d = true) :
    (t.put d k x).wf d = true := by
  unfold wf at *
  simp only [Bool.and_eq_true, List.all_eq_true] at h ⊢
  unfold put
  split
  · exact ⟨sorted_drop t k h.1, fun e he => h.2 e ((List.mem_filter.1 he).1)⟩
  · rename_i hx
    refine ⟨sorted_ins t k x h.1, fun e he => ?_⟩
    rcases mem_ins t k x e he with rfl | he
    · simp [hx]
    · exact h.2 e he

theorem wf_filter (d : α) (t : Tbl α) (p : Nat × α → Bool) (h : t.wf d = true) :
    Tbl.wf d (t.filter p) = true := by
  unfold wf at *
  simp only [Bool.and_eq_true, List.all_eq_true] at h ⊢
  refine ⟨?_, fun e he => h.2 e ((List.mem_filter.1 he).1)⟩
  have hs := h.1
  clear h
  induction t with
  | nil => rfl
  | cons e r ih =>
    rw [sorted_cons] at hs
    rw [List.filter_cons]
    split
    · exact (sorted_cons _ _).2 ⟨fun f hf => hs.1 f ((List.mem_filter.1 hf).1), ih hs.2⟩
    · exact ih hs.2

theorem look_put (d : α) (t : Tbl α) (k j : Nat) (x : α) :
    (t.put d k x).look d j = if j = k then x else t.look d j := by
  unfold put
  split
  · rename_i h; subst h; simp [look_drop]
  · simp [look_ins]

@[simp] theorem look_put_self (d : α) (t : Tbl α) (k : Nat) (x : α) :
    (t.put d k x).look d k = x := by simp [look_put]

theorem look_put_ne (d : α) (t : Tbl α) {k j : Nat} (x : α) (h : j ≠ k) :
    (t.put d k x).look d j = t.look d j := by simp [look_put, h]

end Sys2Proof.Machine.Tbl
end

