-- ==== Sys2Proof/Laws/Mem.lean ====
section
/-!
SUPPORT. Memory: a read after a write, what a write leaves alone, and that every memory operation keeps
the canonical form.
-/

namespace Sys2Proof.Machine

open Sys2Proof

namespace Memory

theorem get_set (m : List Host.Cell) (a b : Nat) (x : Byte) :
    get (set m a x) b = if b = a then x else get m b := Tbl.look_put 0 m a b x

theorem wf_set (m : List Host.Cell) (a : Nat) (x : Byte) (h : wf m = true) : wf (set m a x) = true :=
  Tbl.wf_put 0 m a x h

theorem wf_zero (m : List Host.Cell) (lo hi : Nat) (h : wf m = true) : wf (zero m lo hi) = true :=
  Tbl.wf_filter 0 m _ h

theorem wf_writeList (m : List Host.Cell) (a : Nat) (l : List Byte) (h : wf m = true) :
    wf (writeList m a l) = true := by
  induction l generalizing m a with
  | nil => exact h
  | cons b r ih => exact ih _ _ (wf_set m a b h)

/-- Folding writes keeps the form. -/
theorem wf_foldl {β : Type} (f : List Host.Cell → β → List Host.Cell)
    (hf : ∀ m b, wf m = true → wf (f m b) = true) (l : List β) (m : List Host.Cell)
    (h : wf m = true) : wf (l.foldl f m) = true := by
  induction l generalizing m with
  | nil => exact h
  | cons b r ih => exact ih _ (hf m b h)

theorem get_writeList (m : List Host.Cell) (a b : Nat) (l : List Byte) :
    get (writeList m a l) b = if a ≤ b ∧ b < a + l.length then l.getD (b - a) 0 else get m b := by
  induction l generalizing m a with
  | nil => have : ¬ (a ≤ b ∧ b < a) := by omega
           simp [writeList, this]
  | cons x r ih =>
    rw [writeList, ih, get_set]
    by_cases h1 : a = b
    · subst h1
      have : ¬ (a + 1 ≤ a) := by omega
      simp [this]
    · by_cases h2 : a + 1 ≤ b ∧ b < a + 1 + r.length
      · have h3 : a ≤ b ∧ b < a + (r.length + 1) := by omega
        have h4 : b - a = (b - (a + 1)) + 1 := by omega
        simp only [List.length_cons, if_pos h2, if_pos h3, h4, List.getD_cons_succ]
      · have h3 : ¬ (a ≤ b ∧ b < a + (r.length + 1)) := by omega
        simp only [List.length_cons, if_neg h2, if_neg h3, if_neg (Ne.symm h1)]

theorem get_zero (m : List Host.Cell) (lo hi b : Nat) :
    get (zero m lo hi) b = if lo ≤ b ∧ b < hi then 0 else get m b := by
  unfold get zero
  induction m with
  | nil => simp [Tbl.look]
  | cons e r ih =>
    obtain ⟨k, x⟩ := e
    rw [List.filter_cons]
    split
    · rename_i hk
      simp only [Bool.or_eq_true, decide_eq_true_eq] at hk
      by_cases hkb : k = b
      · subst hkb
        have : ¬ (lo ≤ k ∧ k < hi) := by omega
        simp [Tbl.look, this]
      · simp only [Tbl.look, hkb, if_false]; exact ih
    · rename_i hk
      simp only [Bool.or_eq_true, decide_eq_true_eq] at hk
      rw [ih]
      by_cases hkb : k = b
      · subst hkb
        have : lo ≤ k ∧ k < hi := by omega
        simp [this]
      · simp [Tbl.look, hkb]

end Memory

theorem leBytes_length (n x : Nat) : (leBytes n x).length = n := by
  induction n generalizing x with
  | zero => rfl
  | succ n ih => simp [leBytes, ih]

/-- Byte `i` of a little-endian value (R4). -/
theorem leBytes_getD (n x i : Nat) (h : i < n) :
    (leBytes n x).getD i 0 = BitVec.ofNat 8 (x / 256 ^ i) := by
  induction n generalizing x i with
  | zero => omega
  | succ n ih =>
    cases i with
    | zero => simp [leBytes]
    | succ i =>
      have := ih (x / 256) i (by omega)
      simp only [leBytes, List.getD_cons_succ, this]
      rw [Nat.div_div_eq_div_mul, Nat.pow_succ, Nat.mul_comm]

/-- A write of `n` bytes at a home address, byte by byte. -/
theorem State.byteAt_writeHome (s : State) (a n x b : Nat) :
    (s.writeHome a n x).byteAt b =
      if a ≤ b ∧ b < a + n then BitVec.ofNat 8 (x / 256 ^ (b - a)) else s.byteAt b := by
  simp only [State.writeHome, State.byteAt, Memory.get_writeList, leBytes_length]
  split
  · exact leBytes_getD n x (b - a) (by omega)
  · rfl

theorem State.byteAt_zeroRange (s : State) (lo hi b : Nat) :
    (s.zeroRange lo hi).byteAt b = if lo ≤ b ∧ b < hi then 0 else s.byteAt b :=
  Memory.get_zero s.mem lo hi b

theorem State.wf_writeHome (s : State) (a n x : Nat) (h : Memory.wf s.mem = true) :
    Memory.wf (s.writeHome a n x).mem = true := Memory.wf_writeList _ _ _ h

theorem State.wf_writeBytes (s : State) (a : Nat) (l : List Byte) (h : Memory.wf s.mem = true) :
    Memory.wf (s.writeBytes a l).mem = true := Memory.wf_writeList _ _ _ h

theorem State.wf_zeroRange (s : State) (lo hi : Nat) (h : Memory.wf s.mem = true) :
    Memory.wf (s.zeroRange lo hi).mem = true := Memory.wf_zero _ _ _ h

end Sys2Proof.Machine
end

