-- ==== Sys2Proof/Laws/PerInstr.lean ====
section
/-!
SUPPORT. A law of every instruction as syntax: a word of R293 to R298 exists for it exactly when it is one of
the 146 thread instructions; the rows of the table that name an event have no encoding.
-/

namespace Sys2Proof.Laws.Bits

open Sys2Proof

/-- The encoder gives a word exactly to the thread instructions. -/
def Statement (i : Instr) : Prop := (encode i).isSome = isThreadInstr i

theorem add x0 x1 x2 : Statement (.add x0 x1 x2) := rfl
theorem sub x0 x1 x2 : Statement (.sub x0 x1 x2) := rfl
theorem adds x0 x1 x2 : Statement (.adds x0 x1 x2) := rfl
theorem subs x0 x1 x2 : Statement (.subs x0 x1 x2) := rfl
theorem mul x0 x1 x2 : Statement (.mul x0 x1 x2) := rfl
theorem mulh x0 x1 x2 : Statement (.mulh x0 x1 x2) := rfl
theorem mulhn x0 x1 x2 : Statement (.mulhn x0 x1 x2) := rfl
theorem div x0 x1 x2 : Statement (.div x0 x1 x2) := rfl
theorem divn x0 x1 x2 : Statement (.divn x0 x1 x2) := rfl
theorem rem x0 x1 x2 : Statement (.rem x0 x1 x2) := rfl
theorem remn x0 x1 x2 : Statement (.remn x0 x1 x2) := rfl
theorem and x0 x1 x2 : Statement (.and x0 x1 x2) := rfl
theorem or x0 x1 x2 : Statement (.or x0 x1 x2) := rfl
theorem xor x0 x1 x2 : Statement (.xor x0 x1 x2) := rfl
theorem shl x0 x1 x2 : Statement (.shl x0 x1 x2) := rfl
theorem shr x0 x1 x2 : Statement (.shr x0 x1 x2) := rfl
theorem sra x0 x1 x2 : Statement (.sra x0 x1 x2) := rfl
theorem min x0 x1 x2 : Statement (.min x0 x1 x2) := rfl
theorem max x0 x1 x2 : Statement (.max x0 x1 x2) := rfl
theorem minn x0 x1 x2 : Statement (.minn x0 x1 x2) := rfl
theorem maxn x0 x1 x2 : Statement (.maxn x0 x1 x2) := rfl
theorem clz x0 x1 : Statement (.clz x0 x1) := rfl
theorem ctz x0 x1 : Statement (.ctz x0 x1) := rfl
theorem popc x0 x1 : Statement (.popc x0 x1) := rfl
theorem brev x0 x1 : Statement (.brev x0 x1) := rfl
theorem sel x0 x1 x2 x3 : Statement (.sel x0 x1 x2 x3) := rfl
theorem addi x0 x1 x2 : Statement (.addi x0 x1 x2) := rfl
theorem andi x0 x1 x2 : Statement (.andi x0 x1 x2) := rfl
theorem ori x0 x1 x2 : Statement (.ori x0 x1 x2) := rfl
theorem xori x0 x1 x2 : Statement (.xori x0 x1 x2) := rfl
theorem shli x0 x1 x2 : Statement (.shli x0 x1 x2) := rfl
theorem shri x0 x1 x2 : Statement (.shri x0 x1 x2) := rfl
theorem srai x0 x1 x2 : Statement (.srai x0 x1 x2) := rfl
theorem cmpi x0 x1 x2 x3 : Statement (.cmpi x0 x1 x2 x3) := rfl
theorem lih x0 x1 x2 : Statement (.lih x0 x1 x2) := rfl
theorem addpc x0 x1 : Statement (.addpc x0 x1) := rfl
theorem ext x0 x1 x2 x3 : Statement (.ext x0 x1 x2 x3) := rfl
theorem ins x0 x1 x2 x3 : Statement (.ins x0 x1 x2 x3) := rfl
theorem lea x0 x1 x2 x3 : Statement (.lea x0 x1 x2 x3) := rfl
theorem site x0 x1 : Statement (.site x0 x1) := rfl
theorem cmp x0 x1 x2 x3 : Statement (.cmp x0 x1 x2 x3) := rfl
theorem plog x0 x1 x2 x3 : Statement (.plog x0 x1 x2 x3) := rfl
theorem ld x0 x1 x2 x3 x4 x5 : Statement (.ld x0 x1 x2 x3 x4 x5) := rfl
theorem st x0 x1 x2 x3 x4 : Statement (.st x0 x1 x2 x3 x4) := rfl
theorem ldv x0 x1 x2 x3 : Statement (.ldv x0 x1 x2 x3) := rfl
theorem stv x0 x1 x2 x3 : Statement (.stv x0 x1 x2 x3) := rfl
theorem ldf x0 x1 x2 x3 x4 : Statement (.ldf x0 x1 x2 x3 x4) := rfl
theorem stf x0 x1 x2 x3 : Statement (.stf x0 x1 x2 x3) := rfl
theorem ste x0 x1 : Statement (.ste x0 x1) := rfl
theorem feset x0 : Statement (.feset x0) := rfl
theorem feclr x0 : Statement (.feclr x0) := rfl
theorem pref x0 x1 : Statement (.pref x0 x1) := rfl
theorem rlx x0 : Statement (.rlx x0) := rfl
theorem fence x0 : Statement (.fence x0) := rfl
theorem amo x0 x1 x2 x3 x4 x5 x6 : Statement (.amo x0 x1 x2 x3 x4 x5 x6) := rfl
theorem cas x0 x1 x2 x3 x4 x5 : Statement (.cas x0 x1 x2 x3 x4 x5) := rfl
theorem amof x0 x1 x2 x3 x4 x5 : Statement (.amof x0 x1 x2 x3 x4 x5) := rfl
theorem br x0 x1 x2 : Statement (.br x0 x1 x2) := rfl
theorem jmp x0 : Statement (.jmp x0) := rfl
theorem jal x0 : Statement (.jal x0) := rfl
theorem jr x0 x1 : Statement (.jr x0 x1) := rfl
theorem exit : Statement .exit := rfl
theorem yield : Statement .yield := rfl
theorem trap x0 : Statement (.trap x0) := rfl
theorem svc x0 : Statement (.svc x0) := rfl
theorem waitw x0 x1 x2 : Statement (.waitw x0 x1 x2) := rfl
theorem cntadd x0 x1 x2 : Statement (.cntadd x0 x1 x2) := rfl
theorem cntwait x0 x1 x2 : Statement (.cntwait x0 x1 x2) := rfl
theorem bar x0 x1 : Statement (.bar x0 x1) := rfl
theorem send x0 x1 x2 : Statement (.send x0 x1 x2) := rfl
theorem recv x0 x1 x2 : Statement (.recv x0 x1 x2) := rfl
theorem uiret : Statement .uiret := rfl
theorem qwait x0 x1 x2 : Statement (.qwait x0 x1 x2) := rfl
theorem fadd x0 x1 x2 x3 x4 : Statement (.fadd x0 x1 x2 x3 x4) := rfl
theorem fsub x0 x1 x2 x3 x4 : Statement (.fsub x0 x1 x2 x3 x4) := rfl
theorem fmul x0 x1 x2 x3 x4 : Statement (.fmul x0 x1 x2 x3 x4) := rfl
theorem ffma x0 x1 x2 x3 x4 : Statement (.ffma x0 x1 x2 x3 x4) := rfl
theorem fmin x0 x1 x2 x3 : Statement (.fmin x0 x1 x2 x3) := rfl
theorem fmax x0 x1 x2 x3 : Statement (.fmax x0 x1 x2 x3) := rfl
theorem frcp x0 x1 x2 : Statement (.frcp x0 x1 x2) := rfl
theorem frsq x0 x1 x2 : Statement (.frsq x0 x1 x2) := rfl
theorem frcpr x0 x1 x2 x3 x4 : Statement (.frcpr x0 x1 x2 x3 x4) := rfl
theorem frsqr x0 x1 x2 x3 x4 : Statement (.frsqr x0 x1 x2 x3 x4) := rfl
theorem fcmp x0 x1 x2 x3 x4 x5 : Statement (.fcmp x0 x1 x2 x3 x4 x5) := rfl
theorem fclass x0 x1 x2 : Statement (.fclass x0 x1 x2) := rfl
theorem fsgn x0 x1 x2 x3 x4 : Statement (.fsgn x0 x1 x2 x3 x4) := rfl
theorem fcvt x0 x1 x2 x3 x4 : Statement (.fcvt x0 x1 x2 x3 x4) := rfl
theorem icvt x0 x1 x2 x3 x4 : Statement (.icvt x0 x1 x2 x3 x4) := rfl
theorem fcvti x0 x1 x2 x3 x4 : Statement (.fcvti x0 x1 x2 x3 x4) := rfl
theorem vadd x0 x1 x2 x3 x4 x5 : Statement (.vadd x0 x1 x2 x3 x4 x5) := rfl
theorem vsub x0 x1 x2 x3 x4 x5 : Statement (.vsub x0 x1 x2 x3 x4 x5) := rfl
theorem vmul x0 x1 x2 x3 x4 x5 : Statement (.vmul x0 x1 x2 x3 x4 x5) := rfl
theorem vfma x0 x1 x2 x3 x4 x5 : Statement (.vfma x0 x1 x2 x3 x4 x5) := rfl
theorem vmin x0 x1 x2 x3 x4 : Statement (.vmin x0 x1 x2 x3 x4) := rfl
theorem vmax x0 x1 x2 x3 x4 : Statement (.vmax x0 x1 x2 x3 x4) := rfl
theorem vdot x0 x1 x2 x3 x4 x5 : Statement (.vdot x0 x1 x2 x3 x4 x5) := rfl
theorem vcvt x0 x1 x2 x3 x4 x5 : Statement (.vcvt x0 x1 x2 x3 x4 x5) := rfl
theorem vcvtDesc x0 x1 x2 x3 : Statement (.vcvtDesc x0 x1 x2 x3) := rfl
theorem vscale x0 x1 x2 x3 x4 x5 : Statement (.vscale x0 x1 x2 x3 x4 x5) := rfl
theorem vshuf x0 x1 x2 x3 x4 : Statement (.vshuf x0 x1 x2 x3 x4) := rfl
theorem vbcast x0 x1 x2 x3 : Statement (.vbcast x0 x1 x2 x3) := rfl
theorem vsel x0 x1 x2 x3 : Statement (.vsel x0 x1 x2 x3) := rfl
theorem vcmp x0 x1 x2 x3 x4 : Statement (.vcmp x0 x1 x2 x3 x4) := rfl
theorem vred x0 x1 x2 x3 x4 : Statement (.vred x0 x1 x2 x3 x4) := rfl
theorem vlog x0 x1 x2 x3 : Statement (.vlog x0 x1 x2 x3) := rfl
theorem vshift x0 x1 x2 x3 x4 : Statement (.vshift x0 x1 x2 x3 x4) := rfl
theorem vmovg x0 x1 x2 x3 : Statement (.vmovg x0 x1 x2 x3) := rfl
theorem vmovv x0 x1 x2 x3 : Statement (.vmovv x0 x1 x2 x3) := rfl
theorem mxa x0 x1 : Statement (.mxa x0 x1) := rfl
theorem mxb x0 x1 : Statement (.mxb x0 x1) := rfl
theorem mxc x0 x1 x2 : Statement (.mxc x0 x1 x2) := rfl
theorem mxgo x0 : Statement (.mxgo x0) := rfl
theorem mxdrain x0 x1 x2 : Statement (.mxdrain x0 x1 x2) := rfl
theorem mxrel : Statement .mxrel := rfl
theorem acopy x0 x1 x2 : Statement (.acopy x0 x1 x2) := rfl
theorem agather x0 x1 x2 : Statement (.agather x0 x1 x2) := rfl
theorem ascatter x0 x1 x2 : Statement (.ascatter x0 x1 x2) := rfl
theorem acoll x0 x1 x2 : Statement (.acoll x0 x1 x2) := rfl
theorem await x0 x1 : Statement (.await x0 x1) := rfl
theorem acancel x0 x1 : Statement (.acancel x0 x1) := rfl
theorem cfgload x0 x1 x2 : Statement (.cfgload x0 x1 x2) := rfl
theorem cfgarm x0 x1 : Statement (.cfgarm x0 x1) := rfl
theorem cfgshadow x0 x1 x2 : Statement (.cfgshadow x0 x1 x2) := rfl
theorem roll x0 x1 x2 : Statement (.roll x0 x1 x2) := rfl
theorem cfgpatch x0 x1 x2 : Statement (.cfgpatch x0 x1 x2) := rfl
theorem qput x0 x1 x2 : Statement (.qput x0 x1 x2) := rfl
theorem qtake x0 x1 x2 : Statement (.qtake x0 x1 x2) := rfl
theorem ereply x0 x1 x2 : ∀ x3, Statement (.ereply x0 x1 x2 x3)
  | 0 | 1 | 2 => rfl
theorem edrop x0 : Statement (.edrop x0) := rfl
theorem ctok x0 x1 x2 : Statement (.ctok x0 x1 x2) := rfl
theorem launch x0 x1 x2 : Statement (.launch x0 x1 x2) := rfl
theorem spawn x0 x1 : Statement (.spawn x0 x1) := rfl
theorem prio x0 x1 : Statement (.prio x0 x1) := rfl
theorem cancel x0 x1 : Statement (.cancel x0 x1) := rfl
theorem cancelFault x0 x1 : Statement (.cancelFault x0 x1) := rfl
theorem mfs x0 x1 : Statement (.mfs x0 x1) := rfl
theorem mts x0 x1 : Statement (.mts x0 x1) := rfl
theorem tret : Statement .tret := rfl
theorem ilock x0 x1 : Statement (.ilock x0 x1) := rfl
theorem iunlock x0 x1 : Statement (.iunlock x0 x1) := rfl
theorem iflush : Statement .iflush := rfl
theorem tlbinv x0 x1 : Statement (.tlbinv x0 x1) := rfl
theorem snap x0 : Statement (.snap x0) := rfl
theorem brk : Statement .brk := rfl
theorem hint x0 : Statement (.hint x0) := rfl
theorem waiti x0 : Statement (.waiti x0) := rfl
theorem unassignedEncoding x0 : Statement (.unassignedEncoding x0) := rfl
theorem instructionFetchFault : Statement .instructionFetchFault := rfl
theorem islandTransitionDone x0 : Statement (.islandTransitionDone x0) := rfl
theorem circuitTransfer x0 x1 x2 : Statement (.circuitTransfer x0 x1 x2) := rfl
theorem flitTransmit x0 : Statement (.flitTransmit x0) := rfl
theorem routeNotice x0 : Statement (.routeNotice x0) := rfl
theorem jobRecordTake x0 : Statement (.jobRecordTake x0) := rfl
theorem fwActivateDone : Statement .fwActivateDone := rfl
theorem tocsinHalted : Statement .tocsinHalted := rfl
theorem tocsinStepEnd : Statement .tocsinStepEnd := rfl
theorem resizePropose : Statement .resizePropose := rfl
theorem resizeGuard : Statement .resizeGuard := rfl
theorem resizeDrain : Statement .resizeDrain := rfl
theorem regionMove x0 : Statement (.regionMove x0) := rfl
theorem coreMove x0 : Statement (.coreMove x0) := rfl
theorem hbmSweepPage : Statement .hbmSweepPage := rfl
theorem resizeMigrate : Statement .resizeMigrate := rfl
theorem rehashSweepLine x0 : Statement (.rehashSweepLine x0) := rfl
theorem resizeRehash : Statement .resizeRehash := rfl
theorem resizeScrub : Statement .resizeScrub := rfl
theorem resizeCommit : Statement .resizeCommit := rfl
theorem phaseStart x0 x1 : Statement (.phaseStart x0 x1) := rfl
theorem launchRecordRead x0 x1 : Statement (.launchRecordRead x0 x1) := rfl
theorem schedulerDecision : Statement .schedulerDecision := rfl
theorem launchPromote x0 x1 : Statement (.launchPromote x0 x1) := rfl
theorem gangDeadline x0 x1 : Statement (.gangDeadline x0 x1) := rfl
theorem taskDispatch x0 : Statement (.taskDispatch x0) := rfl
theorem taskPacketPromote x0 : Statement (.taskPacketPromote x0) := rfl
theorem messageDelivery x0 : Statement (.messageDelivery x0) := rfl
theorem messageReturn x0 : Statement (.messageReturn x0) := rfl
theorem ctxSwapDone x0 : Statement (.ctxSwapDone x0) := rfl
theorem ctxSpillDone x0 : Statement (.ctxSpillDone x0) := rfl
theorem ctxFillDone x0 : Statement (.ctxFillDone x0) := rfl
theorem elementFire x0 : Statement (.elementFire x0) := rfl
theorem elementResult x0 : Statement (.elementResult x0) := rfl
theorem tokenHop x0 x1 : Statement (.tokenHop x0 x1) := rfl
theorem tileRead x0 : Statement (.tileRead x0) := rfl
theorem tilePortBOp x0 : Statement (.tilePortBOp x0) := rfl
theorem fifoAppend x0 : Statement (.fifoAppend x0) := rfl
theorem fifoEmit x0 : Statement (.fifoEmit x0) := rfl
theorem cacheLineFill x0 : Statement (.cacheLineFill x0) := rfl
theorem fibreUnitFire x0 : Statement (.fibreUnitFire x0) := rfl
theorem generatorLoadEmit x0 x1 : Statement (.generatorLoadEmit x0 x1) := rfl
theorem generatorStoreWrite x0 x1 : Statement (.generatorStoreWrite x0 x1) := rfl
theorem patchMiss x0 x1 : Statement (.patchMiss x0 x1) := rfl
theorem extentRefill x0 x1 : Statement (.extentRefill x0 x1) := rfl
theorem transGrant x0 : Statement (.transGrant x0) := rfl
theorem transReply x0 : Statement (.transReply x0) := rfl
theorem escapeThreadStart x0 : Statement (.escapeThreadStart x0) := rfl
theorem escapeTokenLeave x0 : Statement (.escapeTokenLeave x0) := rfl
theorem windowPublish x0 x1 x2 : Statement (.windowPublish x0 x1 x2) := rfl
theorem hushSweep x0 x1 : Statement (.hushSweep x0 x1) := rfl
theorem hushStall x0 x1 : Statement (.hushStall x0 x1) := rfl
theorem configLoadComplete x0 : Statement (.configLoadComplete x0) := rfl
theorem regionArm x0 x1 : Statement (.regionArm x0 x1) := rfl
theorem siteSwap x0 : Statement (.siteSwap x0) := rfl
theorem matrixTileEmit x0 : Statement (.matrixTileEmit x0) := rfl
theorem fabricFault x0 x1 : Statement (.fabricFault x0 x1) := rfl
theorem regionClockStop x0 x1 : Statement (.regionClockStop x0 x1) := rfl
theorem fabricPageFaultScanout x0 x1 : Statement (.fabricPageFaultScanout x0 x1) := rfl
theorem regionReload x0 x1 : Statement (.regionReload x0 x1) := rfl
theorem uiTake : Statement .uiTake := rfl
theorem memoryReply x0 x1 : Statement (.memoryReply x0 x1) := rfl
theorem pageWalkDone x0 : Statement (.pageWalkDone x0) := rfl
theorem kStepGrant x0 : Statement (.kStepGrant x0) := rfl
theorem kStepDone x0 : Statement (.kStepDone x0) := rfl
theorem drainRowStart x0 : Statement (.drainRowStart x0) := rfl
theorem drainRowWrite x0 : Statement (.drainRowWrite x0) := rfl
theorem asyncCommandComplete x0 : Statement (.asyncCommandComplete x0) := rfl
theorem shootdownAck x0 x1 : Statement (.shootdownAck x0 x1) := rfl
theorem migGranuleCopy x0 x1 : Statement (.migGranuleCopy x0 x1) := rfl
theorem migComplete x0 x1 : Statement (.migComplete x0 x1) := rfl
theorem asyncEngineTransfer x0 : Statement (.asyncEngineTransfer x0) := rfl
theorem fundamentalReset : Statement .fundamentalReset := rfl
theorem pwrIslCtlWrite x0 x1 : Statement (.pwrIslCtlWrite x0 x1) := rfl
theorem thermalThrottle x0 x1 : Statement (.thermalThrottle x0 x1) := rfl
theorem limiterStep x0 x1 : Statement (.limiterStep x0 x1) := rfl
theorem thermalShutdown x0 : Statement (.thermalShutdown x0) := rfl
theorem bridgeReplay : Statement .bridgeReplay := rfl
theorem bridge : Statement .bridge := rfl
theorem lnkPkgidWrite x0 : Statement (.lnkPkgidWrite x0) := rfl
theorem linkEnable x0 x1 : Statement (.linkEnable x0 x1) := rfl
theorem linkClr x0 : Statement (.linkClr x0) := rfl
theorem linkTrainDone x0 x1 x2 : Statement (.linkTrainDone x0 x1 x2) := rfl
theorem linkDown x0 : Statement (.linkDown x0) := rfl
theorem linkRetrain x0 : Statement (.linkRetrain x0) := rfl
theorem flitReceive x0 x1 x2 : Statement (.flitReceive x0 x1 x2) := rfl
theorem remoteMemoryRequest x0 x1 x2 : Statement (.remoteMemoryRequest x0 x1 x2) := rfl
theorem lnkPrtRtWrite x0 x1 x2 x3 : Statement (.lnkPrtRtWrite x0 x1 x2 x3) := rfl
theorem lnkLinkmaskWrite x0 x1 : Statement (.lnkLinkmaskWrite x0 x1) := rfl
theorem lnkDomainWrite x0 x1 : Statement (.lnkDomainWrite x0 x1) := rfl
theorem vfBindWrite x0 x1 : Statement (.vfBindWrite x0 x1) := rfl
theorem doorbell x0 x1 x2 : Statement (.doorbell x0 x1 x2) := rfl
theorem vfFlr x0 : Statement (.vfFlr x0) := rfl
theorem pf0Flr : Statement .pf0Flr := rfl
theorem pf1Flr : Statement .pf1Flr := rfl
theorem memoryUncorrectableError x0 x1 : Statement (.memoryUncorrectableError x0 x1) := rfl
theorem cxlerr : Statement .cxlerr := rfl
theorem fwfail : Statement .fwfail := rfl
theorem hostCxlMemRequest x0 x1 x2 : Statement (.hostCxlMemRequest x0 x1 x2) := rfl
theorem hostSnoop x0 : Statement (.hostSnoop x0) := rfl
theorem hostBar2Access x0 x1 x2 x3 x4 : Statement (.hostBar2Access x0 x1 x2 x3 x4) := rfl
theorem fwStart : Statement .fwStart := rfl
theorem fwVerifyDone x0 x1 x2 x3 : Statement (.fwVerifyDone x0 x1 x2 x3) := rfl
theorem fwActivate : Statement .fwActivate := rfl
theorem spdmRequest x0 x1 : Statement (.spdmRequest x0 x1) := rfl
theorem ideKm x0 x1 x2 : Statement (.ideKm x0 x1 x2) := rfl
theorem clapperFire : Statement .clapperFire := rfl
theorem clapperArm x0 : Statement (.clapperArm x0) := rfl
theorem remoteClapperTrigger : Statement .remoteClapperTrigger := rfl
theorem dbgEvtWrite x0 x1 : Statement (.dbgEvtWrite x0 x1) := rfl
theorem tocsinHalt : Statement .tocsinHalt := rfl
theorem tocsinStep : Statement .tocsinStep := rfl
theorem tocsinResume : Statement .tocsinResume := rfl
theorem remoteTocsin x0 : Statement (.remoteTocsin x0) := rfl
theorem prtCreate x0 x1 : Statement (.prtCreate x0 x1) := rfl
theorem prtResize x0 x1 : Statement (.prtResize x0 x1) := rfl
theorem prtDestroy x0 x1 : Statement (.prtDestroy x0 x1) := rfl
theorem prtGrdClr x0 : Statement (.prtGrdClr x0) := rfl
theorem prtQuotaWrite x0 x1 : Statement (.prtQuotaWrite x0 x1) := rfl
theorem gangAckReceive x0 x1 x2 : Statement (.gangAckReceive x0 x1 x2) := rfl
theorem gangCancelReceive x0 x1 : Statement (.gangCancelReceive x0 x1) := rfl
theorem schCancelWrite x0 x1 : Statement (.schCancelWrite x0 x1) := rfl
theorem epsync x0 x1 : Statement (.epsync x0 x1) := rfl
theorem epdirWrite x0 x1 : Statement (.epdirWrite x0 x1) := rfl
theorem cntvalRead x0 : Statement (.cntvalRead x0) := rfl
theorem ctxSwap x0 : Statement (.ctxSwap x0) := rfl
theorem ctxSpill x0 : Statement (.ctxSpill x0) := rfl
theorem ctxFill x0 : Statement (.ctxFill x0) := rfl
theorem frackResume x0 x1 : Statement (.frackResume x0 x1) := rfl
theorem poolpwWrite x0 x1 x2 : Statement (.poolpwWrite x0 x1 x2) := rfl
theorem mtpwWrite x0 x1 x2 : Statement (.mtpwWrite x0 x1 x2) := rfl
theorem frbaseWrite x0 x1 : Statement (.frbaseWrite x0 x1) := rfl
theorem rqdescWrite x0 x1 x2 x3 : Statement (.rqdescWrite x0 x1 x2 x3) := rfl
theorem collectiveDataReceive x0 x1 x2 x3 x4 x5 x6 x7 x8 : Statement (.collectiveDataReceive x0 x1 x2 x3 x4 x5 x6 x7 x8) := rfl
theorem mmuInvctlGo x0 x1 : Statement (.mmuInvctlGo x0 x1) := rfl
theorem migStart x0 x1 x2 : Statement (.migStart x0 x1 x2) := rfl
theorem registerWrite x0 x1 x2 : Statement (.registerWrite x0 x1 x2) := rfl

end Sys2Proof.Laws.Bits
end

