-- ==== Sys2Proof/Laws/State.lean ====
section
/-!
SUPPORT. The accessors of State: what is read back after each update, and that an update of one
family leaves every other field alone. Later proofs cite these and never unfold a record update.
-/

namespace Sys2Proof.Machine

open Sys2Proof

/-! ## Reading back -/

@[simp] theorem State.thread_setThread (s : State) (t : Nat) (x : Thread) :
    (s.setThread t x).thread t = x := Tbl.look_put_self _ _ _ _

theorem State.thread_setThread_ne (s : State) (t u : Nat) (x : Thread) (h : u ≠ t) :
    (s.setThread t x).thread u = s.thread u := Tbl.look_put_ne _ _ _ h

@[simp] theorem State.thr_setThr (s : State) (x : Thread) : (s.setThr x).thr = x :=
  State.thread_setThread s s.tid x

theorem State.thread_setThr_ne (s : State) (u : Nat) (x : Thread) (h : u ≠ s.tid) :
    (s.setThr x).thread u = s.thread u := State.thread_setThread_ne s s.tid u x h

@[simp] theorem State.core_setCore (s : State) (c : Nat) (x : Core) :
    (s.setCore c x).core c = x := Tbl.look_put_self _ _ _ _

theorem State.core_setCore_ne (s : State) (c u : Nat) (x : Core) (h : u ≠ c) :
    (s.setCore c x).core u = s.core u := Tbl.look_put_ne _ _ _ h

@[simp] theorem State.clu_setClu (s : State) (m : Nat) (x : Cluster) :
    (s.setClu m x).clu m = x := Tbl.look_put_self _ _ _ _

theorem State.clu_setClu_ne (s : State) (m u : Nat) (x : Cluster) (h : u ≠ m) :
    (s.setClu m x).clu u = s.clu u := Tbl.look_put_ne _ _ _ h

@[simp] theorem State.prt_setPrt (s : State) (q : Nat) (x : Prt) :
    (s.setPrt q x).prt q = x := Tbl.look_put_self _ _ _ _

theorem State.prt_setPrt_ne (s : State) (q u : Nat) (x : Prt) (h : u ≠ q) :
    (s.setPrt q x).prt u = s.prt u := Tbl.look_put_ne _ _ _ h

@[simp] theorem State.region_setRegion (s : State) (q sl : Nat) (x : Region) :
    (s.setRegion q sl x).region q sl = x := Tbl.look_put_self _ _ _ _

/-! ## Every other field -/

/-! ### setThread changes `threads` only -/

@[simp] theorem State.setThread_agenda (s : State) (t : Nat) (x : Thread) :
    (s.setThread t x).agenda = s.agenda := rfl
@[simp] theorem State.setThread_cur (s : State) (t : Nat) (x : Thread) :
    (s.setThread t x).cur = s.cur := rfl
@[simp] theorem State.setThread_due (s : State) (t : Nat) (x : Thread) :
    (s.setThread t x).due = s.due := rfl
@[simp] theorem State.setThread_tid (s : State) (t : Nat) (x : Thread) :
    (s.setThread t x).tid = s.tid := rfl
@[simp] theorem State.setThread_fresh (s : State) (t : Nat) (x : Thread) :
    (s.setThread t x).fresh = s.fresh := rfl
@[simp] theorem State.setThread_idNext (s : State) (t : Nat) (x : Thread) :
    (s.setThread t x).idNext = s.idNext := rfl
@[simp] theorem State.setThread_irqs (s : State) (t : Nat) (x : Thread) :
    (s.setThread t x).irqs = s.irqs := rfl
@[simp] theorem State.setThread_outbox (s : State) (t : Nat) (x : Thread) :
    (s.setThread t x).outbox = s.outbox := rfl
@[simp] theorem State.setThread_cores (s : State) (t : Nat) (x : Thread) :
    (s.setThread t x).cores = s.cores := rfl
@[simp] theorem State.setThread_clusters (s : State) (t : Nat) (x : Thread) :
    (s.setThread t x).clusters = s.clusters := rfl
@[simp] theorem State.setThread_acmds (s : State) (t : Nat) (x : Thread) :
    (s.setThread t x).acmds = s.acmds := rfl
@[simp] theorem State.setThread_mem (s : State) (t : Nat) (x : Thread) :
    (s.setThread t x).mem = s.mem := rfl
@[simp] theorem State.setThread_full (s : State) (t : Nat) (x : Thread) :
    (s.setThread t x).full = s.full := rfl
@[simp] theorem State.setThread_zeroed (s : State) (t : Nat) (x : Thread) :
    (s.setThread t x).zeroed = s.zeroed := rfl
@[simp] theorem State.setThread_poison (s : State) (t : Nat) (x : Thread) :
    (s.setThread t x).poison = s.poison := rfl
@[simp] theorem State.setThread_copies (s : State) (t : Nat) (x : Thread) :
    (s.setThread t x).copies = s.copies := rfl
@[simp] theorem State.setThread_l2 (s : State) (t : Nat) (x : Thread) :
    (s.setThread t x).l2 = s.l2 := rfl
@[simp] theorem State.setThread_l2used (s : State) (t : Nat) (x : Thread) :
    (s.setThread t x).l2used = s.l2used := rfl
@[simp] theorem State.setThread_waiters (s : State) (t : Nat) (x : Thread) :
    (s.setThread t x).waiters = s.waiters := rfl
@[simp] theorem State.setThread_prts (s : State) (t : Nat) (x : Thread) :
    (s.setThread t x).prts = s.prts := rfl
@[simp] theorem State.setThread_blkOwn (s : State) (t : Nat) (x : Thread) :
    (s.setThread t x).blkOwn = s.blkOwn := rfl
@[simp] theorem State.setThread_cluOwn (s : State) (t : Nat) (x : Thread) :
    (s.setThread t x).cluOwn = s.cluOwn := rfl
@[simp] theorem State.setThread_hbmOwn (s : State) (t : Nat) (x : Thread) :
    (s.setThread t x).hbmOwn = s.hbmOwn := rfl
@[simp] theorem State.setThread_resize (s : State) (t : Nat) (x : Thread) :
    (s.setThread t x).resize = s.resize := rfl
@[simp] theorem State.setThread_resizeQ (s : State) (t : Nat) (x : Thread) :
    (s.setThread t x).resizeQ = s.resizeQ := rfl
@[simp] theorem State.setThread_regions (s : State) (t : Nat) (x : Thread) :
    (s.setThread t x).regions = s.regions := rfl
@[simp] theorem State.setThread_circFree (s : State) (t : Nat) (x : Thread) :
    (s.setThread t x).circFree = s.circFree := rfl
@[simp] theorem State.setThread_trans (s : State) (t : Nat) (x : Thread) :
    (s.setThread t x).trans = s.trans := rfl
@[simp] theorem State.setThread_cfg (s : State) (t : Nat) (x : Thread) :
    (s.setThread t x).cfg = s.cfg := rfl
@[simp] theorem State.setThread_loads (s : State) (t : Nat) (x : Thread) :
    (s.setThread t x).loads = s.loads := rfl
@[simp] theorem State.setThread_hif (s : State) (t : Nat) (x : Thread) :
    (s.setThread t x).hif = s.hif := rfl
@[simp] theorem State.setThread_pwr (s : State) (t : Nat) (x : Thread) :
    (s.setThread t x).pwr = s.pwr := rfl
@[simp] theorem State.setThread_lnk (s : State) (t : Nat) (x : Thread) :
    (s.setThread t x).lnk = s.lnk := rfl
@[simp] theorem State.setThread_msgs (s : State) (t : Nat) (x : Thread) :
    (s.setThread t x).msgs = s.msgs := rfl
@[simp] theorem State.setThread_dbg (s : State) (t : Nat) (x : Thread) :
    (s.setThread t x).dbg = s.dbg := rfl
@[simp] theorem State.setThread_snap (s : State) (t : Nat) (x : Thread) :
    (s.setThread t x).snap = s.snap := rfl

/-! ### setThr changes `threads` only -/

@[simp] theorem State.setThr_agenda (s : State) (x : Thread) :
    (s.setThr x).agenda = s.agenda := rfl
@[simp] theorem State.setThr_cur (s : State) (x : Thread) :
    (s.setThr x).cur = s.cur := rfl
@[simp] theorem State.setThr_due (s : State) (x : Thread) :
    (s.setThr x).due = s.due := rfl
@[simp] theorem State.setThr_tid (s : State) (x : Thread) :
    (s.setThr x).tid = s.tid := rfl
@[simp] theorem State.setThr_fresh (s : State) (x : Thread) :
    (s.setThr x).fresh = s.fresh := rfl
@[simp] theorem State.setThr_idNext (s : State) (x : Thread) :
    (s.setThr x).idNext = s.idNext := rfl
@[simp] theorem State.setThr_irqs (s : State) (x : Thread) :
    (s.setThr x).irqs = s.irqs := rfl
@[simp] theorem State.setThr_outbox (s : State) (x : Thread) :
    (s.setThr x).outbox = s.outbox := rfl
@[simp] theorem State.setThr_cores (s : State) (x : Thread) :
    (s.setThr x).cores = s.cores := rfl
@[simp] theorem State.setThr_clusters (s : State) (x : Thread) :
    (s.setThr x).clusters = s.clusters := rfl
@[simp] theorem State.setThr_acmds (s : State) (x : Thread) :
    (s.setThr x).acmds = s.acmds := rfl
@[simp] theorem State.setThr_mem (s : State) (x : Thread) :
    (s.setThr x).mem = s.mem := rfl
@[simp] theorem State.setThr_full (s : State) (x : Thread) :
    (s.setThr x).full = s.full := rfl
@[simp] theorem State.setThr_zeroed (s : State) (x : Thread) :
    (s.setThr x).zeroed = s.zeroed := rfl
@[simp] theorem State.setThr_poison (s : State) (x : Thread) :
    (s.setThr x).poison = s.poison := rfl
@[simp] theorem State.setThr_copies (s : State) (x : Thread) :
    (s.setThr x).copies = s.copies := rfl
@[simp] theorem State.setThr_l2 (s : State) (x : Thread) :
    (s.setThr x).l2 = s.l2 := rfl
@[simp] theorem State.setThr_l2used (s : State) (x : Thread) :
    (s.setThr x).l2used = s.l2used := rfl
@[simp] theorem State.setThr_waiters (s : State) (x : Thread) :
    (s.setThr x).waiters = s.waiters := rfl
@[simp] theorem State.setThr_prts (s : State) (x : Thread) :
    (s.setThr x).prts = s.prts := rfl
@[simp] theorem State.setThr_blkOwn (s : State) (x : Thread) :
    (s.setThr x).blkOwn = s.blkOwn := rfl
@[simp] theorem State.setThr_cluOwn (s : State) (x : Thread) :
    (s.setThr x).cluOwn = s.cluOwn := rfl
@[simp] theorem State.setThr_hbmOwn (s : State) (x : Thread) :
    (s.setThr x).hbmOwn = s.hbmOwn := rfl
@[simp] theorem State.setThr_resize (s : State) (x : Thread) :
    (s.setThr x).resize = s.resize := rfl
@[simp] theorem State.setThr_resizeQ (s : State) (x : Thread) :
    (s.setThr x).resizeQ = s.resizeQ := rfl
@[simp] theorem State.setThr_regions (s : State) (x : Thread) :
    (s.setThr x).regions = s.regions := rfl
@[simp] theorem State.setThr_circFree (s : State) (x : Thread) :
    (s.setThr x).circFree = s.circFree := rfl
@[simp] theorem State.setThr_trans (s : State) (x : Thread) :
    (s.setThr x).trans = s.trans := rfl
@[simp] theorem State.setThr_cfg (s : State) (x : Thread) :
    (s.setThr x).cfg = s.cfg := rfl
@[simp] theorem State.setThr_loads (s : State) (x : Thread) :
    (s.setThr x).loads = s.loads := rfl
@[simp] theorem State.setThr_hif (s : State) (x : Thread) :
    (s.setThr x).hif = s.hif := rfl
@[simp] theorem State.setThr_pwr (s : State) (x : Thread) :
    (s.setThr x).pwr = s.pwr := rfl
@[simp] theorem State.setThr_lnk (s : State) (x : Thread) :
    (s.setThr x).lnk = s.lnk := rfl
@[simp] theorem State.setThr_msgs (s : State) (x : Thread) :
    (s.setThr x).msgs = s.msgs := rfl
@[simp] theorem State.setThr_dbg (s : State) (x : Thread) :
    (s.setThr x).dbg = s.dbg := rfl
@[simp] theorem State.setThr_snap (s : State) (x : Thread) :
    (s.setThr x).snap = s.snap := rfl

/-! ### setCore changes `cores` only -/

@[simp] theorem State.setCore_agenda (s : State) (c : Nat) (x : Core) :
    (s.setCore c x).agenda = s.agenda := rfl
@[simp] theorem State.setCore_cur (s : State) (c : Nat) (x : Core) :
    (s.setCore c x).cur = s.cur := rfl
@[simp] theorem State.setCore_due (s : State) (c : Nat) (x : Core) :
    (s.setCore c x).due = s.due := rfl
@[simp] theorem State.setCore_tid (s : State) (c : Nat) (x : Core) :
    (s.setCore c x).tid = s.tid := rfl
@[simp] theorem State.setCore_fresh (s : State) (c : Nat) (x : Core) :
    (s.setCore c x).fresh = s.fresh := rfl
@[simp] theorem State.setCore_idNext (s : State) (c : Nat) (x : Core) :
    (s.setCore c x).idNext = s.idNext := rfl
@[simp] theorem State.setCore_irqs (s : State) (c : Nat) (x : Core) :
    (s.setCore c x).irqs = s.irqs := rfl
@[simp] theorem State.setCore_outbox (s : State) (c : Nat) (x : Core) :
    (s.setCore c x).outbox = s.outbox := rfl
@[simp] theorem State.setCore_threads (s : State) (c : Nat) (x : Core) :
    (s.setCore c x).threads = s.threads := rfl
@[simp] theorem State.setCore_clusters (s : State) (c : Nat) (x : Core) :
    (s.setCore c x).clusters = s.clusters := rfl
@[simp] theorem State.setCore_acmds (s : State) (c : Nat) (x : Core) :
    (s.setCore c x).acmds = s.acmds := rfl
@[simp] theorem State.setCore_mem (s : State) (c : Nat) (x : Core) :
    (s.setCore c x).mem = s.mem := rfl
@[simp] theorem State.setCore_full (s : State) (c : Nat) (x : Core) :
    (s.setCore c x).full = s.full := rfl
@[simp] theorem State.setCore_zeroed (s : State) (c : Nat) (x : Core) :
    (s.setCore c x).zeroed = s.zeroed := rfl
@[simp] theorem State.setCore_poison (s : State) (c : Nat) (x : Core) :
    (s.setCore c x).poison = s.poison := rfl
@[simp] theorem State.setCore_copies (s : State) (c : Nat) (x : Core) :
    (s.setCore c x).copies = s.copies := rfl
@[simp] theorem State.setCore_l2 (s : State) (c : Nat) (x : Core) :
    (s.setCore c x).l2 = s.l2 := rfl
@[simp] theorem State.setCore_l2used (s : State) (c : Nat) (x : Core) :
    (s.setCore c x).l2used = s.l2used := rfl
@[simp] theorem State.setCore_waiters (s : State) (c : Nat) (x : Core) :
    (s.setCore c x).waiters = s.waiters := rfl
@[simp] theorem State.setCore_prts (s : State) (c : Nat) (x : Core) :
    (s.setCore c x).prts = s.prts := rfl
@[simp] theorem State.setCore_blkOwn (s : State) (c : Nat) (x : Core) :
    (s.setCore c x).blkOwn = s.blkOwn := rfl
@[simp] theorem State.setCore_cluOwn (s : State) (c : Nat) (x : Core) :
    (s.setCore c x).cluOwn = s.cluOwn := rfl
@[simp] theorem State.setCore_hbmOwn (s : State) (c : Nat) (x : Core) :
    (s.setCore c x).hbmOwn = s.hbmOwn := rfl
@[simp] theorem State.setCore_resize (s : State) (c : Nat) (x : Core) :
    (s.setCore c x).resize = s.resize := rfl
@[simp] theorem State.setCore_resizeQ (s : State) (c : Nat) (x : Core) :
    (s.setCore c x).resizeQ = s.resizeQ := rfl
@[simp] theorem State.setCore_regions (s : State) (c : Nat) (x : Core) :
    (s.setCore c x).regions = s.regions := rfl
@[simp] theorem State.setCore_circFree (s : State) (c : Nat) (x : Core) :
    (s.setCore c x).circFree = s.circFree := rfl
@[simp] theorem State.setCore_trans (s : State) (c : Nat) (x : Core) :
    (s.setCore c x).trans = s.trans := rfl
@[simp] theorem State.setCore_cfg (s : State) (c : Nat) (x : Core) :
    (s.setCore c x).cfg = s.cfg := rfl
@[simp] theorem State.setCore_loads (s : State) (c : Nat) (x : Core) :
    (s.setCore c x).loads = s.loads := rfl
@[simp] theorem State.setCore_hif (s : State) (c : Nat) (x : Core) :
    (s.setCore c x).hif = s.hif := rfl
@[simp] theorem State.setCore_pwr (s : State) (c : Nat) (x : Core) :
    (s.setCore c x).pwr = s.pwr := rfl
@[simp] theorem State.setCore_lnk (s : State) (c : Nat) (x : Core) :
    (s.setCore c x).lnk = s.lnk := rfl
@[simp] theorem State.setCore_msgs (s : State) (c : Nat) (x : Core) :
    (s.setCore c x).msgs = s.msgs := rfl
@[simp] theorem State.setCore_dbg (s : State) (c : Nat) (x : Core) :
    (s.setCore c x).dbg = s.dbg := rfl
@[simp] theorem State.setCore_snap (s : State) (c : Nat) (x : Core) :
    (s.setCore c x).snap = s.snap := rfl

/-! ### setClu changes `clusters` only -/

@[simp] theorem State.setClu_agenda (s : State) (m : Nat) (x : Cluster) :
    (s.setClu m x).agenda = s.agenda := rfl
@[simp] theorem State.setClu_cur (s : State) (m : Nat) (x : Cluster) :
    (s.setClu m x).cur = s.cur := rfl
@[simp] theorem State.setClu_due (s : State) (m : Nat) (x : Cluster) :
    (s.setClu m x).due = s.due := rfl
@[simp] theorem State.setClu_tid (s : State) (m : Nat) (x : Cluster) :
    (s.setClu m x).tid = s.tid := rfl
@[simp] theorem State.setClu_fresh (s : State) (m : Nat) (x : Cluster) :
    (s.setClu m x).fresh = s.fresh := rfl
@[simp] theorem State.setClu_idNext (s : State) (m : Nat) (x : Cluster) :
    (s.setClu m x).idNext = s.idNext := rfl
@[simp] theorem State.setClu_irqs (s : State) (m : Nat) (x : Cluster) :
    (s.setClu m x).irqs = s.irqs := rfl
@[simp] theorem State.setClu_outbox (s : State) (m : Nat) (x : Cluster) :
    (s.setClu m x).outbox = s.outbox := rfl
@[simp] theorem State.setClu_threads (s : State) (m : Nat) (x : Cluster) :
    (s.setClu m x).threads = s.threads := rfl
@[simp] theorem State.setClu_cores (s : State) (m : Nat) (x : Cluster) :
    (s.setClu m x).cores = s.cores := rfl
@[simp] theorem State.setClu_acmds (s : State) (m : Nat) (x : Cluster) :
    (s.setClu m x).acmds = s.acmds := rfl
@[simp] theorem State.setClu_mem (s : State) (m : Nat) (x : Cluster) :
    (s.setClu m x).mem = s.mem := rfl
@[simp] theorem State.setClu_full (s : State) (m : Nat) (x : Cluster) :
    (s.setClu m x).full = s.full := rfl
@[simp] theorem State.setClu_zeroed (s : State) (m : Nat) (x : Cluster) :
    (s.setClu m x).zeroed = s.zeroed := rfl
@[simp] theorem State.setClu_poison (s : State) (m : Nat) (x : Cluster) :
    (s.setClu m x).poison = s.poison := rfl
@[simp] theorem State.setClu_copies (s : State) (m : Nat) (x : Cluster) :
    (s.setClu m x).copies = s.copies := rfl
@[simp] theorem State.setClu_l2 (s : State) (m : Nat) (x : Cluster) :
    (s.setClu m x).l2 = s.l2 := rfl
@[simp] theorem State.setClu_l2used (s : State) (m : Nat) (x : Cluster) :
    (s.setClu m x).l2used = s.l2used := rfl
@[simp] theorem State.setClu_waiters (s : State) (m : Nat) (x : Cluster) :
    (s.setClu m x).waiters = s.waiters := rfl
@[simp] theorem State.setClu_prts (s : State) (m : Nat) (x : Cluster) :
    (s.setClu m x).prts = s.prts := rfl
@[simp] theorem State.setClu_blkOwn (s : State) (m : Nat) (x : Cluster) :
    (s.setClu m x).blkOwn = s.blkOwn := rfl
@[simp] theorem State.setClu_cluOwn (s : State) (m : Nat) (x : Cluster) :
    (s.setClu m x).cluOwn = s.cluOwn := rfl
@[simp] theorem State.setClu_hbmOwn (s : State) (m : Nat) (x : Cluster) :
    (s.setClu m x).hbmOwn = s.hbmOwn := rfl
@[simp] theorem State.setClu_resize (s : State) (m : Nat) (x : Cluster) :
    (s.setClu m x).resize = s.resize := rfl
@[simp] theorem State.setClu_resizeQ (s : State) (m : Nat) (x : Cluster) :
    (s.setClu m x).resizeQ = s.resizeQ := rfl
@[simp] theorem State.setClu_regions (s : State) (m : Nat) (x : Cluster) :
    (s.setClu m x).regions = s.regions := rfl
@[simp] theorem State.setClu_circFree (s : State) (m : Nat) (x : Cluster) :
    (s.setClu m x).circFree = s.circFree := rfl
@[simp] theorem State.setClu_trans (s : State) (m : Nat) (x : Cluster) :
    (s.setClu m x).trans = s.trans := rfl
@[simp] theorem State.setClu_cfg (s : State) (m : Nat) (x : Cluster) :
    (s.setClu m x).cfg = s.cfg := rfl
@[simp] theorem State.setClu_loads (s : State) (m : Nat) (x : Cluster) :
    (s.setClu m x).loads = s.loads := rfl
@[simp] theorem State.setClu_hif (s : State) (m : Nat) (x : Cluster) :
    (s.setClu m x).hif = s.hif := rfl
@[simp] theorem State.setClu_pwr (s : State) (m : Nat) (x : Cluster) :
    (s.setClu m x).pwr = s.pwr := rfl
@[simp] theorem State.setClu_lnk (s : State) (m : Nat) (x : Cluster) :
    (s.setClu m x).lnk = s.lnk := rfl
@[simp] theorem State.setClu_msgs (s : State) (m : Nat) (x : Cluster) :
    (s.setClu m x).msgs = s.msgs := rfl
@[simp] theorem State.setClu_dbg (s : State) (m : Nat) (x : Cluster) :
    (s.setClu m x).dbg = s.dbg := rfl
@[simp] theorem State.setClu_snap (s : State) (m : Nat) (x : Cluster) :
    (s.setClu m x).snap = s.snap := rfl

/-! ### setPrt changes `prts` only -/

@[simp] theorem State.setPrt_agenda (s : State) (q : Nat) (x : Prt) :
    (s.setPrt q x).agenda = s.agenda := rfl
@[simp] theorem State.setPrt_cur (s : State) (q : Nat) (x : Prt) :
    (s.setPrt q x).cur = s.cur := rfl
@[simp] theorem State.setPrt_due (s : State) (q : Nat) (x : Prt) :
    (s.setPrt q x).due = s.due := rfl
@[simp] theorem State.setPrt_tid (s : State) (q : Nat) (x : Prt) :
    (s.setPrt q x).tid = s.tid := rfl
@[simp] theorem State.setPrt_fresh (s : State) (q : Nat) (x : Prt) :
    (s.setPrt q x).fresh = s.fresh := rfl
@[simp] theorem State.setPrt_idNext (s : State) (q : Nat) (x : Prt) :
    (s.setPrt q x).idNext = s.idNext := rfl
@[simp] theorem State.setPrt_irqs (s : State) (q : Nat) (x : Prt) :
    (s.setPrt q x).irqs = s.irqs := rfl
@[simp] theorem State.setPrt_outbox (s : State) (q : Nat) (x : Prt) :
    (s.setPrt q x).outbox = s.outbox := rfl
@[simp] theorem State.setPrt_threads (s : State) (q : Nat) (x : Prt) :
    (s.setPrt q x).threads = s.threads := rfl
@[simp] theorem State.setPrt_cores (s : State) (q : Nat) (x : Prt) :
    (s.setPrt q x).cores = s.cores := rfl
@[simp] theorem State.setPrt_clusters (s : State) (q : Nat) (x : Prt) :
    (s.setPrt q x).clusters = s.clusters := rfl
@[simp] theorem State.setPrt_acmds (s : State) (q : Nat) (x : Prt) :
    (s.setPrt q x).acmds = s.acmds := rfl
@[simp] theorem State.setPrt_mem (s : State) (q : Nat) (x : Prt) :
    (s.setPrt q x).mem = s.mem := rfl
@[simp] theorem State.setPrt_full (s : State) (q : Nat) (x : Prt) :
    (s.setPrt q x).full = s.full := rfl
@[simp] theorem State.setPrt_zeroed (s : State) (q : Nat) (x : Prt) :
    (s.setPrt q x).zeroed = s.zeroed := rfl
@[simp] theorem State.setPrt_poison (s : State) (q : Nat) (x : Prt) :
    (s.setPrt q x).poison = s.poison := rfl
@[simp] theorem State.setPrt_copies (s : State) (q : Nat) (x : Prt) :
    (s.setPrt q x).copies = s.copies := rfl
@[simp] theorem State.setPrt_l2 (s : State) (q : Nat) (x : Prt) :
    (s.setPrt q x).l2 = s.l2 := rfl
@[simp] theorem State.setPrt_l2used (s : State) (q : Nat) (x : Prt) :
    (s.setPrt q x).l2used = s.l2used := rfl
@[simp] theorem State.setPrt_waiters (s : State) (q : Nat) (x : Prt) :
    (s.setPrt q x).waiters = s.waiters := rfl
@[simp] theorem State.setPrt_blkOwn (s : State) (q : Nat) (x : Prt) :
    (s.setPrt q x).blkOwn = s.blkOwn := rfl
@[simp] theorem State.setPrt_cluOwn (s : State) (q : Nat) (x : Prt) :
    (s.setPrt q x).cluOwn = s.cluOwn := rfl
@[simp] theorem State.setPrt_hbmOwn (s : State) (q : Nat) (x : Prt) :
    (s.setPrt q x).hbmOwn = s.hbmOwn := rfl
@[simp] theorem State.setPrt_resize (s : State) (q : Nat) (x : Prt) :
    (s.setPrt q x).resize = s.resize := rfl
@[simp] theorem State.setPrt_resizeQ (s : State) (q : Nat) (x : Prt) :
    (s.setPrt q x).resizeQ = s.resizeQ := rfl
@[simp] theorem State.setPrt_regions (s : State) (q : Nat) (x : Prt) :
    (s.setPrt q x).regions = s.regions := rfl
@[simp] theorem State.setPrt_circFree (s : State) (q : Nat) (x : Prt) :
    (s.setPrt q x).circFree = s.circFree := rfl
@[simp] theorem State.setPrt_trans (s : State) (q : Nat) (x : Prt) :
    (s.setPrt q x).trans = s.trans := rfl
@[simp] theorem State.setPrt_cfg (s : State) (q : Nat) (x : Prt) :
    (s.setPrt q x).cfg = s.cfg := rfl
@[simp] theorem State.setPrt_loads (s : State) (q : Nat) (x : Prt) :
    (s.setPrt q x).loads = s.loads := rfl
@[simp] theorem State.setPrt_hif (s : State) (q : Nat) (x : Prt) :
    (s.setPrt q x).hif = s.hif := rfl
@[simp] theorem State.setPrt_pwr (s : State) (q : Nat) (x : Prt) :
    (s.setPrt q x).pwr = s.pwr := rfl
@[simp] theorem State.setPrt_lnk (s : State) (q : Nat) (x : Prt) :
    (s.setPrt q x).lnk = s.lnk := rfl
@[simp] theorem State.setPrt_msgs (s : State) (q : Nat) (x : Prt) :
    (s.setPrt q x).msgs = s.msgs := rfl
@[simp] theorem State.setPrt_dbg (s : State) (q : Nat) (x : Prt) :
    (s.setPrt q x).dbg = s.dbg := rfl
@[simp] theorem State.setPrt_snap (s : State) (q : Nat) (x : Prt) :
    (s.setPrt q x).snap = s.snap := rfl

/-! ### setRegion changes `regions` only -/

@[simp] theorem State.setRegion_agenda (s : State) (q sl : Nat) (x : Region) :
    (s.setRegion q sl x).agenda = s.agenda := rfl
@[simp] theorem State.setRegion_cur (s : State) (q sl : Nat) (x : Region) :
    (s.setRegion q sl x).cur = s.cur := rfl
@[simp] theorem State.setRegion_due (s : State) (q sl : Nat) (x : Region) :
    (s.setRegion q sl x).due = s.due := rfl
@[simp] theorem State.setRegion_tid (s : State) (q sl : Nat) (x : Region) :
    (s.setRegion q sl x).tid = s.tid := rfl
@[simp] theorem State.setRegion_fresh (s : State) (q sl : Nat) (x : Region) :
    (s.setRegion q sl x).fresh = s.fresh := rfl
@[simp] theorem State.setRegion_idNext (s : State) (q sl : Nat) (x : Region) :
    (s.setRegion q sl x).idNext = s.idNext := rfl
@[simp] theorem State.setRegion_irqs (s : State) (q sl : Nat) (x : Region) :
    (s.setRegion q sl x).irqs = s.irqs := rfl
@[simp] theorem State.setRegion_outbox (s : State) (q sl : Nat) (x : Region) :
    (s.setRegion q sl x).outbox = s.outbox := rfl
@[simp] theorem State.setRegion_threads (s : State) (q sl : Nat) (x : Region) :
    (s.setRegion q sl x).threads = s.threads := rfl
@[simp] theorem State.setRegion_cores (s : State) (q sl : Nat) (x : Region) :
    (s.setRegion q sl x).cores = s.cores := rfl
@[simp] theorem State.setRegion_clusters (s : State) (q sl : Nat) (x : Region) :
    (s.setRegion q sl x).clusters = s.clusters := rfl
@[simp] theorem State.setRegion_acmds (s : State) (q sl : Nat) (x : Region) :
    (s.setRegion q sl x).acmds = s.acmds := rfl
@[simp] theorem State.setRegion_mem (s : State) (q sl : Nat) (x : Region) :
    (s.setRegion q sl x).mem = s.mem := rfl
@[simp] theorem State.setRegion_full (s : State) (q sl : Nat) (x : Region) :
    (s.setRegion q sl x).full = s.full := rfl
@[simp] theorem State.setRegion_zeroed (s : State) (q sl : Nat) (x : Region) :
    (s.setRegion q sl x).zeroed = s.zeroed := rfl
@[simp] theorem State.setRegion_poison (s : State) (q sl : Nat) (x : Region) :
    (s.setRegion q sl x).poison = s.poison := rfl
@[simp] theorem State.setRegion_copies (s : State) (q sl : Nat) (x : Region) :
    (s.setRegion q sl x).copies = s.copies := rfl
@[simp] theorem State.setRegion_l2 (s : State) (q sl : Nat) (x : Region) :
    (s.setRegion q sl x).l2 = s.l2 := rfl
@[simp] theorem State.setRegion_l2used (s : State) (q sl : Nat) (x : Region) :
    (s.setRegion q sl x).l2used = s.l2used := rfl
@[simp] theorem State.setRegion_waiters (s : State) (q sl : Nat) (x : Region) :
    (s.setRegion q sl x).waiters = s.waiters := rfl
@[simp] theorem State.setRegion_prts (s : State) (q sl : Nat) (x : Region) :
    (s.setRegion q sl x).prts = s.prts := rfl
@[simp] theorem State.setRegion_blkOwn (s : State) (q sl : Nat) (x : Region) :
    (s.setRegion q sl x).blkOwn = s.blkOwn := rfl
@[simp] theorem State.setRegion_cluOwn (s : State) (q sl : Nat) (x : Region) :
    (s.setRegion q sl x).cluOwn = s.cluOwn := rfl
@[simp] theorem State.setRegion_hbmOwn (s : State) (q sl : Nat) (x : Region) :
    (s.setRegion q sl x).hbmOwn = s.hbmOwn := rfl
@[simp] theorem State.setRegion_resize (s : State) (q sl : Nat) (x : Region) :
    (s.setRegion q sl x).resize = s.resize := rfl
@[simp] theorem State.setRegion_resizeQ (s : State) (q sl : Nat) (x : Region) :
    (s.setRegion q sl x).resizeQ = s.resizeQ := rfl
@[simp] theorem State.setRegion_circFree (s : State) (q sl : Nat) (x : Region) :
    (s.setRegion q sl x).circFree = s.circFree := rfl
@[simp] theorem State.setRegion_trans (s : State) (q sl : Nat) (x : Region) :
    (s.setRegion q sl x).trans = s.trans := rfl
@[simp] theorem State.setRegion_cfg (s : State) (q sl : Nat) (x : Region) :
    (s.setRegion q sl x).cfg = s.cfg := rfl
@[simp] theorem State.setRegion_loads (s : State) (q sl : Nat) (x : Region) :
    (s.setRegion q sl x).loads = s.loads := rfl
@[simp] theorem State.setRegion_hif (s : State) (q sl : Nat) (x : Region) :
    (s.setRegion q sl x).hif = s.hif := rfl
@[simp] theorem State.setRegion_pwr (s : State) (q sl : Nat) (x : Region) :
    (s.setRegion q sl x).pwr = s.pwr := rfl
@[simp] theorem State.setRegion_lnk (s : State) (q sl : Nat) (x : Region) :
    (s.setRegion q sl x).lnk = s.lnk := rfl
@[simp] theorem State.setRegion_msgs (s : State) (q sl : Nat) (x : Region) :
    (s.setRegion q sl x).msgs = s.msgs := rfl
@[simp] theorem State.setRegion_dbg (s : State) (q sl : Nat) (x : Region) :
    (s.setRegion q sl x).dbg = s.dbg := rfl
@[simp] theorem State.setRegion_snap (s : State) (q sl : Nat) (x : Region) :
    (s.setRegion q sl x).snap = s.snap := rfl

/-! ### post changes `agenda` only -/

@[simp] theorem State.post_cur (s : State) (e : Instr) :
    (s.post e).cur = s.cur := rfl
@[simp] theorem State.post_due (s : State) (e : Instr) :
    (s.post e).due = s.due := rfl
@[simp] theorem State.post_tid (s : State) (e : Instr) :
    (s.post e).tid = s.tid := rfl
@[simp] theorem State.post_fresh (s : State) (e : Instr) :
    (s.post e).fresh = s.fresh := rfl
@[simp] theorem State.post_idNext (s : State) (e : Instr) :
    (s.post e).idNext = s.idNext := rfl
@[simp] theorem State.post_irqs (s : State) (e : Instr) :
    (s.post e).irqs = s.irqs := rfl
@[simp] theorem State.post_outbox (s : State) (e : Instr) :
    (s.post e).outbox = s.outbox := rfl
@[simp] theorem State.post_threads (s : State) (e : Instr) :
    (s.post e).threads = s.threads := rfl
@[simp] theorem State.post_cores (s : State) (e : Instr) :
    (s.post e).cores = s.cores := rfl
@[simp] theorem State.post_clusters (s : State) (e : Instr) :
    (s.post e).clusters = s.clusters := rfl
@[simp] theorem State.post_acmds (s : State) (e : Instr) :
    (s.post e).acmds = s.acmds := rfl
@[simp] theorem State.post_mem (s : State) (e : Instr) :
    (s.post e).mem = s.mem := rfl
@[simp] theorem State.post_full (s : State) (e : Instr) :
    (s.post e).full = s.full := rfl
@[simp] theorem State.post_zeroed (s : State) (e : Instr) :
    (s.post e).zeroed = s.zeroed := rfl
@[simp] theorem State.post_poison (s : State) (e : Instr) :
    (s.post e).poison = s.poison := rfl
@[simp] theorem State.post_copies (s : State) (e : Instr) :
    (s.post e).copies = s.copies := rfl
@[simp] theorem State.post_l2 (s : State) (e : Instr) :
    (s.post e).l2 = s.l2 := rfl
@[simp] theorem State.post_l2used (s : State) (e : Instr) :
    (s.post e).l2used = s.l2used := rfl
@[simp] theorem State.post_waiters (s : State) (e : Instr) :
    (s.post e).waiters = s.waiters := rfl
@[simp] theorem State.post_prts (s : State) (e : Instr) :
    (s.post e).prts = s.prts := rfl
@[simp] theorem State.post_blkOwn (s : State) (e : Instr) :
    (s.post e).blkOwn = s.blkOwn := rfl
@[simp] theorem State.post_cluOwn (s : State) (e : Instr) :
    (s.post e).cluOwn = s.cluOwn := rfl
@[simp] theorem State.post_hbmOwn (s : State) (e : Instr) :
    (s.post e).hbmOwn = s.hbmOwn := rfl
@[simp] theorem State.post_resize (s : State) (e : Instr) :
    (s.post e).resize = s.resize := rfl
@[simp] theorem State.post_resizeQ (s : State) (e : Instr) :
    (s.post e).resizeQ = s.resizeQ := rfl
@[simp] theorem State.post_regions (s : State) (e : Instr) :
    (s.post e).regions = s.regions := rfl
@[simp] theorem State.post_circFree (s : State) (e : Instr) :
    (s.post e).circFree = s.circFree := rfl
@[simp] theorem State.post_trans (s : State) (e : Instr) :
    (s.post e).trans = s.trans := rfl
@[simp] theorem State.post_cfg (s : State) (e : Instr) :
    (s.post e).cfg = s.cfg := rfl
@[simp] theorem State.post_loads (s : State) (e : Instr) :
    (s.post e).loads = s.loads := rfl
@[simp] theorem State.post_hif (s : State) (e : Instr) :
    (s.post e).hif = s.hif := rfl
@[simp] theorem State.post_pwr (s : State) (e : Instr) :
    (s.post e).pwr = s.pwr := rfl
@[simp] theorem State.post_lnk (s : State) (e : Instr) :
    (s.post e).lnk = s.lnk := rfl
@[simp] theorem State.post_msgs (s : State) (e : Instr) :
    (s.post e).msgs = s.msgs := rfl
@[simp] theorem State.post_dbg (s : State) (e : Instr) :
    (s.post e).dbg = s.dbg := rfl
@[simp] theorem State.post_snap (s : State) (e : Instr) :
    (s.post e).snap = s.snap := rfl
end Sys2Proof.Machine
end

