-- ==== Sys2Proof/Laws/Thread.lean ====
section
/-!
SUPPORT. What the shared operations of thread instructions do: writing a register and going on, moving
the pc, taking a trap. One lemma an operation; later proofs cite them and never unfold the operation.
-/

namespace Sys2Proof.Machine

open Sys2Proof

/-! ## Registers -/

/-- The register that a g field reads after the same or another field has been written (R198, R201). -/
theorem Thread.readG_writeG (t : Thread) (d n : GReg) (x : W64) :
    (t.writeG d x).readG n = if n = d ∧ n ≠ 0 then x else t.readG n := by
  unfold Thread.writeG
  by_cases hd : d = 0
  · subst hd
    simp only [if_true]
    rw [if_neg (by rintro ⟨h, h'⟩; exact h' h)]
  · rw [if_neg hd]
    unfold Thread.readG
    have key : ∀ a b : GReg, a.toNat = b.toNat ↔ a = b := fun a b => BitVec.toNat_inj
    by_cases hn : n = 0
    · simp [hn]
    · simp only [hn, ne_eq, not_false_eq_true, and_true]
      by_cases hu : (t.uiin && decide (56 ≤ d.toNat)) = true
      · rw [if_pos hu]
        simp only [Bool.and_eq_true, decide_eq_true_eq] at hu
        by_cases hnd : n = d
        · subst hnd; simp [hu.1, hu.2]
        · by_cases h56 : 56 ≤ n.toNat
          · have : n.toNat - 56 ≠ d.toNat - 56 := fun h => hnd ((key n d).1 (by omega))
            simp [hnd, hu.1, h56, Tbl.look_put, this]
          · simp [hnd, hu.1, h56]
      · rw [if_neg hu]
        simp only [Bool.and_eq_true, decide_eq_true_eq] at hu
        by_cases hnd : n = d
        · subst hnd; simp [hu]
        · have : n.toNat ≠ d.toNat := fun h => hnd ((key n d).1 h)
          simp [hnd, Tbl.look_put, this]

/-- A write through a g field changes one of the two banks only. -/
theorem Thread.writeG_eq (t : Thread) (d : GReg) (x : W64) :
    t.writeG d x = { t with g := (t.writeG d x).g, h := (t.writeG d x).h } := by
  unfold Thread.writeG
  split
  · rfl
  · split <;> rfl

theorem Thread.writeG_hidden (t : Thread) (d : GReg) (x : W64) :
    if t.uiin then ∀ n, 56 ≤ n → (t.writeG d x).g.look 0 n = t.g.look 0 n
    else (t.writeG d x).h = t.h := by
  unfold Thread.writeG
  by_cases hu : t.uiin = true
  · rw [if_pos hu]
    intro n hn
    split
    · rfl
    · split
      · rfl
      · rename_i h
        simp only [hu, Bool.true_and, decide_eq_true_eq] at h
        exact Tbl.look_put_ne _ _ _ (by omega)
  · rw [if_neg hu]
    simp only [Bool.not_eq_true] at hu
    simp only [hu, Bool.false_and, Bool.false_eq_true, if_false]
    split <;> rfl

theorem Thread.readV_writeV (t : Thread) (d n : Nat) (x : V256) :
    (t.writeV d x).readV n = if n = d then x else t.readV n := Tbl.look_put _ _ _ _ _

/-- Bit `n` of a predicate register after bit `d` has been written. -/
theorem bitAt_set (p : BitVec 8) (d n : Nat) (b : Bool) (hd : d < 8) (hn : n < 8) :
    bitAt (if b then p ||| BitVec.ofNat 8 (2 ^ d) else p &&& ~~~(BitVec.ofNat 8 (2 ^ d))) n =
      if n = d then b else bitAt p n := by
  have h : ∀ (q : BitVec 8), bitAt q n = q.getLsbD n := by
    intro q
    simp [bitAt, BitVec.getLsbD, Nat.testBit, Nat.shiftRight_eq_div_pow]
  have h2 : (BitVec.ofNat 8 (2 ^ d)).getLsbD n = decide (n = d) := by
    rw [BitVec.getLsbD_ofNat, Nat.testBit_two_pow]
    simp [hn, eq_comm]
  cases b
  · simp only [Bool.false_eq_true, if_false, h, BitVec.getLsbD_and, BitVec.getLsbD_not, h2]
    by_cases e : n = d <;> simp [e, hd, hn]
  · simp only [if_true, h, BitVec.getLsbD_or, h2]
    by_cases e : n = d <;> simp [e]

theorem Thread.readP_writeP (t : Thread) (d n : PReg) (b : Bool) :
    (t.writeP d b).readP n = if n = d ∧ n ≠ 0 then b else t.readP n := by
  unfold Thread.writeP
  by_cases hd : d = 0
  · subst hd
    simp only [if_true]
    rw [if_neg (by rintro ⟨h, h'⟩; exact h' h)]
  · rw [if_neg hd]
    unfold Thread.readP
    by_cases hn : n = 0
    · simp [hn]
    · simp only [hn, if_false, ne_eq, not_false_eq_true, and_true]
      rw [bitAt_set t.p d.toNat n.toNat b (by omega) (by omega)]
      simp [BitVec.toNat_inj]

/-! ## The running thread alone -/

theorem OnlyThread.refl (s : State) : OnlyThread s s := ⟨rfl, fun _ _ => rfl⟩

theorem OnlyThread.tid {s t : State} (h : OnlyThread s t) : t.tid = s.tid := by
  have := congrArg State.tid h.1; exact this

theorem OnlyThread.mem {s t : State} (h : OnlyThread s t) : t.mem = s.mem := by
  have := congrArg State.mem h.1; exact this

theorem OnlyThread.trans {s t u : State} (h : OnlyThread s t) (k : OnlyThread t u) :
    OnlyThread s u := by
  refine ⟨?_, fun x hx => ?_⟩
  · have e := congrArg (fun z : State => { z with threads := s.threads }) k.1
    exact (show { u with threads := s.threads } = { t with threads := s.threads } from e).trans h.1
  · rw [k.2 x (by rw [h.tid]; exact hx), h.2 x hx]

theorem onlyThread_setThr (s : State) (x : Thread) : OnlyThread s (s.setThr x) :=
  ⟨rfl, fun u hu => State.thread_setThr_ne s u x hu⟩

theorem moved_goto (s : State) (a : W64) : Moved s (s.goto a) a :=
  ⟨onlyThread_setThr s _, State.thr_setThr s _⟩

theorem moved_adv (s : State) : Moved s s.adv (s.thr.pc + 4) := moved_goto s _

/-- Writing a g register, OR-ing flags and going on (R313, R346). -/
theorem finF_wrote (s : State) (d : GReg) (x : W64) (f : BitVec 5) :
    Wrote s ((s.orFlags f).fin d x) d x f := by
  have h1 : OnlyThread s ((s.orFlags f).fin d x) :=
    ((onlyThread_setThr s _).trans (onlyThread_setThr _ _)).trans (onlyThread_setThr _ _)
  have h2 : ((s.orFlags f).fin d x).thr =
      { ({ s.thr with fflags := s.thr.fflags ||| f } : Thread).writeG d x with
        pc := s.thr.pc + 4, st := .ready, poll := false, atHome := false } := by
    simp only [State.fin, State.adv, State.goto, State.setG, State.orFlags, State.thr_setThr]
    rw [Thread.writeG_eq]
  refine ⟨h1, ?_, fun n => ?_, ?_⟩
  · rw [h2, Thread.writeG_eq]; rfl
  · show ((s.orFlags f).fin d x).thr.readG n = _
    rw [h2]
    exact Thread.readG_writeG _ d n x
  · rw [h2]
    exact Thread.writeG_hidden ({ s.thr with fflags := s.thr.fflags ||| f } : Thread) d x

theorem fin_wrote (s : State) (d : GReg) (x : W64) : Wrote s (s.fin d x) d x := by
  have h1 : OnlyThread s (s.fin d x) := (onlyThread_setThr s _).trans (onlyThread_setThr _ _)
  have h2 : (s.fin d x).thr = { s.thr.writeG d x with
      pc := s.thr.pc + 4, st := .ready, poll := false, atHome := false } := by
    simp only [State.fin, State.adv, State.goto, State.setG, State.thr_setThr]
    rw [Thread.writeG_eq]
  refine ⟨h1, ?_, fun n => ?_, ?_⟩
  · rw [h2, Thread.writeG_eq]; simp [Thread.doneAt]
  · show (s.fin d x).thr.readG n = _
    rw [h2]
    exact Thread.readG_writeG _ d n x
  · rw [h2]
    exact Thread.writeG_hidden _ d x

theorem setP_wroteP (s : State) (p : PReg) (b : Bool) (f : BitVec 5) :
    WroteP s (((s.orFlags f).setP p b).adv) p b f := by
  have e : ∀ t : Thread, t.writeP p b = { t with p := (t.writeP p b).p } := by
    intro t; unfold Thread.writeP; split <;> rfl
  have h2 : (((s.orFlags f).setP p b).adv).thr =
      { ({ s.thr with fflags := s.thr.fflags ||| f } : Thread).writeP p b with
        pc := s.thr.pc + 4, st := .ready, poll := false, atHome := false } := by
    simp only [State.adv, State.goto, State.setP, State.orFlags, State.thr_setThr]
    rw [e]
  refine ⟨((onlyThread_setThr s _).trans (onlyThread_setThr _ _)).trans (onlyThread_setThr _ _), ?_,
    fun n => ?_⟩
  · rw [h2, e]; rfl
  · show (((s.orFlags f).setP p b).adv).thr.readP n = _
    rw [h2]
    exact Thread.readP_writeP _ p n b

theorem setP_wroteP0 (s : State) (p : PReg) (b : Bool) : WroteP s ((s.setP p b).adv) p b := by
  have e : ∀ t : Thread, t.writeP p b = { t with p := (t.writeP p b).p } := by
    intro t; unfold Thread.writeP; split <;> rfl
  have h2 : ((s.setP p b).adv).thr = { s.thr.writeP p b with
      pc := s.thr.pc + 4, st := .ready, poll := false, atHome := false } := by
    simp only [State.adv, State.goto, State.setP, State.thr_setThr]
    rw [e]
  refine ⟨(onlyThread_setThr s _).trans (onlyThread_setThr _ _), ?_, fun n => ?_⟩
  · rw [h2, e]; simp [Thread.doneAt]
  · show ((s.setP p b).adv).thr.readP n = _
    rw [h2]
    exact Thread.readP_writeP _ p n b

theorem finV_wroteV (s : State) (d : VReg) (x : Nat) (f : BitVec 5) :
    WroteV s (s.finV d x f) d (BitVec.ofNat 256 x) f := by
  refine ⟨((onlyThread_setThr s _).trans (onlyThread_setThr _ _)).trans (onlyThread_setThr _ _), ?_,
    fun n => ?_⟩
  · simp only [State.finV, State.adv, State.goto, State.setV, State.orFlags, State.thr_setThr,
      Thread.writeV, Thread.doneAt]
  · show (s.finV d x f).thr.readV n.toNat = _
    have : (s.finV d x f).thr.readV n.toNat = if n.toNat = d.toNat then BitVec.ofNat 256 x
        else s.thr.readV n.toNat := by
      simp only [State.finV, State.adv, State.goto, State.setV, State.orFlags, State.thr_setThr,
        Thread.writeV, Thread.readV, Tbl.look_put]
    rw [this]; simp only [BitVec.toNat_inj]; rfl

theorem setV_wroteV (s : State) (d : VReg) (x : V256) : WroteV s ((s.setV d x).adv) d x := by
  refine ⟨(onlyThread_setThr s _).trans (onlyThread_setThr _ _), ?_, fun n => ?_⟩
  · simp [State.adv, State.goto, State.setV, Thread.writeV, Thread.doneAt]
  · show ((s.setV d x).adv).thr.readV n.toNat = _
    have : ((s.setV d x).adv).thr.readV n.toNat = if n.toNat = d.toNat then x
        else s.thr.readV n.toNat := by
      simp only [State.adv, State.goto, State.setV, State.thr_setThr, Thread.writeV, Thread.readV,
        Tbl.look_put]
    rw [this]; simp only [BitVec.toNat_inj]; rfl

theorem waitIn_waits (s : State) (st : SlotSt) : Waits s (s.waitIn st true) st :=
  ⟨onlyThread_setThr s _, State.thr_setThr s _⟩

end Sys2Proof.Machine
end

