-- ==== Sys2Proof/Tests/Slice0.lean ====
section
/-!
SUPPORT. Tests: an ill-formed term for each check of WellFormed; a word of each family, written out field by
field from the encodings of R293 to R298; steps whose results come from the rules' own arithmetic; and, for
each statement with hypotheses, states and operands that meet them, clause by clause.
-/

namespace Sys2Proof.Tests

open Sys2Proof Sys2Proof.Machine

set_option maxRecDepth 30000

/-! ## Helpers -/

/-- Thread 0 of core 0 about to run a word in partition 0. -/
def base (w : Nat) : State := State.reset.withFetchWord 32 w

/-- Thread 0's record changed. -/
def thd (f : Thread → Thread) : State :=
  let s := base 0
  s.setThread 0 (f (s.thread 0))

/-- Thread 0 with general registers. -/
def regs (g : Tbl W64) : State := thd (fun t => { t with g := g })

/-- Partition 0 changed. -/
def prt0 (s : State) (f : Prt → Prt) : State := s.setPrt 0 (f (s.prt 0))

/-- A trap handler at 0x2000. -/
def vec (s : State) : State := prt0 s (fun p => { p with tvec0 := 0x2000 })

def nextIs (o : Host.Outcome State Fault Refusal) (f : State → Bool) : Bool :=
  match o with
  | .next t => f t
  | _ => false

/-- The fields of a 32-bit word, widest format first (R293). -/
def word (m : BitVec 6) (d a : BitVec 6) (low : BitVec 14) : W32 := m ++ d ++ a ++ low

/-! ## WellFormed -/

theorem test_wellFormed_refuses_each_ill_formed_operand :
    ([.ext 1 1 63 1, .ins 1 1 31 33, .ld 1 1 0 .d true false, .pref 1 2, .fcvt .f32 1 1 .i8 .rne,
      .fcvt .f32 1 1 .f32 .rne, .icvt .f32 1 1 .f16 .rne, .fcvti .f32 1 1 .f16 .rne, .fsgn .f32 1 1 1 3,
      .vadd 1 1 1 .f32 .rne 1, .vsub 1 1 1 .i8 .rtz 0, .vmul 1 1 1 .i8 .rne 3, .vfma 1 1 1 .i8 .rne 2,
      .vmin 1 1 1 .f32 1, .vmax 1 1 1 .i8 2, .vdot 1 1 1 .f64 .rne 0, .vdot 1 1 1 .i8 .rtz 0,
      .vcvt 1 1 .f32 .f32 .rne false, .vcvt 1 1 .b4 .f32 .rne false, .vscale 1 1 1 .i8 .rne false,
      .vbcast 1 1 8 .f32, .vcmp 1 1 1 .i8 3, .vred 1 1 .f32 .rne 3, .vred 1 1 .f32 .rtz 1,
      .vshift 1 1 1 .f32 0, .vshift 1 1 1 .i8 3, .ereply 1 1 0 0, .ereply 1 0 1 1, .ereply 1 1 1 3,
      .mfs 1 0x0FF, .mts 1 0x0FF, .mts 1 0x10] : List Instr).all (fun i => !WellFormed i) = true := by
  decide

theorem test_wellFormed_refuses_each_ill_formed_event :
    ([.pwrIslCtlWrite 40 0, .islandTransitionDone 40, .thermalThrottle 40 100, .limiterStep 40 90,
      .thermalShutdown 40, .circuitTransfer 64 0 0, .circuitTransfer 0 4096 0, .circuitTransfer 0 0 64,
      .linkEnable 16 1, .linkTrainDone 0 2 1, .remoteMemoryRequest 256 1 (.read 0 0 8 0),
      .lnkPrtRtWrite 0 4 0 0, .lnkDomainWrite 64 0, .vfBindWrite 256 0, .doorbell 0 2 0,
      .hostBar2Access 2 false 0 1 [], .hostBar2Access 0 false 0xFFFFFFFF 2 [], .spdmRequest 0 (.measurement 256),
      .ideKm 0 5 0, .dbgEvtWrite 8 0, .regionMove 4096, .coreMove 2048, .phaseStart 0 16,
      .launchRecordRead 0 256, .launchPromote 0 4096, .gangDeadline 0 64, .windowPublish 0 0 8] :
      List Instr).all (fun i => !WellFormed i) = true := by
  decide

theorem test_wellFormed_refuses_each_ill_formed_unit :
    ([.elementFire 94208, .tokenHop 0 4, .generatorLoadEmit 0 5, .transGrant 736, .configLoadComplete 512,
      .fabricFault 0 0, .fabricFault 0 12, .memoryReply 32768 0, .memoryReply 0 8, .kStepGrant 256,
      .poolpwWrite 2048 0 0, .poolpwWrite 0 2 0, .mtpwWrite 0 2 0, .rqdescWrite 0 0 16 0, .migStart 0 4 0,
      .registerWrite 258 0 0] : List Instr).all (fun i => !WellFormed i) = true := by
  decide

/-! ## Words written out from the encodings -/

theorem test_decode_integer : decode ((1 : BitVec 6) ++ (3 : BitVec 6) ++ (4 : BitVec 6) ++ (5 : BitVec 6) ++
    (0x01 : BitVec 8)) = .ok (.sub 3 4 5) := by decide
theorem test_decode_immediate : decode (word 2 5 0 8) = .ok (.addi 5 0 8) := by decide
theorem test_decode_lih : decode ((10 : BitVec 6) ++ (9 : BitVec 6) ++ (1 : BitVec 2) ++ (0 : BitVec 4) ++
    (0x2345 : BitVec 14)) = .ok (.lih 9 1 0x2345) := by decide
theorem test_decode_compare : decode ((9 : BitVec 6) ++ (2 : BitVec 3) ++ (1 : BitVec 3) ++ (5 : BitVec 6) ++
    (0 : BitVec 14)) = .ok (.cmpi 2 .ne 5 0) := by decide
theorem test_decode_load : decode ((16 : BitVec 6) ++ (7 : BitVec 6) ++ (2 : BitVec 6) ++ (0 : BitVec 10) ++
    (3 : BitVec 2) ++ (0 : BitVec 1) ++ (0 : BitVec 1)) = .ok (.ld 7 2 0 .d false false) := by decide
theorem test_decode_atomic : decode ((23 : BitVec 6) ++ (1 : BitVec 6) ++ (6 : BitVec 6) ++ (7 : BitVec 6) ++
    (0 : BitVec 1) ++ (1 : BitVec 1) ++ (1 : BitVec 1) ++ (1 : BitVec 2) ++ (0 : BitVec 3)) =
    .ok (.cas 1 6 7 false true true) := by decide
theorem test_decode_branch : decode ((24 : BitVec 6) ++ (2 : BitVec 3) ++ (1 : BitVec 1) ++
    (0x3FFFFB : BitVec 22)) = .ok (.br 2 true 0x3FFFFB) := by decide
theorem test_decode_control : decode (word 27 0 0 1) = .ok .exit := by decide
theorem test_decode_sync : decode ((30 : BitVec 6) ++ (2 : BitVec 6) ++ (3 : BitVec 6) ++ (5 : BitVec 6) ++
    (2 : BitVec 8)) = .ok (.cntwait 2 3 5) := by decide
theorem test_decode_float : decode ((32 : BitVec 6) ++ (4 : BitVec 6) ++ (2 : BitVec 6) ++ (0 : BitVec 6) ++
    (6 : BitVec 4) ++ (0 : BitVec 4)) = .ok (.frcp .f32 4 2) := by decide
theorem test_decode_packed : decode ((35 : BitVec 6) ++ (0 : BitVec 5) ++ (1 : BitVec 5) ++ (2 : BitVec 5) ++
    (3 : BitVec 3) ++ (6 : BitVec 4) ++ (0 : BitVec 4)) = .ok (.vdot 0 1 2 .bf16 .rne 0) := by decide
theorem test_decode_move : decode 0x90318001 = .ok (.vmovg 3 3 0 .f32) := by decide
theorem test_decode_matrix_async_fabric_sched_system :
    decode ((37 : BitVec 6) ++ (0 : BitVec 12) ++ (4 : BitVec 6) ++ (3 : BitVec 8)) = .ok (.mxgo 4) ∧
    decode ((38 : BitVec 6) ++ (1 : BitVec 6) ++ (0 : BitVec 6) ++ (3 : BitVec 6) ++ (1 : BitVec 1) ++
      (0 : BitVec 7)) = .ok (.acopy 1 3 true) ∧
    decode ((39 : BitVec 6) ++ (7 : BitVec 6) ++ (0 : BitVec 12) ++ (9 : BitVec 8)) = .ok (.ereply 7 0 0 1) ∧
    decode ((40 : BitVec 6) ++ (1 : BitVec 6) ++ (0 : BitVec 6) ++ (3 : BitVec 6) ++ (1 : BitVec 8)) =
      .ok (.spawn 1 3) ∧
    decode ((63 : BitVec 6) ++ (0 : BitVec 12) ++ (2 : BitVec 2) ++ (1 : BitVec 12)) = .ok .tret := by decide
theorem test_decode_predicate_and_memory_control :
    decode ((15 : BitVec 6) ++ (1 : BitVec 3) ++ (0 : BitVec 3) ++ (2 : BitVec 6) ++ (3 : BitVec 6) ++
      (2 : BitVec 8)) = .ok (.cmp 1 .lt 2 3) ∧
    decode ((22 : BitVec 6) ++ (2 : BitVec 6) ++ (3 : BitVec 6) ++ (0 : BitVec 14)) = .ok (.ste 2 3) := by decide
/-- Major 0 is unassigned, and a nonzero fixed field is no instruction (R299). -/
theorem test_decode_refuses : decode 0 = .error .unassignedMajor ∧
    decode (word 6 1 1 0x40) = .error .fixedField := by decide

/-! ## Steps -/

/-- The next step fetches, decodes and runs the placed word (R190, R318): ADDI g5 = g0 + 8. -/
theorem test_step_runs_the_placed_word :
    nextIs (step (base 0x08500008)) (fun t => (t.thread 0).readG 5 == 8 && (t.thread 0).pc == 0x1004) = true := by
  decide
/-- R315: 2^64 − 1 plus 2 wraps to 1; ADDS saturates 2^63 − 1 plus 1. -/
theorem test_add_wraps : nextIs (exec (.add 3 1 2) (regs [(1, 0xFFFFFFFFFFFFFFFF), (2, 2)]))
    (fun t => t.g 3 == 1) = true := by decide
theorem test_adds_saturates : nextIs (exec (.adds 1 1 2) (regs [(1, 0x7FFFFFFFFFFFFFFF), (2, 1)]))
    (fun t => t.g 1 == 0x7FFFFFFFFFFFFFFF) = true := by decide
/-- R316: division by zero, and the most negative number by −1. -/
theorem test_div_corners : nextIs (exec (.div 3 1 2) (regs [(1, 7)])) (fun t => t.g 3 == 0xFFFFFFFFFFFFFFFF) &&
    nextIs (exec (.rem 3 1 2) (regs [(1, 0x8000000000000000), (2, 0xFFFFFFFFFFFFFFFF)])) (fun t => t.g 3 == 0) =
      true := by decide
/-- R326: offset −5 words from pc 0x1000; p0 reads 1. -/
theorem test_branch_backwards : nextIs (exec (.br 0 true 0x3FFFFB) (base 0)) (fun t => t.thr.pc == 0xFEC) = true := by
  decide
/-- R332, R4: a store of 0x1234 puts 0x34 at the lower address; the load reads it back. -/
theorem test_store_then_load : nextIs (exec (.st 2 1 0 .h false) (regs [(1, 0x1100), (2, 0x1234)])) (fun s =>
    s.byteAt (hbmHome [0] 0x1100) == 0x34 &&
      nextIs (exec (.ld 3 1 0 .h false false) s) (fun t => t.g 3 == 0x1234)) = true := by decide
/-- R317: writes of g0 are discarded. -/
theorem test_g0_reads_zero : nextIs (exec (.addi 0 0 5) (base 0)) (fun t => t.g 0 == 0) = true := by decide
/-- R283: 1 + 2^-24 ties to even in FP32. -/
theorem test_fadd_ties_to_even : FP.add .f32 .rne 0x3F800000 0x33800000 = (0x3F800000, 1) := by decide
/-- R256, R412: SVC saves the next pc and enters the handler. -/
theorem test_svc_enters_the_handler : nextIs (exec (.svc 7) (vec (base 0))) (fun t =>
    t.thr.tepc == 0x1004 && t.thr.tval == 7 && t.thr.sup && t.thr.pc == 0x2000) = true := by decide

/-! ## States and operands that meet the hypotheses of each statement, clause by clause -/

theorem witness_DivideResults :
    (regs [(1, 7)]).g 2 = 0 ∧
    ((regs [(1, 0x8000000000000000), (2, 0xFFFFFFFFFFFFFFFF)]).g 1).toInt = -2 ^ 63 ∧
    ((regs [(1, 0x8000000000000000), (2, 0xFFFFFFFFFFFFFFFF)]).g 2).toInt = -1 ∧
    (regs [(1, 7), (2, 1)]).g 2 ≠ 0 ∧ ((regs [(1, 7), (2, 1)]).g 2).toInt ≠ -1 := by decide

theorem witness_ImmediateResults :
    WellFormed (.ext 1 1 63 0) = true ∧ WellFormed (.ins 1 1 31 32) = true := by decide

theorem witness_AddressAndPredicateResults :
    (1 : GReg) ≠ 0 ∧ sitePkg (((regs [(1, 0x01000000)]).g 1).setWidth 32) ≠ (base 0).pkg ∧
    (∀ e ∈ ((base 0).prt (base 0).thr.prt).reloc, e.2.covers 0 = false) := by decide

theorem witness_ControlResults :
    (base 0).p 0 = true ∧ (base 0).p 1 ≠ true ∧ ((base 0).prt 0).dbgctl.getLsbD 0 = false ∧
    ((prt0 (base 0) (fun p => { p with dbgctl := 1 })).prt 0).dbgctl.getLsbD 0 = true ∧
    (prt0 (base 0) (fun p => { p with dbgctl := 1 })).dbg.toc = .running := by decide

theorem witness_TrapInstructions : Vectored (vec (base 0)) := by unfold Vectored; decide

theorem witness_IllegalTraps : Vectored (vec (base 0)) ∧ (vec (base 0)).thr.uiin = false ∧
    (thd (fun t => { t with intrap := true })).thr.intrap = true ∧
    (thd (fun t => { t with intrap := true })).thr.sup = false := by unfold Vectored; decide

theorem witness_Returns :
    (thd (fun t => { t with sup := true, intrap := true })).thr.sup = true ∧
    (thd (fun t => { t with sup := true, intrap := true })).thr.intrap = true ∧
    (thd (fun t => { t with uiin := true })).thr.uiin = true := by decide

theorem witness_ThreadEnds : (thd (fun t => { t with intrap := true })).thr.intrap = true := by decide

/-- The home part of `n` bytes of the test page. -/
def part (va n : Nat) : Part := ⟨hbmHome [0] va, n, false, 0, false, 0, va⟩

/-- g1 holds an address of the test page. -/
def memS : State := regs [(1, 0x1100), (2, 5)]

/-- `memS` with its page cached, and a copy of the word in the thread's L1 that is as the home is. -/
def cachS : State :=
  let k := memS.core 0
  { memS.setCore 0 { k with tlb := k.tlb.map (fun e => { e with attr := e.attr ||| 0x80 }) } with
    copies := [⟨0, hbmHome [0] 0x1100, 0, false, true, 0, 0, 0, false⟩] }

theorem witness_LoadResults_cached :
    let p : Part := { part 0x1100 8 with cached := true }
    Plain cachS ∧ Reaches cachS .load (cachS.ea 1 0 (sizeBytes .d)) (sizeBytes .d) [p] ∧ p.cached = true ∧
      Current cachS p :=
  ⟨⟨by decide, by decide⟩, ⟨by decide, by decide, by decide, by decide⟩, rfl, by unfold Current; decide⟩

theorem witness_LoadResults : Plain memS ∧ (∀ p ∈ [part 0x1100 8], p.cached = false) ∧
    Reaches memS .load (memS.ea 1 0 (sizeBytes .d)) (sizeBytes .d) [part 0x1100 8] ∧
    Reaches memS .load (memS.ea 1 0 32) 32 [part 0x1100 32] :=
  ⟨⟨by decide, by decide⟩, by decide, ⟨by decide, by decide, by decide, by decide⟩, ⟨by decide, by decide, by decide, by decide⟩⟩

theorem witness_StoreResults : Plain memS ∧ memS.waiters = [] ∧ (homeBytes [part 0x1100 32]).Nodup ∧
    Reaches memS .store (memS.ea 1 0 (sizeBytes .b)) (sizeBytes .b) [part 0x1100 1] ∧
    Reaches memS .store (memS.ea 1 0 32) 32 [part 0x1100 32] :=
  ⟨⟨by decide, by decide⟩, by decide, by decide, ⟨by decide, by decide, by decide, by decide⟩,
    ⟨by decide, by decide, by decide, by decide⟩⟩

/-- g1 holds the local-window address of scratchpad byte 8, whose word has a full bit. -/
def locS : State := regs [(1, 0xFFFFFFFFFFF00008), (2, 5)]
def locPart : Part := ⟨poolBase 0 + (locS.pw 0 0).scr + 8, 8, false, 0, false, 0, poolBase 0 + (locS.pw 0 0).scr + 8⟩
def locFull : State := locS.setFull locPart.pa true

theorem witness_FullEmptyResults : AtWord locS feKind (locS.g 1).toNat 8 locPart ∧
    (AtWord locFull feKind (locFull.ea 1 0 8) 8 locPart ∧ locFull.fullAt locPart.pa = true) ∧
    (AtWord locS feKind (locS.ea 1 0 8) 8 locPart ∧ locS.fullAt locPart.pa = false) :=
  ⟨⟨by decide, ⟨by decide, by decide, by decide, by decide⟩, by decide, ⟨by decide, by decide⟩, by decide, by decide⟩,
   ⟨⟨by decide, ⟨by decide, by decide, by decide, by decide⟩, by decide, ⟨by decide, by decide⟩, by decide, by decide⟩, by decide⟩,
   ⟨⟨by decide, ⟨by decide, by decide, by decide, by decide⟩, by decide, ⟨by decide, by decide⟩, by decide, by decide⟩, by decide⟩⟩

/-- The LDF of a sound word. -/
theorem witness_FullEmptyResults_sound : locFull.poisoned locPart.pa 8 = false := by decide

theorem witness_FullEmptyWaits :
    (AtWord locS feKind (locS.ea 1 0 8) 8 locPart ∧ locS.fullAt locPart.pa = false) ∧
    (AtWord locFull feKind (locFull.ea 1 0 8) 8 locPart ∧ locFull.fullAt locPart.pa = true) ∧
    (AtWord locS feKind (locS.g 1).toNat 8 locPart ∧ locS.fullAt locPart.pa = false) :=
  ⟨⟨⟨by decide, ⟨by decide, by decide, by decide, by decide⟩, by decide, ⟨by decide, by decide⟩, by decide, by decide⟩, by decide⟩,
   ⟨⟨by decide, ⟨by decide, by decide, by decide, by decide⟩, by decide, ⟨by decide, by decide⟩, by decide, by decide⟩, by decide⟩,
   ⟨⟨by decide, ⟨by decide, by decide, by decide, by decide⟩, by decide, ⟨by decide, by decide⟩, by decide, by decide⟩, by decide⟩⟩

theorem witness_RelaxationAndFences : (base 0).thr.rlxOut = [] ∧ 3 ≤ scopeCode .die ∧ 4 ≤ scopeCode .package ∧
    scopeCode .system = 5 := by decide

/-- A thread with a relaxed count of 1 and `n` accesses outstanding. -/
def rlxS (n : Nat) : State :=
  thd (fun t => { t with g := [(1, 0x1100)], rlx := 1, rlxOut := List.replicate n ⟨.store 0, [part 0x1200 8], 8⟩ })

theorem witness_RelaxedIssue :
    (Reaches (rlxS 0) .load ((rlxS 0).ea 1 0 8) 8 [part 0x1100 8] ∧ 0 < (rlxS 0).thr.rlx ∧
      (rlxS 7).thr.rlxOut.length < 8) ∧
    (Reaches (rlxS 8) .load ((rlxS 8).ea 1 0 8) 8 [part 0x1100 8] ∧ 0 < (rlxS 8).thr.rlx ∧
      8 ≤ (rlxS 8).thr.rlxOut.length) :=
  ⟨⟨⟨by decide, by decide, by decide, by decide⟩, by decide, by decide⟩,
   ⟨⟨by decide, by decide, by decide, by decide⟩, by decide, by decide⟩⟩

theorem witness_RelaxedIssue_forms :
    Reaches (rlxS 0) .store ((rlxS 0).ea 1 0 (sizeBytes .b)) (sizeBytes .b) [part 0x1100 1] ∧
    Reaches (rlxS 7) .load ((rlxS 7).ea 1 0 32) 32 [part 0x1100 32] ∧
    Reaches (rlxS 8) .store ((rlxS 8).ea 1 0 32) 32 [part 0x1100 32] ∧
    ((rlxS 0).g 1).toNat % 4 = 0 ∧ Reaches (rlxS 0) .both ((rlxS 0).g 1).toNat 4 [part 0x1100 4] ∧
    ((rlxS 8).g 1).toNat % 8 = 0 ∧ Reaches (rlxS 8) .both ((rlxS 8).g 1).toNat 8 [part 0x1100 8] :=
  ⟨⟨by decide, by decide, by decide, by decide⟩, ⟨by decide, by decide, by decide, by decide⟩, ⟨by decide, by decide, by decide, by decide⟩,
   by decide, ⟨by decide, by decide, by decide, by decide⟩, by decide, ⟨by decide, by decide, by decide, by decide⟩⟩

theorem witness_RelaxedIssue_fullEmpty :
    let s := locS.setThread 0 { locS.thread 0 with rlx := 1 }
    0 < s.thr.rlx ∧ (s.g 1).toNat % 8 = 0 ∧ Reaches s feKind (s.g 1).toNat 8 [locPart] :=
  ⟨by decide, by decide, ⟨by decide, by decide, by decide, by decide⟩⟩

theorem witness_AtomicResults :
    (AtWord memS .both (memS.g 1).toNat 4 (part 0x1100 4)) ∧
    (AtWord memS .both (memS.g 1).toNat 8 (part 0x1100 8)) ∧
    (BitVec.ofNat 64 (memS.valueAt [part 0x1100 8]) = memS.g 3 ∧
      BitVec.ofNat 64 (memS.valueAt [part 0x1100 8]) ≠ memS.g 2) ∧
    (AtWord locFull feKind (locFull.g 1).toNat 8 locPart ∧ locFull.fullAt locPart.pa = true) :=
  ⟨⟨by decide, ⟨by decide, by decide, by decide, by decide⟩, by decide, ⟨by decide, by decide⟩, by decide, by decide⟩,
   ⟨by decide, ⟨by decide, by decide, by decide, by decide⟩, by decide, ⟨by decide, by decide⟩, by decide, by decide⟩, by decide,
   ⟨by decide, ⟨by decide, by decide, by decide, by decide⟩, by decide, ⟨by decide, by decide⟩, by decide, by decide⟩, by decide⟩

theorem witness_AccessTraps :
    let m := vec (regs [(1, 0x1101)])
    let o := vec (regs [(1, 0x0080000000000000)])
    Vectored m ∧ (m.g 1).toNat % 4 ≠ 0 ∧ (m.g 1).toNat % 8 ≠ 0 ∧ (m.g 1).toNat / 2 ^ 56 ≠ 1 ∧
    m.ea 1 0 8 % 8 ≠ 0 ∧ (o.g 1).toNat % 8 = 0 ∧
    o.xlate o.tid .load (o.ea 1 0 8) 8 = .fault 5 0 0x0080000000000000 ∧
    o.xlate o.tid .store (o.ea 1 0 8) 8 = .fault 5 2 0x0080000000000000 ∧
    o.xlate o.tid .load (o.ea 1 0 32) 32 = .fault 5 0 0x0080000000000000 ∧
    o.xlate o.tid .store (o.ea 1 0 32) 32 = .fault 5 2 0x0080000000000000 ∧
    o.xlate o.tid .both (o.g 1).toNat 4 = .fault 5 2 0x0080000000000000 ∧
    o.xlate o.tid .both (o.g 1).toNat 8 = .fault 5 2 0x0080000000000000 ∧
    o.ea 1 0 8 % 8 = 0 ∧ o.xlate o.tid feKind (o.ea 1 0 8) 8 = .fault 5 2 0x0080000000000000 := by
  unfold Vectored; decide

/-- The full word of `locFull` in error, under a handler; and a pc that no fetch reaches. -/
def locErr : State := { vec locFull with poison := [locPart.pa] }

theorem witness_AccessTraps_errors :
    Vectored locErr ∧ locErr.poisoned locPart.pa 8 = true ∧ locErr.fullAt locPart.pa = true ∧
    AtWord locErr feKind (locErr.ea 1 0 8) 8 locPart ∧ AtWord locErr feKind (locErr.g 1).toNat 8 locPart ∧
    Vectored (vec (thd (fun t => { t with pc := 0x0080000000000000 }))) ∧
    (vec (thd (fun t => { t with pc := 0x0080000000000000 }))).fetch = .fault 5 0x0080000000000000 1 :=
  ⟨by unfold Vectored; decide, by decide, by decide,
   ⟨by decide, ⟨by decide, by decide, by decide, by decide⟩, by decide, ⟨by decide, by decide⟩, by decide, by decide⟩,
   ⟨by decide, ⟨by decide, by decide, by decide, by decide⟩, by decide, ⟨by decide, by decide⟩, by decide, by decide⟩,
   by unfold Vectored; decide, rfl⟩

theorem witness_AtomicResults_sound : locFull.poisoned locPart.pa 8 = false := by decide

theorem witness_CounterResults :
    let kw : AccKind := { rd := true, wr := true, atomic := true, counter := true }
    let kr : AccKind := { rd := true, counter := true }
    let c := prt0 (regs [(1, 0x0100000000001003)]) (fun p =>
      { p with cnt := { launches := [(3, { st := .done, gen := 1 })] } })
    (locS.g 1).toNat / 2 ^ 56 ≠ 1 ∧ AtWord locS kw (locS.g 1).toNat 8 locPart ∧
    AtWord locS kr (locS.g 1).toNat 8 locPart ∧
    ((BitVec.ofNat 64 (locS.valueAt [locPart]) - locS.g 3).toNat < 2 ^ 63) ∧
    ((c.g 1).toNat / 2 ^ 56 = 1 ∧ fld (c.g 1) 14 12 = 1 ∧ fld (c.g 1) 11 0 = 3 ∧
      (c.cntr c.thr.prt 1 3).resolved = true) ∧
    locS.thr.arrived = false ∧ max 1 ((locS.g 3).toNat % 2 ^ 32) ≤ locS.valueAt [locPart] % 2 ^ 32 + 1 ∧
    locS.valueAt [locPart] % 2 ^ 32 + 1 < max 1 ((locS.g 2).toNat % 2 ^ 32) :=
  ⟨by decide, ⟨by decide, ⟨by decide, by decide, by decide, by decide⟩, by decide, ⟨by decide, by decide⟩, by decide, by decide⟩,
    ⟨by decide, ⟨by decide, by decide, by decide, by decide⟩, by decide, ⟨by decide, by decide⟩, by decide, by decide⟩,
    by decide, by decide, by decide, by decide, by decide⟩

theorem witness_WindowWaits :
    let r (d : Bool) := (regs [(1, 7)]).setRegion 0 7 { everArmed := true, wins := [(0, { decl := d })] }
    let run := prt0 (regs [(1, 7)]) (fun p => { p with cnt := { launches := [(7, { st := .running })] } })
    ((r true).region 0 7).everArmed = true ∧ (((r true).region 0 7).wins.look {} 0).decl = true ∧
    ((((r true).region 0 7).wins.look {} 0).count - ((r true).g 2).setWidth 32).toNat < 2 ^ 31 ∧
    (((r false).region 0 7).wins.look {} 0).decl = false ∧ ((base 0).region 0 0).everArmed = false ∧
    ((base 0).cntr 0 1 0).running = false ∧ (run.region 0 7).everArmed = false ∧
    (run.cntr 0 1 7).running = true := by decide

/-- Tables from 0x8000 that map the low 2 MiB as one page, and thread 0's ROOT. -/
def tables (s : State) : State :=
  let s := [(0x8000, 0x9001), (0x9000, 0xA001), (0xA000, 0xB001), (0xB000, 0x3F)].foldl
    (fun s e => s.writeBytes (hbmHome [0] e.1) (leBytes 8 e.2)) s
  s.setThread 0 { s.thread 0 with root := 0x8000 }

/-- A directory of 128 entries at page 2 whose entry 5 names core 0, enabled. -/
def dirS (s : State) (w0 : Nat) : State :=
  (prt0 s (fun p => { p with epdir := 0x2007 })).writeBytes (hbmHome [0] (0x2000 + 32 * 5))
    (leBytes 8 w0 ++ leBytes 8 (slotSite 0 0).toNat ++ leBytes 8 0x1000)

/-- A region of partition 0 in ring slot 1 that runs, with one configured site. -/
def fab (i : Nat) (x : Site) (f : Region → Region := id) : State :=
  (base 0).setRegion 0 1 (f { loaded := true, armed := true, everArmed := true, w := 32, h := 16,
                              sites := [(i, x)] })

/-- The same with a general register of thread 0. -/
def fabR (g : Tbl W64) (i : Nat) (x : Site) (f : Region → Region := id) : State :=
  (regs g).setRegion 0 1 (f { loaded := true, armed := true, everArmed := true, w := 32, h := 16,
                              sites := [(i, x)] })

def siteReg (i sub : Nat) : W64 := (fabSite 0 i sub).setWidth 64

/-- g1 names site 387 of a block past its drain point. -/
def gone : State := vec (prt0 (regs [(1, siteReg 387 0)]) (fun p => { p with drained := [(3, 0)] }))

/-- A FIFO tile of capacity 3 at site 387, whose switch sends out0 east. -/
def fifoCfg : SiteCfg := { kind := 2, w0 := 0x80000000, w1 := 3, sw0 := 0x8140, sw1 := 0x40 }
/-- A BUFFER tile of U32-sized elements there; out1 goes south. -/
def bufCfg : SiteCfg := { kind := 2, w0 := 0x44400000, sw0 := 0x8170, sw1 := 0x53 }
/-- A PASS element that takes port A and sends out0 east. -/
def passCfg : SiteCfg := { kind := 1, ops := [0x2A3F8000], sw0 := 0x8140, sw1 := 0x40 }

theorem witness_MessageAndQueueResults :
    let s := dirS (regs [(1, 5)]) (5 + 2 ^ 32)
    let rq (h t : Nat) := (regs []).setCore 0 { (base 0).core 0 with rq := [(0, { enable := true, cap := 3, head := h, tail := t })] }
    let q := fabR [(1, siteReg 387 0)] 387 { cfg := fifoCfg, tail := 1 }
    (s.thr.rlxOut = [] ∧ fld (s.prt s.thr.prt).epdir 4 0 ≠ 0 ∧ (s.clu 0).epCache = [] ∧
      s.epLook s.thr.prt 5 = some (5 + 2 ^ 32, (slotSite 0 0).toNat, 0x1000) ∧
      sitePkg (BitVec.ofNat 32 (slotSite 0 0).toNat) = s.pkg ∧
      s.coreOf s.thr.prt (BitVec.ofNat 32 (slotSite 0 0).toNat) = some 0) ∧
    ((((rq 0 1).core 0).rq.look {} (rqIdx 0 0)).enable = true ∧ ((rq 0 1).core 0).recvWait = [] ∧
      (((rq 0 1).core 0).rq.look {} (rqIdx 0 0)).head ≠ (((rq 0 1).core 0).rq.look {} (rqIdx 0 0)).tail) ∧
    (((rq 1 1).core 0).rq.look {} (rqIdx 0 0)).head = (((rq 1 1).core 0).rq.look {} (rqIdx 0 0)).tail ∧
    ((base 0).siteRevoked 0 0 = false ∧ (base 0).fifoSite 0 = none) ∧
    (gone.siteRevoked 0 ((gone.g 1).setWidth 32) = true ∧ Vectored gone) ∧
    q.siteRevoked 0 ((q.g 1).setWidth 32) = false ∧
    q.fifoSite ((q.g 1).setWidth 32) = some (387, 1, q.region 0 1) ∧ (1 * 2 ^ 16 ≠ fld (q.g 2) 27 0) ∧ 1 * 2 ^ 16 = fld (0x10000 : W64) 27 0 := by unfold Vectored; decide

/-! ### Floating point and packed -/

theorem witness_ScalarFloatResults : NoSubnormTrap (base 0) true :=
  .inr (.inl (by decide))

theorem witness_ScalarFloatTests : (2 : BitVec 2).toNat ≤ 2 := by decide

theorem witness_SubnormalTraps :
    let s := thd (fun t => { t with snvec := 0x2001, g := [(1, 1)] })
    s.thr.sup = false ∧ s.thr.snvec.getLsbD 0 = true ∧ s.thr.uiin = false ∧
    encode (.fadd .f32 3 1 2 .rne) = some (Encode.fp .f32 3 1 2 0 0 0) ∧
    FP.isSub .f32 (s.f .f32 1) = true ∧ Vectored (vec { s with threads := s.threads }) ∧
    { s.thr with uiin := true }.uiin = true := by unfold Vectored; decide

theorem witness_SubnormalTraps_packed :
    let s := thd (fun t => { t with snvec := 0x2001, v := [(1, 1)] })
    ETy.isFloat .f16 = true ∧ (∃ i < 256 / (ETy.fmt .f16).width,
      FP.isSub (ETy.fmt .f16) (lane (ETy.fmt .f16).width (s.v 1).toNat i) = true) ∧ ETy.f16 ≠ .f64 ∧
    (∃ e < max (ETy.fmt .f16).perReg (Fmt.perReg .f32),
      FP.isSub (ETy.fmt .f16) (lane (ETy.fmt .f16).width (s.thr.readV ((1 : VReg).toNat + e / (ETy.fmt .f16).perReg)).toNat
        (e % (ETy.fmt .f16).perReg)) = true) := ⟨by decide, ⟨0, by decide⟩, by decide, ⟨0, by decide⟩⟩

theorem witness_FloatSpecialValues :
    FP.isNan .f32 0x7FC00000 = true ∧ FP.isNan .f32 0x3F800000 = false ∧ FP.isInf .f32 0x7F800000 = true ∧
    FP.isInf .f32 0xFF800000 = true ∧ FP.sgn .f32 0x7F800000 ≠ FP.sgn .f32 0xFF800000 ∧
    FP.isZero .f32 0x80000000 = true ∧ FP.isZero .f32 0xBF800000 = false ∧ FP.sgn .f32 0xBF800000 = true := by
  decide

theorem witness_RoundingIsExactOnValues : Fmt.isFloat .e4m3 = true ∧ 0x7E < 2 ^ Fmt.width .e4m3 ∧
    FP.isNan .e4m3 0x7E = false ∧ FP.isNan .b4 0x7 = false := by decide

theorem witness_PackedIntegerResults : ETy.isFloat .i8 = false ∧ ETy.width .i8 ≤ 16 := by decide

theorem witness_PackedFloatResults : ETy.isFloat .f16 = true ∧ NoSubnormTrap (base 0) true :=
  ⟨by decide, .inr (.inl (by decide))⟩

theorem witness_PackedMoveResults : WellFormed (.vbcast 1 2 7 .f32) = true ∧ ETy.isFloat .i16 = false := by decide

theorem witness_PackedConvertAndReduce :
    WellFormed (.vcvt 4 8 .bf16 .f32 .rne false) = true ∧ NoSubnormTrap (base 0) true ∧
    (descFmt (0 : W16) = some .f64 ∧ cvtFits 4 8 .f64 .f32 = true) ∧
    (descFmt (7 : W16) = none ∧ Vectored (vec (thd (fun t => { t with ft := 0x7 })))) ∧
    encode (.vcvtDesc 4 1 .f32 0) = some 0x8C810872 ∧ ETy.isFloat .i32 = false ∧ ETy.isFloat .bf16 = true ∧
    (descFmt (6 : W16) = some .b4 ∧ cvtFits 4 1 .b4 .f32 = true) ∧ cvtFits 4 8 .f64 .b4 = true :=
  ⟨by decide, .inr (.inl (by decide)), by decide, ⟨by decide, by unfold Vectored; decide⟩, by decide, by decide,
    by decide, by decide, by decide⟩

/-! ### Engines -/

/-- A valid BF16 command of one row, one column and 64 steps. -/
def mxS : State := thd (fun t => { t with mxShape := 0x0003000000400000, g := [(2, 0x10000000), (4, 0x3000000)] })
/-- Core 0's queue full of eight commands of the context. -/
def mxFull : State := mxS.setClu 0 { mxS.clu 0 with queues := [(0, List.replicate 8 (mxS.mkMx 5 false 0 0 0))] }
def inFabric : State := (base 0).setRegion 0 1 { loaded := true, mxs := [{ cluster := 0 }] }

theorem witness_MatrixCommands :
    inFabric.tileInFabric 0 = true ∧ (base 0).tileInFabric 0 = false ∧ (base 0).mxValid (base 0).thr = false ∧
    mxS.drainValid mxS.thr (mxS.g 4) = false ∧ mxS.mxValid mxS.thr = true ∧
    mxS.drainValid mxS.thr (mxS.g 2) = true ∧
    (((mxS.clu 0).queues.look [] 0).filter (fun x => x.ctx == mxS.thr.ctx)).length < 8 ∧
    8 ≤ (((mxFull.clu 0).queues.look [] 0).filter (fun x => x.ctx == mxFull.thr.ctx)).length ∧
    mxFull.mxValid mxFull.thr = true ∧ (base 0).thr.row = none ∧ encode .mxrel = some 0x94000005 ∧
    (thd (fun t => { t with row := some (5, 1) })).thr.row = some (5, 1) ∧ (base 0).thr.rlxOut = [] := by decide

theorem witness_AsyncIssue :
    (memS.thr.cmds.filter (fun x => x.2.isNone)).length < 16 ∧ memS.uiCount memS.tid < 8 ∧ memS.thr.rlxOut = [] ∧
    (∀ p ∈ [part 0x1100 64], p.cached = false) ∧
    Reaches memS .record (memS.g 1).toNat 64 [part 0x1100 64] :=
  ⟨by decide, by decide, by decide, by decide, ⟨by decide, by decide, by decide, by decide⟩⟩

/-- Handle 1 with a state, in g1. -/
def cmdS (st : Option Nat) (aw : List Nat := []) : State :=
  thd (fun t => { t with g := [(1, 1)], cmds := [(1, st)], awaits := aw })
/-- The running command of handle 1. -/
def cmdOf : ACmd := { (cmdS none).mkCmd 5 0 1 0 false (List.replicate 64 0) with ended := false }

theorem witness_AsyncWaits :
    let find (s : State) (n : Nat) := (s.thr.cmds.find? (fun x => x.1 == n)).map (·.2)
    let recent (s : State) : Bool := (s.thr.cmds.drop (s.thr.cmds.length - 16)).any (fun x => x.1 == (s.g 1).toNat)
    let old := thd (fun t => { t with g := [(1, 1)], cmds := (1, some 0) :: (List.range 16).map (fun i => (i + 2, none)) })
    recent (cmdS none) = true ∧ recent (cmdS (some 0)) = true ∧ (recent old = false ∧ find old 1 = some (some 0)) ∧
    (cmdS none).g 1 ≠ 0 ∧ find (cmdS none) 2 = none ∧ find (cmdS none) 1 = some none ∧
    find (cmdS (some 0)) 1 = some (some 0) ∧ (cmdS none).g 0 = 0 ∧ (cmdS none).thr.awaits = [] ∧
    (∃ x ∈ (cmdS none).thr.cmds, x.2 = none ∧ find (cmdS none) x.1 = some none) ∧
    (∀ x ∈ (cmdS (some 3)).thr.cmds, x.2 ≠ none) ∧ (cmdS (some 3) [1]).thr.awaits ≠ [] ∧
    (∀ n ∈ (cmdS (some 3) [1]).thr.awaits, find (cmdS (some 3) [1]) n ≠ some none) ∧
    (∀ x ∈ (base 0).acmds, x.ended = true) ∧ (cmdOf.tid = 0 ∧ cmdOf.life = 0 ∧ cmdOf.handle = 1 ∧ cmdOf.op = 0 ∧
      cmdOf.ended = false ∧ cmdOf.op ≤ 3) := by decide

theorem witness_RegionInstructions :
    let own := thd (fun t => { t with lslot := 4095 })
    let held := own.setRegion 0 4095 { loaded := true }
    let r (f : Region → Region) := ((regs [(1, 1), (2, 0x1100)]).setRegion 0 1 (f { loaded := true }))
    let armed := r (fun r => { r with armed := true })
    let shadow := r (fun r => { r with armed := true, hasShadow := true })
    let rolling := r (fun r => { r with armed := true, rolling := true })
    let one := shadow.writeBytes (part 0x1100 4).pa (leBytes 4 1)
    let two := one.writeBytes (part 0x1104 4).pa (leBytes 4 (fabSite 0 387 0).toNat)
    let past := gone.setThread 0 { gone.thread 0 with lslot := 4095 }
    4096 ≤ (base 0).thr.lslot ∧ (own.thr.lslot < 4096 ∧ own.hasRegion 0 4095 = false ∧ own.siteRevoked 0 0 = false) ∧
    (past.thr.lslot < 4096 ∧ past.hasRegion 0 4095 = false ∧
      past.siteRevoked 0 ((past.g 1).setWidth 32) = true ∧ Vectored past) ∧
    held.hasRegion 0 4095 = true ∧ ((armed.region 0 1).loaded = true ∧ (armed.region 0 1).armed = true) ∧
    ((base 0).region 0 1).loaded = false ∧
    (((r id).region 0 1).loaded = true ∧ ((r id).region 0 1).armed = false ∧ ((r id).region 0 1).arming = false ∧
      ((r id).region 0 1).loadst = 0) ∧
    (armed.region 0 1).hasShadow = false ∧ (shadow.region 0 1).hasShadow = true ∧
    shadow.valueAt [part 0x1100 4] < 1 ∧ 1 ≤ one.valueAt [part 0x1100 4] ∧ one.valueAt [part 0x1100 4] ≤ 64 ∧
    one.xlate 0 .record 0x1104 4 = .ok [part 0x1104 4] ∧
    (two.region 0 1).source (BitVec.ofNat 32 (two.valueAt [part 0x1104 4])) = none ∧
    (rolling.region 0 1).rolling = true := by unfold Vectored; decide

theorem witness_StreamTokens :
    let s (y : Site) (g2 : W64) := fabR [(1, siteReg 387 0), (2, g2)] 387 y
    let y : Site := { cfg := fifoCfg }
    let e (n : Nat) := fabR [(1, siteReg 2 1)] 2 { cfg := passCfg, a := List.replicate n (tokVal 0 5) }
    (base 0).thr.rlxOut = [] ∧ (base 0).fifoSite 0 = none ∧ (base 0).streamSite 0 = none ∧
    (base 0).siteRevoked 0 0 = false ∧ (gone.thr.rlxOut = [] ∧ gone.siteRevoked 0 ((gone.g 1).setWidth 32) = true ∧
      Vectored gone) ∧ (s y 0).siteRevoked 0 (((s y 0).g 1).setWidth 32) = false ∧
    (e 3).siteRevoked 0 (((e 3).g 1).setWidth 32) = false ∧
    (s y 0).fifoSite (((s y 0).g 1).setWidth 32) = some (387, 1, (s y 0).region 0 1) ∧
    ((s y 0).region 0 1).armed = true ∧ badTag ⟨0, 1⟩ = true ∧ badTag (tokVal 0 5) = false ∧
    y.fifoFull = false ∧ y.fifoEmpty = true ∧ { y with tail := 3 }.fifoFull = true ∧
    { y with tail := 3 }.fifoEmpty = false ∧
    (e 3).streamSite (((e 3).g 1).setWidth 32) = some (2, 1, 1, (e 3).region 0 1) ∧ tokRoll.isRoll = true ∧
    (1 - 1) ∈ passCfg.usedPorts ∧ (((e 3).region 0 1).site 2).cfg.copyOf = none ∧
    (((e 3).region 0 1).site 2).a.length < 4 ∧ 4 ≤ (((e 4).region 0 1).site 2).a.length := by
  unfold Vectored; decide

/-- An ESC element at site 2 with ticket 1 parked; g1 answers it through the escape port of seam 2048. -/
def escCfg : SiteCfg :=
  { kind := 1, ops := [0x3C3F8000], sw0 := 0x8140, sw1 := 0x40, pa := 0x6000, handler := 0x3000 }
def escSite (asked : Bool) : Site :=
  { cfg := escCfg, started := true, held := [.park 1]
    tickets := [(1, { gen := 7, st := 1, asked := asked, tok := tokVal 0 5 })] }
def escWord : W64 := BitVec.ofNat 64 (1 + 32 * 64 + 7 * 2 ^ 16 + (escPortWord 0 2).toNat * 2 ^ 32)

/-- Its block past the drain point. -/
def escGone : State := vec (prt0 (regs [(1, escWord)]) (fun p => { p with drained := [(3, 0)] }))

theorem witness_EscapeReplies :
    let s := { fabR [(1, escWord)] 2 (escSite true) with blkOwn := [(0, { st := .owned, prt := 0 })] }
    s.thr.rlxOut = [] ∧ replyName 0 = none ∧ (vec (base 0)).replySite 0 = none ∧ s.replySite (s.g 1) = some 2 ∧
    (replyName (s.g 1) = some 2 ∧ s.siteRevoked 0 (fabSite s.pkg 2 0) = false) ∧
    (replyName (escGone.g 1) = some 2 ∧ escGone.siteRevoked 0 (fabSite escGone.pkg 2 0) = true ∧ Vectored escGone ∧
      escGone.thr.rlxOut = []) ∧ Vectored (vec (base 0)) ∧
    s.regions.find? (fun e => e.1 / 4096 == 0 && (e.2.loaded && e.2.ctx == s.thr.ctx && e.2.has 2 &&
      ((e.2.site 2).tickets.look {} (fld (s.g 1) 5 0)).st == 1 &&
      ((e.2.site 2).tickets.look {} (fld (s.g 1) 5 0)).gen == fld (s.g 1) 31 16)) =
      some (1, s.region 0 1) := by unfold Vectored; decide

/-- Graph counter 2 runs; g1 names a record; g2 is the LAUNCH word. -/
def schS (g2 : W64) (run : Bool) (slot : Cntr := {}) : State :=
  prt0 (thd (fun t => { t with lslot := 1, g := [(1, 0x1100), (2, g2)] })) (fun p =>
    { p with cnt := { graphs := if run then [(2, { st := .running })] else [], launches := [(0, slot)] } })

theorem witness_LaunchAndSpawn :
    let l := List.replicate 64 (0 : Byte)
    (Reaches (schS 2 true) .record ((schS 2 true).g 1).toNat 64 [part 0x1100 64]) ∧
    fld ((schS 0x100 true).g 2) 63 8 ≠ 0 ∧ fld ((schS 2 true).g 2) 63 8 = 0 ∧
    ((schS 2 true).g 1).toNat % 64 = 0 ∧ ((schS 2 false).cntr 0 2 2).running = false ∧
    (((schS 2 true).cntr 0 2 2).running = true ∧ ((schS 2 true).cntr 0 2 2).stop = none) ∧
    ((schS 2 true { st := .running }).cntr 0 1 0).reusable = false ∧ ((schS 2 true).cntr 0 1 0).reusable = true ∧
    (schS 2 true).waiters = [] ∧ 4096 ≤ (base 0).thr.lslot ∧ (schS 2 true).thr.lslot < 4096 ∧ taskOk (List.replicate 64 255) = false ∧
    taskOk l = true :=
  ⟨⟨by decide, by decide, by decide, by decide⟩, by decide⟩

theorem witness_Cancels :
    let s := (schS 2 true).setThread 17 { (base 0).thread 0 with st := .ready }
    let t := s.setThread 0 { s.thread 0 with g := [(1, (slotSite 0 17).setWidth 64)] }
    (s.cntr 0 2 (2 % fileSize 2)).running = true ∧ (s.cntr 0 2 2).stop = none ∧ (s.cntr 0 1 0).running = false ∧
    sitePkg (t.relocate 0 ((t.g 1).setWidth 32)) = t.pkg ∧
    siteName (t.relocate 0 ((t.g 1).setWidth 32)) = .slot 17 ∧ 17 ≠ t.tid ∧ (t.thread 17).st ≠ .empty ∧
    (t.thread 17).prt = 0 := by decide

theorem witness_SystemRegisters :
    (let s := tables (thd (fun t => { t with sup := true, wiWait := true, g := [(1, 0x1000), (2, 1)] }))
     firstFault ((rangeLines (s.g 1).toNat (s.g 2).toNat).map (fun va => s.lineAt va)) = none ∧ s.thr.sup = true ∧
     (s.prt 0).shoots.length < 4 ∧ s.thr.rlxOut = [] ∧ s.thr.wiWait = true ∧ s.thr.wi = 0 ∧
     { s.thr with wi := 3 }.wi ≠ 0) ∧
    ((base 0).selCore 0 0x01000000 = none ∧ (base 0).selCore 0 ((slotSite 0 16).setWidth 64) = some 1 ∧
      { (base 0).thr with ctx := 1 }.ctx ≠ 0) ∧ (fld (1 : W64) 2 0 = 1 ∧ fld (10 : W64) 2 0 = 2 ∧ fld (3 : W64) 2 0 = 3 ∧
      fld (8 : W64) 2 0 = 0 ∧ 3 < fld (7 : W64) 2 0) ∧
    (thd (fun t => { t with sup := true })).thr.sup = true ∧ (base 0).thr.ctx = 0 ∧
    Vectored (vec (base 0)) ∧ sysAssigned 0x0FF = false ∧ sysAssigned 0x101 = true ∧ (0x101 : Nat) ≥ 0x100 ∧
    (vec (base 0)).thr.sup = false ∧ sysReadOnlyIll 0x101 = false ∧ sysReadOnlyIll 0x10 = true ∧
    encode (.mfs 1 0x101) ≠ none ∧ encode (.mts 1 0x101) ≠ none := by unfold Vectored; decide

theorem witness_SystemInstructions :
    let sup (f : Thread → Thread) := tables (thd (fun t => f { t with sup := true, g := [(1, 0x1000), (2, 1)] }))
    let lines (s : State) := (partsOf ((rangeLines (s.g 1).toNat (s.g 2).toNat).map (fun va => s.lineAt va))).map (fun p => p.1.pa / 128)
    let all (s : State) : List Nat :=
      (((s.clu 0).icache.filter (fun x => x.locked)).map (fun x => x.line) ++ lines s).eraseDups
    let shoot (n : Nat) := prt0 (sup id) (fun p => { p with shoots := List.replicate n ⟨1, 0, false, false, 0, 1, [0], none⟩ })
    let locked := (sup id).setClu 0 { (base 0).clu 0 with icache := [128, 256].map (fun k => ⟨(part 0x1000 1).pa / 128 + k, 0, true, 0, 1⟩) }
    let far := vec (thd (fun t => { t with sup := true, g := [(1, 0x0080000000000000), (2, 1)] }))
    let lone := { sup id with cluOwn := [] }
    let snap (arm : Bool) := { prt0 (base 0) (fun p => { p with dbgctl := 2 }) with dbg := { arm := arm } }
    (sup id).thr.sup = true ∧
    firstFault ((rangeLines ((sup id).g 1).toNat ((sup id).g 2).toNat).map (fun va => (sup id).lineAt va)) = none ∧
    ((all (sup id)).length ≤ 256 ∧ (all (sup id)).all (fun l =>
      decide (((all (sup id)).filter (fun x => x % 128 == l % 128)).length ≤ 2)) = true) ∧
    ((all locked).any (fun l => decide (2 < ((all locked).filter (fun x => x % 128 == l % 128)).length)) = true ∧
      firstFault ((rangeLines (locked.g 1).toNat (locked.g 2).toNat).map (fun va => locked.lineAt va)) = none) ∧
    (firstFault ((rangeLines (far.g 1).toNat (far.g 2).toNat).map (fun va => far.lineAt va)) ≠ none ∧ Vectored far ∧
      far.thr.sup = true) ∧
    ((shoot 4).prt 0).shoots.length = 4 ∧ (((shoot 1).prt 0).shoots.length < 4 ∧
      (∀ h ∈ ((shoot 1).prt 0).shoots, h.wait ≠ []) ∧ (shoot 1).agents 0 ≠ [] ∧ (shoot 1).thr.rlxOut = []) ∧
    ((lone.prt 0).shoots = [] ∧ lone.agents 0 = [] ∧ lone.thr.rlxOut = []) ∧
    (sup id).thr.wiWait = false ∧ (sup (fun t => { t with wiWait := true })).thr.wi = 0 ∧
    (sup (fun t => { t with wiWait := true, wi := 5 })).thr.wi ≠ 0 ∧ (base 0).thr.sup = false ∧
    Vectored (vec (base 0)) ∧ encode (.waiti 1) ≠ none ∧
    ((snap true).prt 0).dbgctl.getLsbD 1 = true ∧ (snap true).dbg.srcSnap = true ∧ (snap false).dbg.arm = false ∧
    ((base 0).prt 0).dbgctl.getLsbD 1 = false := by unfold Vectored; decide

/-! ### Power, the host, links, debug -/

/-- Island 0 of the reset package changed. -/
def islS (f : Island → Island) : State :=
  { State.reset with pwr := { isl := [(0, f {})] } }

theorem witness_ResetAndPower :
    let owned := { islS id with blkOwn := [(0, ⟨.owned, 0⟩)] }
    let shut : State := { State.reset with pwr := { trip := 0x8000000000000003 } }
    shut.pwr.trip.getLsbD 63 = true ∧ (islS id).pwr.trip.getLsbD 63 = false ∧
    ((islS (fun x => { x with busy := true, stNow := 2 })).island 0).stNow = 2 ∧
    let v (st f : Nat) : W32 := BitVec.ofNat 32 (256 * st + f)
    fld (v 0 29) 6 0 < 30 ∧ 90 < fld (v 0 91) 6 0 ∧ fld (v 3 30) 9 8 = 3 ∧ fld (v 3 90) 6 0 ≤ 90 ∧
    fld (v 1 40) 9 8 = 1 ∧ fld (v 2 40) 9 8 = 2 ∧ owned.islandOwned 0 = true ∧
    (islS (fun x => { x with busy := true })).islErr 0 2 40 = 0 ∧ (islS id).islErr 0 1 30 = 0 ∧ (1 : Nat) ≠ 0 ∧
    ((islS (fun x => { x with busy := true })).island 0).queued = none ∧
    ((islS (fun x => { x with busy := true, state := 2 })).island 0).stNow ≠ 2 ∧ blockIsland 0 = 0 ∧
    (islS id).dbg.toc = .running ∧ 100 ≤ 100 ∧ 96 < 97 ∧ (97 ≤ 99 ∧ 99 < 100) := by decide

/-- Virtual function 3 with a record of its own. -/
def vfS (v : Vf) : State := { base 0 with hif := { vfs := [(3, v)] } }
/-- A ring of 128 records at 0x2000, bound to partition 0. -/
def ring : Vf := { enable := true, jqbase := 0x2000, jqsize := 128 }
def bindW (en : Nat) : W32 := BitVec.ofNat 32 (2 ^ 31 * en)

theorem witness_HostFunctionsAndErrors :
    let s := vfS ring
    let off := vfS { ring with enable := false }
    let far := vfS { ring with enable := false, jqsize := 3 }
    s.hostPort 0 = true ∧ { s with pwr := { isl := [(16, { stNow := 2 })] } }.hostPort 0 = false ∧
    s.inPrtMem 0 ((s.vf 3).base) 1 = true ∧ (s.vf 3).enable = true ∧ bitAt (0x100 : W32) 8 ≠ (s.vf 3).port ∧
    fld (1 : W32) 5 0 ≠ (s.vf 3).prt ∧ (bitAt (bindW 1) 31 = true ∧ far.bindOk 0 (far.vf 3) = false) ∧
    (bitAt (bindW 1) 8 = (s.vf 3).port ∧ fld (bindW 1) 5 0 = (s.vf 3).prt ∧ s.bindOk 0 (s.vf 3) = true) ∧
    off.bindOk 0 (off.vf 3) = true ∧ b2n (s.vf 3).port ≠ 1 ∧ b2n (s.vf 3).port = 0 ∧
    (off.vf 3).enable = false ∧ (s.vf 3).size ≤ fld (0xFFFF : W32) 15 0 ∧ fld (5 : W32) 15 0 < (s.vf 3).size ∧
    (s.hif.vfs.map (·.1)).Nodup ∧ ((vfS { ring with port := true }).vf 3).port = true ∧
    bitAt s.hif.errStat 1 = false := by decide

/-- The first GiB of the global window open to CXL.mem, with the page the aperture sees. -/
def hdmS : State :=
  { base 0 with hif := { aper0 := BitVec.ofNat 64 hbmWin, hdmBase := BitVec.ofNat 64 hbmWin,
                          hdmLimit := BitVec.ofNat 64 (hbmWin + 2 ^ 30) } }

theorem witness_HostMemoryAndFirmware :
    let img : BitVec 512 × Byte × Bool := (7, 3, true)
    let fw (h : Hif) : State := { State.reset with hif := h }
    let open' := { State.reset with prts := [(0, { cnt := { jobs := [(1, { st := .running })] } })] }
    let dark := { hdmS with pwr := { isl := [(16, { stNow := 2 }), (36, { stNow := 2 })] } }
    let shared := { hdmS with l2 := [⟨0, hbmWin / 512, 0, 0, 0, false, 0xFFFF, 0⟩] }
    let stale := { shared with copies := (List.range 8).map (fun i => ⟨hostLevel, hbmWin + 8 * i, 1, false, false, 0, 0, 0, false⟩) }
    (hdmS.hostPort 0 = true ∧ dark.hostPort 0 = false ∧ dark.hostPort 1 = false) ∧
    (hdmS.redirectHome hbmWin = hbmWin ∧ hdmS.homeClock hbmWin = true ∧ hdmS.coherentLine hbmWin = true) ∧
    { hdmS with pwr := { isl := [(groupIsland 0, { stNow := 1 })] } }.homeClock hbmWin = false ∧
    (shared.inHdm hbmWin = true ∧ shared.coherentLine hbmWin = false ∧
      ∀ i < 8, shared.copyAt hostLevel (hbmWin + 8 * i) = none) ∧
    (stale.inHdm hbmWin = true ∧ stale.coherentLine hbmWin = false ∧
      ∀ i < 8, stale.copyAt hostLevel (hbmWin + 8 * i) ≠ none) ∧
    (base 0).inHdm 0 = false ∧ (base 0).waiters = [] ∧ (List.replicate 64 (1 : Byte)).length = 64 ∧
    hdmS.inHdm hbmWin = true ∧ hdmS.waiters = [] ∧ (let b := fld hdmS.hif.aper0 51 32 * 2 ^ 32 + 0x1000
      ∀ i < 8, hdmS.bar2At (fld hdmS.hif.aper0 5 0) (b + i) = .mem (b + i) ∧ hdmS.homeClock (b + i) = true) ∧
    (fw { fwStatus := 1 }).hif.fwStatus = 1 ∧ (fw {}).hif.fwStatus ≠ 1 ∧
    (fw { fetching := true }).hif.fetching = true ∧ ((2 : Byte).toNat < (fw { minSvn := some 3 }).hif.min.toNat) ∧
    (fw { minSvn := some 3 }).hif.min.toNat ≤ (3 : Byte).toNat ∧ (fw {}).hif.staged = none ∧
    open'.jobsOpen = true ∧ ((fw { staged := some img }).hif.staged = some img ∧
      (fw { staged := some img }).jobsOpen = false) ∧
    ((fw { activating := some img, minSvn := some 1 }).hif.activating = some img ∧
      (fw { activating := some img, minSvn := some 1 }).hif.min.toNat < (3 : Byte).toNat) := by decide

/-- Link 2 of the package changed. -/
def lnkS (l : Link) : State := { base 0 with lnk := { links := [(2, l)], base := [(5, 0x202), (256 + 5, 0x202), (512 + 5, 0x202)] } }
/-- A flit from package 5 of domain 9. -/
def fl (dst hops seq : Nat) (p : Payload := .empty) : Flit :=
  { seq := seq, ack := 0, ackv := false, nak := false, cls := .control, dst := dst, src := 5, type := .data,
    hops := hops, credits := 0, crClass := .bulk, len := 0, tag := 9, payload := p }
/-- Partition 0 in domain 9, with a running job of address space 4 whose tables map the low 2 MiB. -/
def domS : State :=
  let jobs : Part64 := { jobs := [(1, { st := .running })] }
  tables (prt0 (lnkS { st := .up8, peer := 5 }) (fun p =>
    { p with domValid := true, domain := 9, cnt := jobs, jobRun := [(1, { asid := 4, root := 0x8000 })] }))

theorem witness_LinkStates :
    let tr := lnkS { enable := true, st := .training }
    let up := lnkS { enable := true, st := .up4 }
    let dark := { tr with pwr := { isl := [(17, { stNow := 2 })] } }
    (tr.linkPower 2 = true ∧ dark.linkPower 2 = false) ∧
    (bitAt (1 : W32) 1 = false ∧ bitAt (1 : W32) 0 = true ∧ ((lnkS {}).link 2).enable = false) ∧
    bitAt (2 : W32) 0 = false ∧ (tr.link 2).st = .training ∧ 0 = tr.pkg ∧ 5 ≠ tr.pkg ∧ (up.link 2).up = true := by
  decide

theorem witness_LinkTraffic :
    let y : Queued := { flit := fl 5 15 0, entry := 0x202, part := 256, ord := 3 }
    let l : Link := { enable := true, st := .up8, out := [y] }
    let early : Link := { enable := true, st := .up8, hold := [{ y with ord := 2 }] }
    let behind := { lnkS l with lnk := { (lnkS l).lnk with links := [(2, l), (3, early)] } }
    let rq := { domS with lnk := { domS.lnk with reqs := [⟨8, some 5, 0⟩] }, acmds := [cmdOf] }
    let ask : Agent := ⟨0, 0x8000, true, none⟩
    let rd := domS.agentRead ask 0x1100 8
    let spent : Flit := fl 7 1 0 (.coll 9 2 64 0 0 0 0 0 [] 0 0 4)
    ((lnkS l).linkPower 2 = true ∧ { lnkS l with pwr := { isl := [(17, { stNow := 2 })] } }.linkPower 2 = false) ∧
    (fl 7 1 3).seq ≠ ((lnkS l).link 2).expect ∧
    (flitFormed spent = true ∧ (payloadOrigin spent.payload).isSome = true ∧ spent.src ≠ (lnkS l).pkg ∧
      payloadOrigin (fl 7 1 0).payload = none ∧ { spent with src := 0 }.src = (lnkS l).pkg ∧
      (lnkS l).route (mkFlit 0 spent.src 0 .control (.notice (some 4))) = some 2 ∧
      (State.reset.route (mkFlit 0 spent.src 0 .control (.notice (some 4))) = none) ∧
      fld (State.reset.rtEntry (mkFlit 0 spent.src 0 .control (.notice (some 4)))) 3 0 ≠ 2) ∧
    ((lnkS l).link 2).up = true ∧ ((lnkS l).link 2).hold.length < 512 ∧ ((lnkS l).link 2).out = y :: [] ∧
    y.flit.cls = .control ∧ (lnkS l).overtakes 2 y = false ∧ behind.overtakes 2 y = true ∧ 0 < ((lnkS l).link 2).cr2 ∧
    ((lnkS { l with cr2 := 0 }).link 2).cr .control = 0 ∧
    (flitFormed (fl 7 1 0) = true ∧ (fl 7 1 0).seq = ((lnkS l).link 2).expect ∧ (fl 7 1 0).dst ≠ (lnkS l).pkg ∧
      (fl 7 1 0).hops ≤ 1) ∧
    (let f := fl 0 3 0 (.message 7 (slotSite 0 16) 1 2 (slotSite 5 0) 1 1)
     flitFormed f = true ∧ f.dst = domS.pkg ∧ domS.domainPrt (fld f.tag 11 0) = some 0 ∧
       domS.coreOf 0 (slotSite 0 16) = some 1) ∧
    (rq.lnk.reqs.find? (fun y => y.id == 8) = some ⟨8, some 5, 0⟩ ∧ (rq.acmd 5).isSome = true ∧ cmdOf.id = 5) ∧
    domS.domainPrt 9 = some 0 ∧ domS.rootOf 0 4 = some 0x8000 ∧ 
    (match rd with | .ok b => b == List.replicate 8 0 | _ => false) = true ∧
    domS.route (mkFlit domS.pkg 5 9 .bulk (.reply 1 (List.replicate 8 0) 0)) = some 2 ∧
    (match domS.engineWrite ask 0x1100 [1, 2] with | .ok _ => true | _ => false) = true := by decide

theorem witness_DebugEvents :
    let d (x : Dbg) : State := { State.reset with dbg := x }
    (d { arm := true }).dbg.arm = true ∧ (d {}).dbg.arm = false ∧ bitAt (1 : W32) 8 = false ∧
    fld (0x60000000 : W32) 30 29 = 3 ∧ fld (0x00C00000 : W32) 23 22 = 3 ∧ fld (0x20000000 : W32) 30 29 ≠ 3 ∧
    fld (0x20000000 : W32) 23 22 ≠ 3 ∧
    ((d { srcTocsin := false }).dbg.toc = .running ∧ (d { srcTocsin := false }).dbg.srcTocsin = false ∧
      (d { srcTocsin := false }).dbg.tocProp = false) ∧ (d { toc := .halting }).dbg.toc = .halting ∧
    (d { toc := .stepping }).dbg.toc = .stepping ∧
    ((d { toc := .halted }).dbg.toc = .halted ∧ (d { toc := .halted }).dbg.fatal = false ∧
      (d { toc := .halted }).dbg.steps ≠ 0 ∧ (d { toc := .halted }).dbg.tocProp = false) ∧
    (d { fatal := true }).dbg.fatal = true := by decide

/-! ### Elastic partitions -/

/-- A command of partition 0 in a step. -/
def rz (cmd step : Nat) : Resize :=
  { prt := 0, cmd := cmd, origin := 1, blk := 0, clu := 1, hbm := 1, ddr := 0, relocs := [], step := step
    groups := [0], w := 0, grow := false, nblk := 0, ncore := 0, nthread := 0, nbytes := 0, nreloc := 0
    regions := [], cores := [], moved := 0, oldBlk := 0, oldClu := 1, durs := [] }
def rzS (z : Resize) : State := { base 0 with resize := some z }

theorem witness_PartitionCommands :
    let s := prt0 (base 0) (fun p => { p with rszBusy := true })
    (s.prt 0).rszBusy = true ∧ ((base 0).prt 0).rszBusy = false ∧ ((base 0).prt 0).ctxState ≠ 1 ∧
    (base 0).resize = none ∧ (rzS (rz 2 4)).resize = some (rz 2 4) ∧
    (base 0).waiters = [] ∧ ((rzS (rz 2 4)).prt 0).rszBusy = false := by
  decide

theorem witness_ResizeSteps :
    let bad := rz 1 1
    let ok := rz 2 1
    let mv : Resize := { rz 2 4 with regions := [(1, fabSite 0 16 0)] }
    let rs := (rzS mv).setRegion 0 1 { loaded := true, armed := true, w := 16, h := 16 }
    let cz : Resize := { rz 2 4 with clu := 2, cores := [0] }
    let cs := { rzS cz with cluOwn := [(0, ⟨.owned, 0⟩), (1, ⟨.owned, 0⟩)] }
    let up : Resize := { rz 2 4 with groups := [0, 1], grow := true, w := 1 }
    let us := prt0 (rzS up) (fun p => { p with hwm := 1 })
    let dn : Resize := { rz 2 4 with w := 1 }
    let ds := prt0 (rzS dn) (fun p => { p with groups := [0, 1] })
    (rzS bad).waiters = [] ∧ (((rzS (rz 3 1)).destroyJobs 0).propose (rz 3 1)).1 = 0 ∧
      ((rzS (rz 3 1)).prt 0).exist = true ∧
    (rzS bad).prtRuns none = true ∧ (((rzS bad).propose bad).1 ≠ 0 ∧ (rzS bad).resizeQ = []) ∧
    (((rzS ok).propose ok).1 = 0 ∧ ok.cmd ≠ 3) ∧
    (mv.regions.find? (fun e => e.1 == 1) = some (1, fabSite 0 16 0) ∧ (rs.region 0 1).loaded = true ∧
      (rs.region 0 1).clock ≠ 2) ∧
    (0 ∈ cz.cores ∧ cs.coreQuiet 0 = true ∧ (cs.targetCore cz).isSome = true ∧
      (∀ k ∈ cs.targetCore cz, (cs.poolFit 0 0 k).isSome = true)) ∧
    (us.sweepDone up = false ∧ up.grow = true ∧ hbmHome [0] (4096 * up.w) ≠ hbmHome [0, 1] (4096 * up.w)) ∧
    (ds.sweepDone dn = false ∧ dn.grow = false ∧ dn.w ≤ (ds.prt 0).sweepPages) ∧
    (rzS (rz 2 4)).sweepDone (rz 2 4) = true ∧
    (rzS (rz 2 5)).strayBlocks (rz 2 5) = [] ∧
    (rzS (rz 3 4)).sweepDone (rz 3 4) = true := by decide

/-- A block of partition 0 in slice 5 of die 0, in a partition of one cluster, pinned or not. -/
def stray (pin : Bool) : State :=
  { rzS (rz 2 5) with
    l2 := [⟨0, hbmWin / 512, 5, 0, 0, false, 0xFFFF, 0⟩]
    clusters := [(0, { (base 0).clu 0 with pins := if pin then [hbmWin / 512] else [] })] }

theorem witness_ResizeSteps_rehash :
    (stray true).pinned 0 (hbmWin / 512) = true ∧ (stray false).pinned 0 (hbmWin / 512) = false ∧
    (stray false).sliceOf 0 0 (hbmWin / 512) = 0 ∧ (stray false).strayBlocks (rz 2 5) ≠ [] := by
  have h : (stray false).sliceOf 0 0 (hbmWin / 512) = 0 := by
    have e : (stray false).hashOver 0 = [0] := by decide
    simp only [State.sliceOf, e]
    simp [show ([0].filter (fun m => clusterDie m == 0)) = [0] from by decide, Nat.mod_one]
  refine ⟨by decide, by decide, h, ?_⟩
  simp only [State.strayBlocks, show (stray false).l2 = [⟨0, hbmWin / 512, 5, 0, 0, false, 0xFFFF, 0⟩] from rfl,
    List.filter_cons, h]
  decide

/-! ### The scheduler, tasks and messages -/

/-- A job record of job 1 with tables at 0x8000 and phases at 0x4000, first of the ring of function 3. -/
def jobS : State :=
  (vfS { ring with tail := 1 }).writeBytes (hbmHome [0] 0x2000)
    (leBytes 8 1 ++ leBytes 8 0x4000 ++ leBytes 8 0 ++ leBytes 8 0x8000)
/-- The counters and runs of partition 0 with `f`, and tables at 0x8000. -/
def runS (c : Part64) (f : Prt → Prt := id) : State :=
  tables (prt0 (base 0) (fun p => f { p with cnt := c, jobRun := [(0, { root := 0x8000 })] }))
def running : Cntr := { st := .running }
/-- A ready launch in slot 5, with an image of one block at 0x4000 or without. -/
def readyS (image : W64) : State :=
  let s := runS { launches := [(5, running)] } (fun p =>
    { p with launchRun := [(5, { st := .ready, image := image, root := 0x8000 })] })
  { s with blkOwn := [(0, ⟨.owned, 0⟩)] }.writeBytes (hbmHome [0] 0x400C) [16, 0, 16, 0]

def readyPick (image : W64) (o : Option (Nat × Nat)) : Bool :=
  let s := readyS image
  match s.pickLaunch 0 (s.readyLaunches 0) with
  | some (5, _, .go x) => x == o
  | _ => false

theorem witness_SchedulerEvents_region :
    (readyS 0x4000).pickPrt = some (0, false) ∧ readyPick 0x4000 (some (0, 0)) = true := by decide +kernel

theorem witness_SchedulerEvents :
    let u : Vf := jobS.hif.vfs.look {} 3
    let a := fld u.jqbase 51 12 * 4096 + 64 * u.head
    let ph := runS { jobs := [(1, running)] } (fun p => { p with jobRun := [(1, { nphase := 1 })] })
    let gr := runS { graphs := [(2, running)] } (fun p =>
      { p with graphRun := [(2, { nlaunch := 1, launches := 0x3000 })] })
    let lr (w p : Nat) := runS {} (fun q => { q with launchRun := [(5, { st := .ready, waited := w, prio := p })] })
    let gang (p : PhaseRun) := runS { phases := [(7, running)] } (fun q => { q with phaseRun := [(7, p)] })
    let ep := prt0 (dirS (base 0) (5 + 2 ^ 32)) (fun p => { p with eps := [(5, (slotSite 0 16).toNat + 1)] })
    let cv := prt0 (vfS ring) (fun p => { p with
      cntsel := [(3, 0x4001)], cnt := { jobs := [(1, { st := .done, gen := 1 })] } })
    (u.enable = true ∧ u.head ≠ u.tail ∧ jobS.schedRuns u.prt = true ∧ jobS.inPrtMem u.prt a 64 = true ∧
      jobS.memHome u.prt a = some (hbmHome [0] 0x2000) ∧ jobS.poisoned (hbmHome [0] 0x2000) 64 = false ∧
      jobS.jobReject u.prt (Memory.readList jobS.mem (hbmHome [0] 0x2000) 64) = none) ∧
    (ph.schedRuns 0 = true ∧ ph.phaseDue 0 1 = true ∧ ph.active 0 0 = true) ∧
    (gr.schedRuns 0 = true ∧ (gr.cntr 0 2 2).running = true ∧ (gr.cntr 0 2 2).stop = none ∧
      (gr.cntr 0 1 0).reusable = true ∧ gr.active 0 0 = true ∧
      gr.schedRead 0 0x8000 0x3000 64 64 = some (List.replicate 64 0) ∧
      gr.launchReject 0 0x8000 (List.replicate 64 0) = none) ∧
    (readyS 0).pickPrt = some (0, false) ∧ readyPick 0 none = true ∧
    (let r : LaunchRun := ((lr 4096 2).prt 0).launchRun.look {} 5
     r.st = .ready ∧ 4096 ≤ r.waited ∧ r.prio < 3) ∧
    (((gang { gang := true, armed := true }).cntr 0 3 7).running = true ∧
      (gang { gang := true, armed := true }).prtRuns (some 0) = true) ∧
    ((gang { gang := true, tag := 9 }).prt 0).exist = true ∧
    ((gang { gang := true, tag := 9 }).prt 0).gangPhases 9 = [7] ∧ ((gang {}).prt 0).gangPhases 9 = [] ∧
    ((ph.cntr 0 4 1).running = true ∧ (ph.cntr 0 4 1).stop = none ∧ fld (0x40001 : W64) 18 16 = 4 ∧
      fld (0x40001 : W64) 11 0 % fileSize 4 = 1) ∧
    (fld (0x2007 : W64) 4 0 = 7 ∧ (base 0).inPrtMem 0 (fld (0x2007 : W64) 51 12 * 4096) (32 * 2 ^ 7) = true) ∧
    (ep.epLook 0 5 = some (5 + 2 ^ 32, (slotSite 0 0).toNat, 0x1000) ∧
      ep.coreWord 0 (BitVec.ofNat 32 (slotSite 0 0).toNat) = some (slotSite 0 0) ∧
      (let old := (ep.prt 0).eps.look 0 5
       old ≠ 0 ∧ old ≠ (slotSite 0 0).toNat + 1 ∧ ep.coreOf 0 (BitVec.ofNat 32 (old - 1)) = some 1)) ∧
    (fld (0x2006 : W64) 4 0 ≠ 0 ∧ fld (0x2006 : W64) 4 0 < 7 ∧ 16 < fld (0x2011 : W64) 4 0 ∧
      (base 0).inPrtMem 0 (fld (0x8000000000007 : W64) 51 12 * 4096) (32 * 2 ^ 7) = false) ∧
    selected ((cv.prt 0).cntsel.look 0 3) = some (4, 1) ∧ (cv.cntr 0 4 1).resolved = true := by decide

theorem witness_TaskAndMessageEvents :
    let q (pk : Packet) := (base 0).setCore 0 { (base 0).core 0 with queue := [pk] }
    let m : Msg := { id := 3, prt := 0, name := 5, w0 := 1, w1 := 2, core := 0, hops := 0, sender := some 0
                     site := 0, asid := 0, root := 0, remote := none, ret := 0 }
    let w0 (task : Nat) : Nat := 5 + 2 ^ 32 + task * 2 ^ 33
    let s (task : Nat) (m : Msg) : State := { dirS (base 0) (w0 task) with msgs := [m] }
    let rq (cap : Nat) := (s 0 m).setCore 0
      { (s 0 m).core 0 with rq := [(rqIdx 0 0, { enable := true, cap := cap })] }
    let back : State := { vec (base 0) with msgs := [{ m with ret := 1 }] }
    let ui := thd (fun t => { t with uivec := 0x3001, uiPend := [7] })
    let held (s : State) (k : Nat) : Bool :=
      s.msgs.find? (fun y => y.id == 3 && y.ret == 0) == some m &&
        s.epLook m.prt m.name == some (w0 k, (slotSite 0 0).toNat, 0x1000) &&
        s.coreOf m.prt (BitVec.ofNat 32 (slotSite 0 0).toNat) == some m.core &&
        s.cluOwner (m.core / 8) == some m.prt
    ((base 0).cluOwner 0 = some 0 ∧ (base 0).schedRuns 0 = true ∧ (base 0).clockOn (clusterIsland 0) = true ∧
      ((q {}).refill 0).nextPacket 0 0 = some {} ∧ ((q {}).refill 0).rowWaits 0 = false ∧
      ((q {}).refill 0).freeSlot 0 .task = some 1 ∧ ({} : Packet).moved = none) ∧
    ((q { wait := 4096 }).core 0).queue.find? (fun y => decide (4096 ≤ y.wait) && decide (y.prio < 3)) =
      some { wait := 4096 } ∧
    (held (rq 3) 0 = true ∧ nbit (w0 0) 33 = false ∧ (((rq 3).core 0).rq.look {} (rqIdx 0 0)).full = false ∧
      (rq 3).waiters = [] ∧ (rq 3).prtRuns (some 0) = true) ∧
    (held (rq 0) 0 = true ∧ (((rq 0).core 0).rq.look {} (rqIdx 0 0)).full = true) ∧
    (held (s 0 m) 0 = true ∧ (((s 0 m).core 0).rq.look {} (rqIdx 0 0)).enable = false) ∧
    (held (s 1 m) 1 = true ∧ nbit (w0 1) 33 = true ∧ ((s 1 m).core 0).queue.length < 256) ∧
    ({ base 0 with msgs := [m] }.epLook 0 5 = none ∧ ((base 0).prt 0).stubs = []) ∧
    (back.msgs.find? (fun y => y.id == 3 && y.ret != 0) = some { m with ret := 1 } ∧
      back.thr.intrap = false ∧ ((back.prt back.thr.prt).tvec back.thr.ctx).toNat / 4 ≠ 0) ∧
    (ui.thr.uiReady = true ∧ ui.thr.st = .ready ∧ ui.thr.uiPend = 7 :: []) ∧
    ((rlxS 2).thread 0).rlxOut[1]? = some ⟨.store 0, [part 0x1200 8], 8⟩ ∧ (rlxS 2).waiters = [] := by decide

theorem witness_TaskAndMessageEvents_replies :
    let out (r : Rlx) := thd (fun t => { t with rlxOut := [r] })
    let p := part 0x1200 8
    let word (x : W64) := (out ⟨.cas 5 x (.g 3), [p], 8⟩).writeBytes p.pa (leBytes 8 5)
    (base 0).bridged (clusterDie 0) (clusterDie 0) = true ∧ (base 0).bridged 9 (clusterDie 0) = true ∧
    (homeBytes [p, part 0x1300 4]).Nodup ∧ (out ⟨.load true (.g 3), [p], 8⟩).heldUp 0 = false ∧
    ((out ⟨.load true (.g 3), [p], 8⟩).thread 0).rlxOut[0]? = some ⟨.load true (.g 3), [p], 8⟩ ∧
    (∀ x ∈ [p], x.cached = false) ∧ p.n = 8 ∧ (part 0x1200 4).n = 4 ∧
    ((out ⟨.amo .add 1 (.g 3), [p], 8⟩).thread 0).rlxOut[0]? = some ⟨.amo .add 1 (.g 3), [p], 8⟩ ∧
    (BitVec.ofNat 64 ((word 1).valueAt [p]) = 5 ∧ BitVec.ofNat 64 ((out ⟨.ste 1, [p], 8⟩).valueAt [p]) ≠ 5) ∧
    ((out ⟨.ste 1, [p], 8⟩).thread 0).rlxOut[0]? = some ⟨.ste 1, [p], 8⟩ ∧
    ((out ⟨.febit true, [p], 8⟩).thread 0).rlxOut[0]? = some ⟨.febit true, [p], 8⟩ := by decide

/-! ### Translation, contexts, registers -/

/-- A shoot-down of generation 1 that awaits agents. -/
def shoot (wait : List Nat) : Shoot := ⟨1, 0, false, false, 1, 1, wait, some (0, 3)⟩
/-- Migration slot 2 of partition 0, in a partition whose job of address space 4 has tables at 0x8000 that
map page 0x5000 to 0x6000 alone. -/
def migS (x : Mig) : State :=
  let s := (runS { jobs := [(0, running)] }).setPrt 0 { (runS { jobs := [(0, running)] }).prt 0 with
    jobRun := [(0, { root := 0x8000, asid := 4 })], mig := [(2, x)], groups := [0, 1] }
  [(0x8000, 0x9001), (0x9000, 0xA001), (0xA000, 0xB001), (0xB000, 0xC001), (0xC028, 0x603F)].foldl
    (fun s e => s.writeBytes (hbmHome [0, 1] e.1) (leBytes 8 e.2)) s

theorem witness_TranslationEvents :
    let w (va : Nat) : Walk := ⟨0, 0, 0x8000, va, 0, [(0, false, false, false)]⟩
    let wk (va : Nat) := (thd (fun t => { t with st := .walk })).setClu 0 { (base 0).clu 0 with walks := [w va] }
    let sd (wait : List Nat) := prt0 (thd (fun t => { t with st := .memory })) (fun p => { p with shoots := [shoot wait] })
    let v : W64 := 4 * 2 ^ 48 + 1
    let y : Mig := { va := 0x5000, dst := BitVec.ofNat 64 prtDdrWin, asid := 4 }
    let mg : Mig := { va := 0x5000, state := 1, src := 0x6000, size := 0x1000, dst := 0x7000, asid := 4
                      run := true, rva := 0x5000, rdst := 0x7000, rasid := 4 }
    ((wk 5).clu 0).walks = [w 5] ∧ ((wk 5).thread 0).st = .walk ∧ (wk 5).walkRuns 0 (w 5) = true ∧
    (base 0).bridged (shoot []).die (clusterDie 0) = true ∧ (sd []).heldUp 0 = false ∧
    (match (migS mg).migCheck 0 2 mg with | .error e => e == 1 | _ => false) = true ∧
    (((sd [walkerAgent 0]).prt 0).shoots = [shoot [walkerAgent 0]] ∧ ((sd [walkerAgent 0]).thread 0).st = .memory) ∧
    ((sd [7]).prt 0).shoots.find? (fun e => e.wait.contains 7) = some (shoot [7]) ∧
    (bitAt (0x100001 : W64) 20 = true ∧ ((base 0).prt 0).shoots.length < 4 ∧ ((base 0).prt 0).exist = true) ∧
    bitAt (1 : W64) 20 = false ∧ (bitAt v 0 = true ∧ fld v 63 48 = 4) ∧
    (match (migS y).migCheck 0 2 { y with asid := 9 } with | .error e => e == 2 | _ => false) = true ∧
    ((migS mg).memHome 0 (0x6000 + 0) = some (hbmHome [0, 1] 0x6000) ∧
      (migS mg).memHome 0 (0x7000 + 0) = some (hbmHome [0, 1] 0x7000) ∧ mg.w < mg.size) ∧
    ({ mg with w := 0x1000 }.size ≤ { mg with w := 0x1000 }.w ∧ ((migS mg).prt 0).shoots.length < 4 ∧
      ((migS mg).prt 0).genDone = 0) := by decide

theorem witness_TranslationEvents_walks :
    let w : Walk := ⟨0, 0, 0x8000, 5, 0, [(0, false, false, false)]⟩
    let s := (thd (fun t => { t with st := .walk })).setClu 0 { (base 0).clu 0 with walks := [w] }
    let found (s : State) : WalkRes := s.walk (clusterDie 0) 0 0x8000 0x5000 (Config.choice s.fresh)
    found s = .fault false ∧ (s.clu 0).walks = [w] ∧ (s.thread 0).st = .walk ∧
    found (tables s) = .leaf ⟨0, 2, 0x3F⟩ ∧ ((tables s).clu 0).walks = [w] ∧ ((tables s).thread 0).st = .walk := by
  decide +kernel

theorem witness_TranslationEvents_opens :
    let y : Mig := { va := 0x5000, dst := BitVec.ofNat 64 prtDdrWin, asid := 4 }
    let s := (migS y).setPrt 0 { (migS y).prt 0 with ddrUnits := [0] }
    (match s.migCheck 0 2 y with | .ok (l, a) => l.addr == 0x6000 && a == 0xC028 | _ => false) = true := by
  decide +kernel

theorem witness_ContextAndRegisterEvents :
    let c (st : Nat) (f : Prt → Prt := id) := prt0 (base 0) (fun p => f { p with ctxState := st })
    let e : Spill := { img := List.replicate 64 0, slot := 1, words := [], mtpw := 0, cells := [], full := [], id := 0 }
    let sp (st : Nat) (held : BitVec 2) := c st (fun p =>
      { p with ctxSpill := 0x10000, ctxHeld := held, spills := [e] })
    let g (x : Region) := (base 0).setRegion 0 1 x
    let v : W64 := 2 ^ 63 + 1
    ((c 3).prt 0).exist = true ∧ ((c 3).prt 0).ctxState ≠ 0 ∧ ((c 0).prt 0).ctxState = 0 ∧
    (rzS (rz 2 4)).ctxHeldUp 0 = true ∧ (c 0).ctxHeldUp 0 = false ∧
    ((sp 0 1).inPrtMem 0 0x10000 ((sp 0 1).spillBytes 0 1) = true ∧ fld ((sp 0 1).prt 0).ctxSpill 51 12 * 4096 = 0x10000) ∧
    (let far := c 0 (fun p => { p with ctxSpill := 2 ^ 50 })
     far.inPrtMem 0 (fld (far.prt 0).ctxSpill 51 12 * 4096) (far.spillBytes 0 1) = false) ∧
    bitAt ((sp 0 3).prt 0).ctxHeld 1 = true ∧
    (bitAt ((sp 0 1).prt 0).ctxHeld 1 = false ∧
      (sp 0 1).imageAt 0 0x10000 = some e ∧ e.slot = 1 ∧
      (sp 0 1).inPrtMem 0 0x10000 4096 = true ∧ (sp 0 1).shareShort 0 1 e.words = false) ∧
    (c 1).scanning 0 = false ∧ (c 1).prtRuns (some 0) = true ∧ (c 1).cfgPending 0 = false ∧ ((sp 2 1).sharesBusy 0 1 = false ∧ ((sp 2 1).prt 0).ctxActive ≤ 1 ∧
      (sp 2 1).prtRuns (some 0) = true ∧ (sp 2 1).waiters = []) ∧
    ((sp 3 1).sharesBusy 0 1 = false ∧ (sp 3 1).imageAt 0 0x10000 = some e) ∧
    { sp 1 1 with dbg := { toc := .halted } }.prtRuns (some 0) = false ∧ bitAt (1 : W64) 63 = false ∧ (bitAt v 63 = true ∧ fld v 11 0 = 1) ∧
    ((g { loaded := true, savedAt := some 0 }).region 0 1).savedAt ≠ none ∧
    (let r := (g { loaded := true, clock := 1, faulted := true, fcode := 10 }).region 0 1
     r.loaded = true ∧ r.savedAt = none ∧ r.clock = 1 ∧ r.retryable = true) ∧
    (base 0).poolOk 0 0 (0x000000000003FFFF &&& 0x00000FFFFFFC01FF) = false ∧
    (base 0).poolOk 8 0 (poolpwOwned &&& 0x00000FFFFFFC01FF) = true ∧
    (fld (0x4000 : W64) 14 8 + fld (0x4000 : W64) 6 0 ≤ 64 ∧ fld (0x4000 : W64) 6 0 = 0 ∧
      ∀ z ∈ (base 0).regions, z.1 / 4096 = 0 → z.2.loaded = true → z.2.ctx ≠ 0) ∧
    64 < fld (0x4001 : W64) 14 8 + fld (0x4001 : W64) 6 0 ∧ fld (6 : W64) 4 0 = 6 ∧
    (fld (5 : W64) 4 0 ≠ 0 ∧ fld (5 : W64) 4 0 < 6) ∧ 12 < fld (13 : W64) 4 0 ∧
    (let d : W64 := 2 ^ 63 + 3
     (fld d 11 0 ≠ 0 ∨ bitAt d 63 = false) ∧ fld d 49 32 + 16 * (fld d 11 0 + 1) ≤ 1024 * ((base 0).pw 0 0).scrkb) := by
  decide

theorem witness_ContextAndRegisterEvents_refused :
    let d : W64 := 2 ^ 63
    let wide : W64 := 2 ^ 63 + 2 ^ 49 + 3
    let scan := (prt0 (base 0) (fun p => { p with ctxState := 3 })).setRegion 0 1
      { loaded := true, clock := 2, ctx := 0 }
    (fld d 11 0 = 0 ∧ bitAt d 63 = true) ∧
    1024 * ((base 0).pw 0 0).scrkb < fld wide 49 32 + 16 * (fld wide 11 0 + 1) ∧ scan.scanning 0 = true := by decide

/-- A spilled thread comes back to an empty slot. -/
theorem witness_ContextAndRegisterEvents_threads :
    let e : Spill := { img := List.replicate 64 0, slot := 1, words := [], mtpw := 0, cells := [], full := [], id := 0 }
    let th : Thread := { st := .ready, prt := 0, ctx := 2 }
    let s := prt0 ((base 0).setThread (spillKey 0 + 3) th) (fun p =>
      { p with ctxState := 3, ctxSpill := 0x10000, ctxHeld := 1, spills := [e] })
    s.imageAt 0 0x10000 = some e ∧ (s.threads.map (·.1)).Nodup ∧ (spillKey 0 + 3, th) ∈ s.threads ∧
    th.st ≠ .empty ∧ th.ctx = 2 + e.id ∧ spillKey e.id ≤ spillKey 0 + 3 ∧ spillKey 0 + 3 < spillKey e.id + 65536 ∧
    (s.thread (spillKey 0 + 3 - spillKey e.id + outKey)).st = .empty := by decide

/-! ### Units of the fabric -/

/-- The region of `fab`, on a block the partition owns. -/
def own (s : State) : State := { s with blkOwn := [(0, ⟨.owned, 0⟩)] }
def unit (i : Nat) (x : Site) (f : Region → Region := id) : State := own (fab i x f)
/-- A tile of partition 0 has all 64 KiB for the first context (MTPW). -/
def unitT (i : Nat) (x : Site) : State := prt0 (unit i x) (fun p => { p with mtpw0 := 0x40 })
def val (n : Nat) : Token := tokVal 0 n

theorem witness_FabricUnits_elements :
    let x (a : List Token) : Site := { cfg := passCfg, started := true, a := a }
    let goes (s : State) : Bool :=
      match s.firing 0 (s.region 0 1) 2 ((s.region 0 1).site 2) with | .go _ _ _ [] none none => true | _ => false
    let fails (s : State) : Bool :=
      match s.firing 0 (s.region 0 1) 2 ((s.region 0 1).site 2) with | .fail c _ _ => c != 0 | _ => false
    let two : Site := { cfg := { passCfg with ops := [0x020F8000], sw1 := 0x50 }, started := true
                        a := [val 1], b := [tokStop 0] }
    let r (x : Site) := (unit 2 x).region 0 1
    let full : Site := { x [val 1] with he := [val 1, val 2] }
    let res : Site := { x [] with res := [[(0, val 3)]] }
    (unit 2 (x [val 1])).unitAt 2 = some (0, 1, r (x [val 1]), x [val 1]) ∧
    (passCfg.kind = 1 ∧ passCfg.copyOf = none ∧ (x []).flt.code = 0 ∧ (x []).rolled = false ∧ (x []).held = []) ∧
    (r (x [val 1])).fireRoom 2 (x [val 1]) = true ∧ goes (unit 2 (x [val 1])) = true ∧
    full.rollClash = none ∧ (r two).fireRoom 2 two = true ∧ fails (unit 2 two) = true ∧ (r full).fireRoom 2 full = false ∧
    res.roomFor 5 = true ∧ { res with he := [val 1, val 2] }.roomFor 5 = false := by decide

theorem witness_FabricUnits_hops :
    let x : Site := { cfg := passCfg, started := true, he := [val 7] }
    let far : Site := { cfg := { passCfg with sw1 := 0x100 }, started := true }
    let s (y : Site) := (unit 2 x (fun r => { r with sites := [(2, x), (130, y)] }))
    let alone := unit 2 x (fun r => { r with x := 0, w := 1 })
    (s far).unitAt 2 = some (0, 1, (s far).region 0 1, x) ∧ linkTo 2 1 = .site 130 ∧
    ((s far).region 0 1).attached 2 1 = none ∧ ((s far).region 0 1).attached 130 3 = none ∧
    ((s far).region 0 1).has 130 = true ∧ (∀ b, siteBlock 130 = some b → (s far).holdsBlock 0 b = true) ∧
    swDests far.cfg 4 = [4] ∧ far.roomFor 4 = true ∧
    { far with a := [val 1, val 2, val 3, val 4] }.roomFor 4 = false ∧
    (alone.region 0 1).has 130 = false ∧ bitAt (alone.prt 0).grdEp 63 = false ∧
    bitAt (alone.prt 0).grdRec0 63 = false := by
  refine ⟨by decide, by decide, by decide, by decide, by decide, ?_, by decide, by decide, by decide, by decide,
    by decide, by decide⟩
  · intro b h
    have : siteBlock 130 = some 0 := by decide
    rw [this] at h; cases h; decide

theorem witness_FabricUnits_tiles :
    let buf (w0 : W32) (f : Site → Site) : Site := f { cfg := { bufCfg with w0 := w0 } }
    let rd := buf 0x44400000 (fun x => { x with a := [val 8] })
    let up (w0 : W32) := buf w0 (fun x => { x with b := [val 8], c := [val 3] })
    let fifo (t : Nat) : Site := { cfg := fifoCfg, a := [val 5], tail := t }
    let s := unitT 387 rd
    let line : Site := { cfg := { kind := 2, w0 := 0xC0000000 }, miss := [(0, (poolBase 0 + ((base 0).pw 0 0).scr) / 128)] }
    let roll := buf 0x44000000 (fun x => { x with b := [tokRoll], c := [val 3] })
    let both := buf 0x44000000 (fun x => { x with a := [val 8], b := [val 8], c := [val 3] })
    let ring (sh : Option SiteCfg) := (unitT 387 { fifo 1 with shadow := sh }).writeBytes (s.tileByte 0 0 387 0)
      (leBytes 8 1 ++ leBytes 8 0xC00)
    (rd.tileRoll = none ∧ rd.portBReady = false) ∧ (both.tileRoll = none ∧ both.portBReady = true ∧ both.roomFor 5 = true ∧
      both.a ≠ [] ∧ ∀ tok ∈ both.a, tok.isRoll = false) ∧
    (roll.tileRoll = some (roll.fail 4 2 0) ∧ roll.fail 4 2 0 ≠ roll ∧ roll.cfg.role = 1) ∧
    ((up 0x44000000).tileRoll = none ∧ (up 0x44400000).tileRoll = none) ∧
    ((∀ sh ∈ [none, some fifoCfg], ((ring sh).fifoHead 0 0 387 (fifo 1)).isRoll = true) ∧
      (s.fifoHead 0 0 387 (fifo 1)).isRoll = false) ∧
    s.unitAt 387 = some (0, 1, s.region 0 1, rd) ∧ rd.cfg.role = 1 ∧ (val 8).isRoll = false ∧ rd.roomFor 5 = true ∧
    s.tileOk 0 0 (elBytes rd.cfg.tFmt) 8 = true ∧ s.tileOk 0 0 (elBytes rd.cfg.tFmt) 9 = false ∧
    ((val 8).cls = (val 3).cls ∧ s.waiters = []) ∧ (up 0x44000000).cfg.tRet = false ∧
    ((up 0x44400000).cfg.tRet = true ∧ (up 0x44400000).cfg.tRmw ≠ 5 ∧ (up 0x44400000).roomFor 6 = true) ∧
    (fifo 1).cfg.role = 2 ∧ (fifo 1).flagX = false ∧ (fifo 1).fifoFull = false ∧
    ((fifo 1).fifoEmpty = false ∧ swDests (fifo 1).cfg 5 ≠ [] ∧ (fifo 1).roomFor 5 = true) ∧
    (line.miss = [(0, 549755814080)] ∧ s.homeOf 0 (128 * 549755814080) 128 = .at 70368744202240 ∧
      s.poisoned 70368744202240 128 = false ∧ isSram 70368744202240 = true) := by
  decide

/-- A LOOKUP unit that passes a stop; its out0 goes east. -/
def lookUp (he : List Token) : Site :=
  { cfg := { kind := 3, w0 := 0x70000000, sw0 := 0x8140, sw1 := 0x40, base0 := 0x1000 }, started := true
    a := [tokStop 0], he := he }
/-- Generator 0 of the seam beside block 0, whose edge switch is at site 1920. -/
def genS (g : Gen) : State :=
  own (fab 1920 { cfg := { kind := 1, sw0 := 0x8000, sw1 := 0x80 } } (fun r => { r with gens := [(8192, g)] }))
def page1 : Extent := ⟨1, 1, 1, 0x3F, 0⟩
def ldGen : Gen := { ws := [0x20000000, 0, 0, 0, 0, 0, 0], base := 0x1000, extents := [page1] }
def stGen (t : Token) : Gen :=
  { ws := [0x40010000, 0, 0, 0, 0, 0, 0], base := 0x1100, extents := [page1], inbox := [t] }

theorem witness_FabricUnits_fibres_and_generators :
    let goes (s : State) (x : Site) : Bool :=
      match s.fibreStep 0 (s.region 0 1) 129 x with | .go _ outs _ [] _ => outs == [(0, tokStop 0)] | _ => false
    let s := unit 129 (lookUp [])
    let loads (g : Gen) (v : Nat) : Bool :=
      match (genS g).genLoad 0 ((genS g).region 0 1) 8192 g with | .ok x => x == v | _ => false
    let visited (g : Gen) : Option (List Nat) := (Gen.visits { g with inbox := [] } 1).map (fun e => e.1)
    let look (g : Gen) : Bool := match (genS g).unitLook 0 g.extents .store 0x1100 8 with
      | .ok [p] => p.n == 8 | _ => false
    (s.unitAt 129).isSome = true ∧ (lookUp []).cfg.kind = 3 ∧ (lookUp []).flt.code = 0 ∧
    fRoll (lookUp []) = none ∧ goes s (lookUp []) = true ∧ (lookUp []).roomFor 5 = true ∧
    (lookUp [val 1, val 2]).roomFor 5 = false ∧
    ((genS ldGen).unitAt 2048).isSome = true ∧ (genEdge 8192 = (1920, 1)) ∧
    (ldGen.isLoad = true ∧ ldGen.flt.code = 0 ∧ ((genS ldGen).region 0 1).edgeRoom 8192 = true) ∧
    ({ ldGen with stop := some 0 }.stop = some 0 ∧ { ldGen with done := true }.dSent = false) ∧
    (ldGen.stop = none ∧ ldGen.done = false ∧ loads ldGen 0 = true ∧ ldGen.single = false ∧
      ldGen.run = ldGen.perTok) ∧
    ((stGen (val 7)).isStore = true ∧ (val 7).isValue = true ∧ (stGen (val 7)).single = true ∧
      visited (stGen (val 7)) = some [0x1100] ∧ look (stGen (val 7)) = true ∧
      (stGen (val 7)).esize = 8) ∧
    ((tokStop 0).isValue = false ∧ (tokStop 0).isStop = true) ∧
    (tokDone.isStop = false ∧ tokDone.isDone = true) := by decide

theorem witness_FabricUnits_refills :
    let miss (w : Nat) (p : Bool) : Site := { lookUp [] with want := w, paused := p }
    let s (w : Nat) := tables ((unit 129 (miss w true)).setRegion 0 1
      { (unit 129 (miss w true)).region 0 1 with root := 0x8000 })
    let walked (w : Nat) : Bool := match (s w).draw.2.walkExtent (siteDie 129) 0 0x8000 (miss w true).cfg.need (w - 1) with
      | .ok _ => true | .error _ => false
    ((miss 0x1001 false).want ≠ 0 ∧ (miss 0x1001 false).paused = false ∧
      ∀ e ∈ (miss 0x1001 false).extents, e.has (vpageOf 0x1000) = false) ∧
    (((s 0x1001).unitAt 129).isSome = true ∧ walked 0x1001 = true) ∧
    (walked (2 ^ 40 + 1) = false ∧ (miss 0 true).flt.code = 0) := by decide

theorem witness_FabricUnits_escapes :
    let x (h : List EscItem) : Site := { escSite false with held := h }
    let rep (h : List EscItem) : Site :=
      { x h with tickets := [(1, { gen := 7, st := 2, reply := [val 4] })] }
    let s := unit 2 (escSite false)
    escCfg.kind = 1 ∧ oOp escCfg.op = 0x1E ∧ (x [.pass (val 2)]).outRoom 0 = true ∧
    (let y : Site := { x [.pass (val 2)] with old := some { escCfg with sw1 := 0x80 } }
     y.leaving = some 0 ∧ y.itemOld 0 = true ∧ ∀ p ∈ swDests (y.itemCfg 0) 5, (y.buf p).length < bufCap p) ∧
    s.clockOn (20 * siteDie 2 + 18) = true ∧ (x [.pass (val 2)]).old = none ∧
    (x [.pass (val 2)]).leaving = some 0 ∧ (rep [.park 1]).leaving = some 0 ∧
    ((escSite false).held = .park 1 :: [] ∧ ((escSite false).tickets.look {} 1).st = 1 ∧
      ((escSite false).tickets.look {} 1).asked = false ∧ s.escCluster 0 2 = some 0 ∧
      s.freeSlot (8 * 0 + ((s.clu 0).escNext + 0) % 8) .escape = some 1) := by decide

theorem witness_FabricUnits_transcendental_and_circuits :
    let e : TransReq := ⟨rgnKey 0 1, 2, val 5⟩
    let u : Trans := { wait := [(3, [e])], run := [e], next := 3 }
    let (src, dst) := (siteAt 367 0, siteAt 368 0)
    let row (d : Nat) (s : W16) (h : List Token) : Site :=
      { cfg := if d = 0 then passCfg else { kind := 1, sw0 := 0x8000, sw1 := 0x100 + s }, he := h }
    let s (h b : List Token) := (unit 2 { cfg := passCfg } (fun r => { r with
      circs := [⟨9, src, dst, b⟩], sites := [(2, { cfg := passCfg }), (src, row 0 0 h), (dst, row 1 0 [])] }))
    (s [] []).bridgeClock = true ∧
    (u.next < 8 ∧ u.wait.look [] u.next = e :: [] ∧ u.run = e :: [] ∧ e.key = rgnKey 0 1 ∧ e.site = 2) ∧
    ((s [val 1] []).region 0 1).circs.find? (fun c => c.index == 9) = some ⟨9, src, dst, []⟩ ∧
    (((s [val 1] []).region 0 1).site src).buf (bridgeDir src) = val 1 :: [] ∧ (s [] []).siteClock src = true ∧
    (src ≠ dst ∧ (((s [] [val 1]).region 0 1).site src).buf (bridgeDir src) = [] ∧ (s [] []).siteClock dst = true ∧
      swDests (((s [] [val 1]).region 0 1).site dst).cfg (srcOf (bridgeDir dst)) ≠ [] ∧
      (((s [] [val 1]).region 0 1).site dst).roomFor (srcOf (bridgeDir dst)) = true) := by decide

/-! ### Regions and engines -/

/-- The region of ring slot 1 with `f`. -/
def regS (f : Region → Region) : State :=
  own ((base 0).setRegion 0 1 (f { loaded := true, armed := true, w := 16, h := 16 }))
/-- A fabric-mode I8 tile of cluster 0 of one row, one column and one step, with tables at 0x8000. -/
def mxf : MxFab := { ws := [0x31E00000, 0, 1, 0, 0, 0, 0], aBase := 0x1000, bBase := 0x1000 }
def mxfS (f : MxFab) : State :=
  let e : Site := { cfg := { kind := 1, sw0 := 0x8000, sw1 := 0x80 } }
  tables (regS (fun r => { r with root := 0x8000, x := 0, w := 32, sites := [(1932, e)], mxs := [f] }))
/-- A page fault of site 2 that has not been told. -/
def flt (code : Nat) (told : Bool := false) : Site :=
  { cfg := passCfg, flt := { code := code, told := told } }

theorem witness_FabricRegions_sweeps :
    let win (d : Nat) := regS (fun r => { r with wins := [(4, { decl := true, due := d })] })
    let busy := regS (fun r => { r with sites := [(2, { cfg := passCfg, a := [val 1] })], acted := true })
    let idle := regS (fun r => { r with sites := [(2, { cfg := passCfg })] })
    let fin := regS (fun r => { r with sites := [(2, { cfg := passCfg, finA := true })] })
    (((win 2).region 0 1).wins.look {} 4).due ≠ 0 ∧ (((win 0).region 0 1).wins.look {} 4).due = 0 ∧
    idle.regionRuns 0 (idle.region 0 1) = true ∧
    ((idle.region 0 1).tokens = 0 ∧ (idle.region 0 1).memReqs = 0 ∧ (idle.region 0 1).selfFiring = false ∧
      (idle.region 0 1).endq = false ∧ (idle.region 0 1).finished = false) ∧
    ((fin.region 0 1).tokens = 0 ∧ (fin.region 0 1).memReqs = 0 ∧ (fin.region 0 1).selfFiring = false ∧
      (fin.region 0 1).endq = false ∧ (fin.region 0 1).finished = true ∧ ∀ e ∈ (fin.region 0 1).wins, e.2.due = 0) ∧
    (let e := regS (fun r => { r with endq := true })
     e.regionRuns 0 (e.region 0 1) = true ∧ (e.region 0 1).tokens = 0 ∧ (e.region 0 1).memReqs = 0 ∧
       (e.region 0 1).selfFiring = false ∧ (e.region 0 1).endq = true) ∧
    (0 < (busy.region 0 1).tokens ∧ (busy.region 0 1).acted = true ∧ (busy.region 0 1).ticketHeld = false ∧
      (busy.region 0 1).stall = false ∧ (idle.region 0 1).touched = [] ∧
      (let b := { busy.region 0 1 with acted := false }
       0 < b.tokens ∧ b.acted = false ∧ b.touched = [])) := by decide

theorem witness_FabricRegions_loads_and_arming :
    let l : CfgLoad := { port := 3, prt := 0, ctx := 0, asid := 0, root := 0x8000, slot := 1, shadow := false,
                         image := 0x6000, user := true, origin := fabSite 0 0 0, waiter := some (0, 6), sched := false }
    let ld := { base 0 with loads := [l] }
    let arm (w : Option (Nat × Nat)) := regS (fun r => { r with armed := false, arming := true, armWait := w })
    let sw := unit 2 { cfg := passCfg, rolled := true, shadow := some { passCfg with sw1 := 0x80 } }
    (ld.loads.find? (fun e => e.port == 3) = some l ∧ l.sched = false ∧ ld.loadHeld l = false ∧ ld.prtRuns (some l.prt) = true ∧
      ld.clockOn (20 * (3 / 256) + 18) = true ∧ l.waiter = some (0, 6)) ∧
    (∀ w ∈ [none, some (0, 6)], ((arm w).region 0 1).onFab = true ∧ (arm w).tilesIdle ((arm w).region 0 1) = true ∧
      (arm w).active 0 0 = true ∧ (arm w).prtRuns (some 0) = true) ∧
    (((arm none).prt 0).launchRun.look {} 1).ntask = 0 ∧ ((arm (some (0, 6))).region 0 1).armWait = some (0, 6) ∧
    ((sw.unitAt 2).isSome = true ∧ ((sw.region 0 1).site 2).rolled = true ∧
      ((sw.region 0 1).site 2).shadow = some { passCfg with sw1 := 0x80 } ∧ ((sw.region 0 1).site 2).res = []) := by
  decide

theorem witness_FabricRegions_tiles_and_faults :
    let em (st : Option Nat) : MxFab := { mxf with emit := some (0, 0), stop := st }
    let ft (code : Nat) (told : Bool) (fsave : W64) := prt0 (regS (fun r =>
      { r with sites := [(2, flt code told)] })) (fun p => { p with fsave := fsave })
    let so := prt0 (regS (fun r => { r with clock := 2 })) (fun p => { p with fsave := 0x1000FFF })
    let rl := regS (fun r => { r with reload := true, savedAt := some 0, clock := 2 })
    (∀ st ∈ [none, some 0, some 1, some 4], ((mxfS (em st)).fabTile 0).isSome = true ∧
      ((mxfS (em st)).region 0 1).edgeRoom (tileGen 0) = true) ∧
    mxFmt mxf.fmt = some .i8 ∧ (em none).flt.code = 0 ∧ (em none).emit = some (0, 0) ∧
    (((ft 4 false 0).regionAt 2).isSome = true ∧ (((ft 4 false 0).region 0 1).site 2).flt.code = 4 ∧
      (((ft 4 false 0).region 0 1).site 2).flt.told = false) ∧
    (∀ c ∈ [4, 10], (ft c false 0xFFF).dueFaults ((ft c false 0xFFF).region 0 1) ≠ []) ∧
    (∀ e ∈ (ft 10 false 0xFFF).dueFaults ((ft 10 false 0xFFF).region 0 1), e.2.2.1.code = 10) ∧
    ((ft 10 false 0xFFF).saveRoom 0 ((ft 10 false 0xFFF).region 0 1)).isSome = true ∧
    (ft 10 false 0).saveRoom 0 ((ft 10 false 0).region 0 1) = none ∧
    ((so.landRequests 0 1).saveRoom 0 ((so.landRequests 0 1).region 0 1)).isSome = true ∧ (so.region 0 1).savedAt = none ∧
    ((rl.region 0 1).savedAt.isSome = true ∧ rl.active 0 0 = true ∧ rl.prtRuns (some 0) = true ∧
      ((rl.prt 0).launchRun.look {} 1).anyplace = false ∧ rl.targetFree 0 1 0 (rl.region 0 1).rect = true) := by
  decide

/-- Core 0's queue 0 with one command: I8, one row, one column, one step, operands on the mapped page. -/
def mxc : MxCmd :=
  { (base 0).mkMx 5 false 0 0 0 with shape := 0x0008000000010000, root := 0x8000, aBase := 0x1000, bBase := 0x1000 }
def drc : MxCmd := { mxc with drain := true, dword := 0x10000000, dst := 0x1200 }
def mxQ (c : MxCmd) : State :=
  tables (own ((base 0).setClu 0 { (base 0).clu 0 with queues := [(0, [c])] }))
def fetches (c : MxCmd) : Option Bool :=
  let s := (mxQ c).setClu 0 { (mxQ c).clu 0 with lastQ := 0, streak := 1 }
  match (s.mxFetch c .i8).1 with | .ok _ => some true | .error _ => some false

theorem witness_EngineEvents_queues :
    let far : MxCmd := { mxc with aBase := 0x40000000 }
    let rows (pc : W64) : MxCmd := { drc with mxhpc := pc }
    let out : MxCmd := { drc with rowStart := 1, released := [0] }
    let w (c : MxCmd) : Bool :=
      match (mxQ c).engineWrite c.agent c.dst.toNat ((mxQ c).drainRow 0 0 c .f32 0) with | .ok _ => true | _ => false
    (mxQ mxc).fabTile 0 = none ∧ (mxQ mxc).tileRuns 0 = true ∧
    (∀ j < 8, ∀ e ∈ ((mxQ mxc).clu 0).queues.look [] j, e.granted = false) ∧ (mxQ mxc).mxPick 0 = some (0, 1) ∧
    (mxQ mxc).mxHead 0 0 = some mxc ∧ mxFmt (fld mxc.shape 51 48) = some .i8 ∧
    fetches mxc = some true ∧ fetches far = some false ∧
    (let g := { mxc with granted := true, fetched := some ([], []) }
     (mxQ g).mxGranted 0 = some (0, g) ∧ (mxQ g).fabTile 0 = none ∧ g.fetched = some ([], [])) ∧
    ((mxQ (rows 0)).drainHead 0 0 = some (rows 0) ∧ (∀ j < 8, j ≠ 0 → (mxQ (rows 0)).drainHead 0 j = none) ∧
      (rows 0).rowStart < drainRows (rows 0) ∧ (rows 0).mxhpc.toNat / 4 = 0) ∧
    ((rows 0x3000).mxhpc.toNat / 4 ≠ 0 ∧ ((mxQ (rows 0x3000)).prt 0).ctxState ≠ 1 ∧
      (mxQ (rows 0x3000)).freeSlot 0 .drain = some 1) ∧
    ((mxQ out).drainHead 0 0 = some out ∧ out.rowNext ∈ out.released ∧ drainOut out.dword = some .f32 ∧ w out = true ∧
      w { out with dst := 0x40000000 } = false) ∧ (mxQ out).drainPoison 0 0 out 0 = false ∧
    { mxQ out with poison := List.range' ((mxQ out).drainFrom 0 0 out 0) 8 }.drainPoison 0 0 out 0 = true := by decide

theorem witness_EngineEvents_fabric :
    let g : MxFab := { mxf with granted := true, fetched := some ([], []) }
    let ok (f : MxFab) : Bool :=
      match ((mxfS f).fabFetch 0 ((mxfS f).region 0 1) f .i8).1 with | .ok _ => true | .error _ => false
    (∀ f ∈ [mxf, g], ((mxfS f).fabTile 0).isSome = true ∧ ok f = true) ∧ mxf.cluster = 0 ∧ mxf.canStep = true ∧
    g.granted = true ∧ g.fetched = some ([], []) := by decide

/-- Command 5 of handle 1, with its tables at 0x8000. -/
def acS (c : ACmd) : State := { tables (cmdS none) with acmds := [c] }
def acC : ACmd := { cmdOf with root := 0x8000, src := 0x1000, dst := 0x1200, len := 16 }

theorem witness_EngineEvents_async :
    let done (cnt : W64) : ACmd := { acC with ended := true, counter := cnt }
    let bad : ACmd := { acC with src := 0x40000000 }
    let coll : ACmd := { acC with op := 3, n := 2, gtag := 9, sent := true }
    let reads (c : ACmd) : Bool := match (acS c).agentRead c.agent c.src.toNat c.partLen with
      | .ok l => (match (acS c).engineWrite c.agent c.dst.toNat l with | .ok _ => true | _ => false) | _ => false
    let counted (c : ACmd) : Bool :=
      match (acS c).agentParts c.agent { rd := true, wr := true, counter := true } c.counter.toNat 8 with
      | .ok l => l.length == 1 | .error _ => false
    (acS acC).acmd 5 = some acC ∧ (acS acC).cmdRuns acC = true ∧ (acS acC).oldest acC = true ∧
    ((done 0).ended = true ∧ (done 0).status ≠ 1 ∧ (acS (done 0)).waiters = [] ∧ ((acS (done 0)).thread 0).life = (done 0).life ∧
      ((acS (done 0)).thread 0).st ≠ .empty ∧ ((done 0).handle, none) ∈ ((acS (done 0)).thread 0).cmds) ∧
    counted (done 0xFFFFFFFFFFF00008) = true ∧
    (cREVOKED ≠ cWAIT ∧ coll.rank < { coll with members := [0, 0] }.members.length) ∧
    (acC.ended = false ∧ acC.wait = false ∧ acC.op = 0 ∧ bitAt acC.aux1 24 = false ∧ bitAt acC.aux1 8 = false ∧
      reads acC = true ∧ reads bad = false) ∧
    (coll.op = 3 ∧ coll.ended = false ∧ coll.sent = true ∧ collOp coll = 0 ∧ fld coll.aux1 7 4 = 0 ∧ collRed coll = 0 ∧
      (∀ e ∈ coll.got, e.1 ≠ 1) ∧ coll.remotes (base 0).pkg = []) := by decide

/-! ### The machine as a whole -/

theorem witness_DecodeEncode :
    isThreadInstr (.addi 63 0 0x3FFF) = true ∧ WellFormed (.addi 63 0 0x3FFF) = true ∧
    decode 0x0BF03FFF = .ok (.addi 63 0 0x3FFF) := by decide

theorem witness_StepRunsDecoded :
    let s := base 0x08500008
    let th := s.thread 0
    let u : State := { (s.setCore 0 { s.core 0 with rot := 1, cycle := (s.core 0).cycle + 1 }) with
      cur := 1, due := 0, tid := 0 }
    let hit (w : Nat) : Option IcLine := ({ (base 0).clu 0 with icache := [⟨w, 0, false, 0, 0⟩] } : Cluster).icache.find?
      (fun x => x.line == (part 0x1000 4).pa / 128)
    u.lineThere 0 (part 0x1000 4) = true ∧
    u.lineHomes (part 0x1000 4) = [(part 0x1000 4).pa / 128 * 128, (part 0x1000 4).pa / 128 * 128 + 64] ∧
    hit ((part 0x1000 4).pa / 128) = some ⟨(part 0x1000 4).pa / 128, 0, false, 0, 0⟩ ∧
    { u with pwr := { isl := [(16, { stNow := 2 }), (36, { stNow := 2 })] } }.lineThere 0 (part 0x1000 4) = false ∧
    { u with poison := [(part 0x1000 4).pa] }.poisoned (part 0x1000 4).pa 4 = true ∧
    (match (u.setCore 0 { u.core 0 with tlb := [] }).xlate 0 .fetch 0x1000 4 with | .miss v => v == 0x1000 | _ => false) = true ∧
    s.agenda = [] ∧ s.resize = none ∧ s.coreRuns 0 = true ∧ s.nextSlot 0 (s.core 0).rot 16 0 = some (0, 0) ∧
    th.st = .ready ∧ th.uiReady = false ∧ u.xlate 0 .fetch (fetchAddr th.pc) 4 = .ok [part 0x1000 4] ∧
    u.poisoned (part 0x1000 4).pa 4 = false ∧ s.copies = [] ∧ (part 0x1000 4).pa % 4 = 0 ∧ (s.clu 0).icache = [] ∧
    decode (BitVec.ofNat 32 (s.readHome (part 0x1000 4).pa 4)) = .ok (.addi 5 0 8) ∧ th.pendReg (.addi 5 0 8) = false ∧
    decode (BitVec.ofNat 32 ((base 0).readHome (part 0x1000 4).pa 4)) = .error .unassignedMajor := by decide

theorem witness_StepRunsDecoded_faults_and_events :
    let s := thd (fun t => { t with pc := 0x0080000000000000 })
    let u : State := { (s.setCore 0 { s.core 0 with rot := 1, cycle := (s.core 0).cycle + 1 }) with cur := 1, tid := 0 }
    (match u.xlate 0 .fetch (fetchAddr (s.thread 0).pc) 4 with | .fault c _ _ => c == 5 | _ => false) = true ∧
    (let e := { base 0 with agenda := [.limiterStep 0 50], due := 1 }
     e.agenda = .limiterStep 0 50 :: [] ∧ e.due = 0 + 1) ∧
    WellFormed (.limiterStep 0 50) = true ∧ isEvent (.limiterStep 0 50) = true := by decide

theorem witness_StepKeepsMemory :
    Memory.wf (base 0x08500008).mem = true ∧ (base 0x08500008).mem ≠ [] ∧
    nextIs (step (base 0x08500008)) (fun t => t.g 5 == 8) = true := by decide

end Sys2Proof.Tests
end

section
/-!
SUPPORT. Folds; and waking: looking again at what may act changes the agenda and the extents of regions (R249,
log 1), and nothing else.
-/

namespace Sys2Proof.Machine

open Sys2Proof

/-- A relation that every step of a fold meets holds between the first state and the last. -/
theorem foldl_related {α β : Type} {R : α → α → Prop} (refl : ∀ s, R s s)
    (trans : ∀ {s t u}, R s t → R t u → R s u) {f : α → β → α} (hf : ∀ s b, R s (f s b)) (l : List β) (s : α) :
    R s (l.foldl f s) :=
  l.foldlRecOn f (refl s) (fun t h b _ => trans h (hf t b))

/-- A fold in which every step keeps a property, and the step of one entry of the list brings it about, ends
with it. -/
theorem foldl_establishes {α β : Type} {P : α → Prop} {f : α → β → α} {l : List β} {b : β} (hb : b ∈ l)
    (hset : ∀ s, P (f s b)) (hkeep : ∀ s c, P s → P (f s c)) (s : α) : P (l.foldl f s) := by
  obtain ⟨l₁, l₂, rfl⟩ := List.append_of_mem hb
  rw [List.foldl_append]
  exact l₂.foldlRecOn f (hset _) (fun t h c _ => hkeep t c h)

/-! ## What may act again -/

/-- `t` differs from `s` in the agenda and the regions' records only. -/
def WakesOnly (s t : State) : Prop := { t with agenda := s.agenda, regions := s.regions } = s

theorem WakesOnly.refl (s : State) : WakesOnly s s := rfl

theorem WakesOnly.trans {s t u : State} (h : WakesOnly s t) (k : WakesOnly t u) : WakesOnly s u := by
  unfold WakesOnly at *
  rw [← h, ← k]

theorem WakesOnly.mem {s t : State} (h : WakesOnly s t) : t.mem = s.mem := by
  rw [← h]
theorem WakesOnly.pwr {s t : State} (h : WakesOnly s t) : t.pwr = s.pwr := by
  rw [← h]

theorem WakesOnly.foldl {β : Type} {f : State → β → State} (hf : ∀ s b, WakesOnly s (f s b)) (l : List β)
    (s : State) : WakesOnly s (l.foldl f s) := foldl_related WakesOnly.refl WakesOnly.trans hf l s

theorem WakesOnly.ite {s t u : State} {c : Prop} [Decidable c] (h : WakesOnly s t) (k : WakesOnly s u) :
    WakesOnly s (if c then t else u) := by
  split
  · exact h
  · exact k

theorem State.post_wakes (s : State) (e : Instr) : WakesOnly s (s.post e) := rfl

theorem State.setRegion_wakes (s : State) (q sl : Nat) (r : Region) : WakesOnly s (s.setRegion q sl r) := rfl

theorem State.poke_wakes (s : State) (e : Instr) : WakesOnly s (s.poke e) :=
  .ite (.refl s) (s.post_wakes e)

theorem State.pokes_wakes (s : State) (es : List Instr) : WakesOnly s (s.pokes es) :=
  .foldl State.poke_wakes es s

theorem State.pokeCtx_wakes (s : State) (q : Nat) : WakesOnly s (s.pokeCtx q) := by
  unfold State.pokeCtx
  split
  case h_5 => exact .refl s
  all_goals exact s.post_wakes _

theorem State.pokeResize_wakes (s : State) : WakesOnly s s.pokeResize := by
  unfold State.pokeResize
  split
  · exact .refl s
  · split
    case h_4 | h_5 => exact s.pokes_wakes _
    all_goals exact s.poke_wakes _

theorem State.wakeSite_wakes (s : State) (q sl : Nat) (r : Region) (i : Nat) :
    WakesOnly s (s.wakeSite q sl r i) := s.pokes_wakes _

theorem State.wakeRegion_wakes (s : State) (q sl : Nat) : WakesOnly s (s.wakeRegion q sl) := by
  unfold State.wakeRegion
  extract_lets r
  generalize hp :
    (if s.regionRuns q r then (s.restore q r, s.setRegion q sl (s.restore q r)) else (r, s)) = p
  obtain ⟨r', s0⟩ := p
  have h0 : WakesOnly s s0 := by
    split at hp
    · cases hp; exact s.setRegion_wakes _ _ _
    · cases hp; exact .refl s
  dsimp -zeta only
  extract_lets s1 s2 s3 s4 s5 s6
  have h1 : WakesOnly s0 s1 := .foldl (fun t _ => t.wakeSite_wakes _ _ _ _) _ _
  have h2 : WakesOnly s1 s2 := .foldl (fun t _ => t.pokes_wakes _) _ _
  have h3 : WakesOnly s2 s3 := .foldl (fun t _ =>
    have h : WakesOnly t _ := .ite (t.poke_wakes _) (.refl t)
    .ite (h.trans (State.poke_wakes _ _)) h) _ _
  have h4 : WakesOnly s3 s4 := .foldl (fun t _ => t.pokes_wakes _) _ _
  have h5 : WakesOnly s4 s5 := .foldl (fun t _ => .ite (t.poke_wakes _) (.refl t)) _ _
  have h6 : WakesOnly s5 s6 := .foldl (fun t _ => .ite (.refl t) (t.pokes_wakes _)) _ _
  exact h0.trans (h1.trans (h2.trans (h3.trans (h4.trans (h5.trans (h6.trans (s6.pokes_wakes _)))))))

theorem State.wakePrt_wakes (s : State) (q : Nat) : WakesOnly s (s.wakePrt q) := by
  unfold State.wakePrt
  extract_lets p s1 s2 s3 s4 held s5 ms s6 s7 s8 s9 s10 s11
  have h1 : WakesOnly s s1 := .foldl (fun t _ => .ite (t.post_wakes _) (.refl t)) _ _
  have h2 : WakesOnly s1 s2 := .foldl (fun t _ => .ite (t.post_wakes _) (.refl t)) _ _
  have h3 : WakesOnly s2 s3 := .foldl (fun t _ => .ite (t.post_wakes _) (.refl t)) _ _
  have h4 : WakesOnly s3 s4 := s3.post_wakes _
  have h5 : WakesOnly s4 s5 := .foldl (fun t _ => .ite (.refl t) (t.post_wakes _)) _ _
  have h6 : WakesOnly s5 s6 := .foldl (fun t _ =>
    .trans (.ite (t.pokes_wakes _) (.refl t)) (.foldl (fun u _ => u.post_wakes _) _ _)) _ _
  have h7 : WakesOnly s6 s7 := .foldl (fun t _ => .foldl (fun u _ => u.post_wakes _) _ t) _ _
  have h8 : WakesOnly s7 s8 := .foldl (fun t _ => t.post_wakes _) _ _
  have h9 : WakesOnly s8 s9 := .foldl (fun t _ => t.post_wakes _) _ _
  have h10 : WakesOnly s9 s10 := .foldl (fun t _ => t.post_wakes _) _ _
  have h11 : WakesOnly s10 s11 := .foldl (fun t e => by
    have hw : WakesOnly t (if e.2.loaded then t.wakeRegion q (e.1 % 4096) else t) :=
      .ite (t.wakeRegion_wakes _ _) (.refl t)
    have ha := hw.trans (.ite (c := e.2.arming = true) (State.post_wakes _ (.regionArm q (e.1 % 4096))) (.refl _))
    exact ha.trans (.ite (State.post_wakes _ _) (.refl _))) _ _
  exact h1.trans (h2.trans (h3.trans (h4.trans (h5.trans (h6.trans (h7.trans (h8.trans (h9.trans
    (h10.trans (h11.trans (s11.pokeCtx_wakes q)))))))))))

theorem State.wakeAll_wakes (s : State) : WakesOnly s s.wakeAll :=
  .trans (.foldl (fun s _ => .ite (s.wakePrt_wakes _) (.refl s)) _ _) (State.pokeResize_wakes _)

end Sys2Proof.Machine
end

section
/-!
SUPPORT. Signals: an error of R58, a Tocsin or Clapper trigger (R70, R72) and the traffic of a Peal link (R39 to R44)
change the host interface's, the links' and the debug unit's registers with the agenda and the raised vectors. A
signal clears no error bit and no fatal mark, and queuing a flit leaves every link's state.
-/

namespace Sys2Proof.Machine

open Sys2Proof

theorem bitAt_eq_getLsbD {w : Nat} (x : BitVec w) (i : Nat) : bitAt x i = x.getLsbD i := by
  simp [bitAt, BitVec.getLsbD, Nat.testBit, Nat.shiftRight_eq_div_pow]

/-! ## Links read back -/

theorem State.link_setLink (s : State) (n m : Nat) (l : Link) :
    (s.setLink n l).link m = if m = n then l else s.link m := Tbl.look_put _ _ _ _ _

@[simp] theorem State.link_post (s : State) (e : Instr) (m : Nat) : (s.post e).link m = s.link m := rfl

@[simp] theorem State.link_leftUp (s : State) (n m : Nat) : (s.leftUp n).link m = s.link m := by
  unfold State.leftUp State.hifError
  split
  · split <;> rfl
  · rfl

/-- A link that is up has a record of its own. -/
theorem State.mem_links_of_up (s : State) (n : Nat) (h : (s.link n).up = true) :
    ∃ e ∈ s.lnk.links, e.1 = n := by
  have key : ∀ l : Tbl Link, (l.look {} n).up = true → ∃ e ∈ l, e.1 = n := by
    intro l
    induction l with
    | nil => exact fun h => nomatch (show false = true from h)
    | cons e r ih =>
      intro h
      by_cases he : e.1 = n
      · exact ⟨e, List.mem_cons_self, he⟩
      · obtain ⟨f, hf, hn⟩ := ih (by simpa [Tbl.look, he] using h)
        exact ⟨f, List.mem_cons_of_mem _ hf, hn⟩
  exact key _ h

/-! ## What signals leave alone -/

/-- `t` differs from `s` in the agenda, the raised vectors and the registers of the host interface, the links
and the debug unit only. -/
def SignalsOnly (s t : State) : Prop :=
  { t with agenda := s.agenda, irqs := s.irqs, hif := s.hif, lnk := s.lnk, dbg := s.dbg, snap := s.snap } = s

theorem SignalsOnly.refl (s : State) : SignalsOnly s s := rfl

theorem SignalsOnly.trans {s t u : State} (h : SignalsOnly s t) (k : SignalsOnly t u) : SignalsOnly s u := by
  unfold SignalsOnly at *
  rw [← h, ← k]

theorem SignalsOnly.mem {s t : State} (h : SignalsOnly s t) : t.mem = s.mem := by
  rw [← h]

theorem State.hifError_signals (s : State) (b : Nat) : SignalsOnly s (s.hifError b) := by
  unfold State.hifError
  split <;> rfl

theorem State.pushOut_signals (s : State) (n : Nat) (f : Flit) : SignalsOnly s (s.pushOut n f) := rfl

/-! ## Signals that lose nothing -/

/-- `t` follows `s` by signals: no error bit and no fatal mark is cleared, and every link is in the state it
was in (R36, R58, R72). -/
structure Signals (s t : State) : Prop where
  only : SignalsOnly s t
  links : ∀ m, (t.link m).st = (s.link m).st
  errors : ∀ b, bitAt s.hif.errStat b = true → bitAt t.hif.errStat b = true
  fatal : s.dbg.fatal = true → t.dbg.fatal = true

theorem Signals.refl (s : State) : Signals s s := ⟨.refl s, fun _ => rfl, fun _ h => h, id⟩

theorem Signals.up {s t : State} (h : Signals s t) (m : Nat) : (t.link m).up = (s.link m).up := by
  unfold Link.up
  rw [h.links m]

theorem Signals.trans {s t u : State} (h : Signals s t) (k : Signals t u) : Signals s u where
  only := h.only.trans k.only
  links m := (k.links m).trans (h.links m)
  errors b hb := k.errors b (h.errors b hb)
  fatal hf := k.fatal (h.fatal hf)

theorem Signals.foldl {β : Type} {f : State → β → State} (hf : ∀ s b, Signals s (f s b)) (l : List β)
    (s : State) : Signals s (l.foldl f s) := foldl_related Signals.refl Signals.trans hf l s

/-- A change of the agenda, the vectors and the debug unit alone that clears no fatal mark. -/
theorem Signals.ofDebug (s : State) (ag : List Instr) (iq : List Irq) (d : Dbg) (sn : Snap)
    (h : s.dbg.fatal = true → d.fatal = true) :
    Signals s { s with agenda := ag, irqs := iq, dbg := d, snap := sn } :=
  ⟨rfl, fun _ => rfl, fun _ h => h, h⟩

theorem State.post_follows (s : State) (e : Instr) : Signals s (s.post e) := .ofDebug s _ _ _ _ id

theorem bitAt_or_two_pow (x : Byte) (b c : Nat) (hb : b < 8) :
    bitAt (x ||| BitVec.ofNat 8 (2 ^ b)) c = (bitAt x c || decide (b = c)) := by
  simp only [bitAt_eq_getLsbD, BitVec.getLsbD_or, BitVec.getLsbD_ofNat, Nat.testBit_two_pow]
  by_cases h : b = c
  · subst h; simp [hb]
  · simp [h]

/-- R58: the bit is set after the error, and no other is cleared. -/
theorem State.errStat_hifError (s : State) (b : Nat) (hb : b < 8) (c : Nat) :
    bitAt (s.hifError b).hif.errStat c = (bitAt s.hif.errStat c || decide (b = c)) := by
  unfold State.hifError
  split
  case isTrue h =>
    by_cases e : b = c
    · subst e; simp [h]
    · simp [e]
  case isFalse => exact bitAt_or_two_pow _ _ _ hb

theorem State.hifError_dbg (s : State) (b : Nat) : (s.hifError b).dbg = s.dbg := by
  unfold State.hifError
  split <;> rfl

theorem State.hifError_lnk (s : State) (b : Nat) : (s.hifError b).lnk = s.lnk := by
  unfold State.hifError
  split <;> rfl

theorem State.hifError_follows (s : State) (b : Nat) (hb : b < 8) : Signals s (s.hifError b) where
  only := s.hifError_signals b
  links m := by unfold State.link; rw [s.hifError_lnk]
  errors c hc := by rw [s.errStat_hifError b hb, hc]; rfl
  fatal hf := by rw [s.hifError_dbg]; exact hf

theorem State.leftUp_follows (s : State) (n : Nat) : Signals s (s.leftUp n) := by
  unfold State.leftUp
  split
  · exact s.hifError_follows 2 (by decide)
  · exact .refl s

/-- R58: a link that was up has set the error bit when it has left UP. -/
theorem State.leftUp_error (s : State) {n : Nat} (h : (s.link n).up = true) :
    bitAt (s.leftUp n).hif.errStat 2 = true := by
  unfold State.leftUp
  rw [if_pos h, s.errStat_hifError 2 (by decide)]
  exact Bool.or_true _

theorem leftUp_links_follows (s : State) : Signals s (s.lnk.links.foldl (fun s e => s.leftUp e.1) s) :=
  .foldl (fun t _ => t.leftUp_follows _) _ s

/-- Where some link is up, every link's leaving UP sets the error bit. -/
theorem leftUp_links_error (s : State) {n : Nat} (h : (s.link n).up = true) :
    bitAt (s.lnk.links.foldl (fun s e => s.leftUp e.1) s).hif.errStat 2 = true := by
  obtain ⟨e, he, rfl⟩ := s.mem_links_of_up n h
  refine foldl_establishes (P := fun t : State => (t.link e.1).up = true → bitAt t.hif.errStat 2 = true) he
    (fun t ht => ?_) (fun t c hk hc => ?_) s (by rw [(leftUp_links_follows s).up]; exact h)
  · exact t.leftUp_error (by rwa [t.link_leftUp] at ht)
  · exact (t.leftUp_follows c.1).errors 2 (hk (by rwa [t.link_leftUp] at hc))

theorem State.pushOut_follows (s : State) (n : Nat) (f : Flit) : Signals s (s.pushOut n f) where
  only := s.pushOut_signals n f
  links m := by
    unfold State.pushOut
    extract_lets l x
    rw [State.link_post, State.link_setLink]
    split
    case isTrue h => rw [h]
    case isFalse => rfl
  errors _ h := h
  fatal h := h

theorem State.propagate_follows (s : State) (p : Payload) : Signals s (s.propagate p) := by
  refine Signals.foldl (fun t e => ?_) _ s
  split
  · exact t.pushOut_follows _ _
  · exact .refl t

theorem State.propagate_dbg (s : State) (p : Payload) : (s.propagate p).dbg = s.dbg := by
  refine (foldl_related (R := fun s t : State => t.dbg = s.dbg) (fun _ => rfl) (fun h k => k.trans h)
    (fun t e => ?_) s.lnk.links s)
  split <;> rfl

/-! ## Clapper and Tocsin -/

theorem State.clapperAt_follows (s : State) (src : Nat) (die : Option Nat) : Signals s (s.clapperAt src die) := by
  unfold State.clapperAt
  split
  · extract_lets _ snap _ t u
    have h : Signals s u := .ofDebug s _ _ _ _ id
    split
    · exact h.trans (u.propagate_follows _)
    · exact h
  · exact .ofDebug s _ _ _ _ id

/-- A Clapper trigger leaves Tocsin's state and cause. -/
theorem State.clapperAt_tocsin (s : State) (src : Nat) (die : Option Nat) :
    (s.clapperAt src die).dbg.toc = s.dbg.toc ∧ (s.clapperAt src die).dbg.cause = s.dbg.cause := by
  unfold State.clapperAt
  split
  · extract_lets _ snap _ t u
    split
    · rw [State.propagate_dbg]; exact ⟨rfl, rfl⟩
    · exact ⟨rfl, rfl⟩
  · exact ⟨rfl, rfl⟩

/-- R72: what a trigger that halts does after Tocsin's state and cause are set. -/
theorem State.tocsin_reports (s : State) (die : Option Nat) :
    let t := if s.dbg.srcTocsin then s.clapperAt 3 die else s
    let u := if t.dbg.tocProp then t.propagate (.tocsin false) else t
    Signals s u ∧ u.dbg.toc = s.dbg.toc ∧ u.dbg.cause = s.dbg.cause := by
  intro t u
  have ht : Signals s t ∧ t.dbg.toc = s.dbg.toc ∧ t.dbg.cause = s.dbg.cause := by
    unfold t
    split
    · exact ⟨s.clapperAt_follows 3 die, s.clapperAt_tocsin 3 die⟩
    · exact ⟨.refl s, rfl, rfl⟩
  unfold u
  split
  · rw [State.propagate_dbg]
    exact ⟨ht.1.trans (t.propagate_follows _), ht.2⟩
  · exact ht

/-- What a Tocsin trigger does (R72): it signals; a fatal one sets the fatal mark; while Tocsin is RUNNING it
halts, with its cause. -/
structure Tocsins (s t : State) (cause : Nat) : Prop where
  signals : Signals s t
  fatal : cause = 4 → t.dbg.fatal = true
  halts : s.dbg.toc = .running → t.dbg.toc = .halting ∧ t.dbg.cause = cause

theorem State.tocsinAt_does (s : State) (cause : Nat) (die : Option Nat) :
    Tocsins s (s.tocsinAt cause die) cause := by
  unfold State.tocsinAt
  extract_lets _ a _ b c d
  have ha : Signals s a ∧ (cause = 4 → a.dbg.fatal = true) ∧ a.dbg.toc = s.dbg.toc := by
    unfold a
    split
    · exact ⟨.ofDebug s _ _ _ _ (fun _ => rfl), fun _ => rfl, rfl⟩
    · exact ⟨.refl s, fun h => absurd h ‹_›, rfl⟩
  obtain ⟨hs, hf, ht⟩ := ha
  split
  case isTrue h =>
    obtain ⟨hd, htoc, hcause⟩ := b.tocsin_reports die
    have hab : Signals a b := .ofDebug a _ _ _ _ id
    have had : Signals a (d.post .tocsinHalted) := hab.trans (hd.trans (d.post_follows _))
    exact ⟨hs.trans had, fun h4 => had.fatal (hf h4), fun _ => ⟨htoc, hcause⟩⟩
  case isFalse h =>
    have hne : s.dbg.toc ≠ .running := ht ▸ h
    split
    · exact ⟨hs.trans (.ofDebug a _ _ _ _ id), hf, fun h' => absurd h' hne⟩
    · exact ⟨hs, hf, fun h' => absurd h' hne⟩

theorem State.tocsin_does (s : State) (cause : Nat) : Tocsins s (s.tocsin cause) cause :=
  s.tocsinAt_does cause none

end Sys2Proof.Machine
end

section
/-!
SUPPORT. The power islands (R19 to R25): what a write of an island's record leaves, what each outcome of a register
write, a limiter step and a transition is, and which bytes power takes away.
-/

namespace Sys2Proof.Machine

open Sys2Proof

/-! ## Tables -/

theorem Tbl.look_filter {α : Type} (d : α) (p : Nat → Bool) (t : Tbl α) (k : Nat) :
    Tbl.look d (t.filter (fun e => p e.1)) k = if p k then t.look d k else d := by
  induction t with
  | nil => exact (ite_self d).symm
  | cons e r ih =>
    rw [List.filter_cons]
    by_cases hk : e.1 = k
    · subst hk
      by_cases hp : p e.1 = true <;> simp [Tbl.look, hp, ih]
    · by_cases hp : p e.1 = true <;> simp [Tbl.look, hp, hk, ih]

theorem Tbl.look_map {α β : Type} {d : α} {d' : β} {f : α → β} (hf : f d = d') (t : Tbl α) (k : Nat) :
    Tbl.look d' (t.map (fun e => (e.1, f e.2))) k = f (t.look d k) := by
  induction t with
  | nil => exact hf.symm
  | cons e r ih => by_cases hk : e.1 = k <;> simp [Tbl.look, hk, ih]

/-! ## Islands read back -/

@[simp] theorem State.island_setIsland (s : State) (n : Nat) (x : Island) : (s.setIsland n x).island n = x :=
  Tbl.look_put_self _ _ _ _

theorem State.island_setIsland_ne (s : State) {n m : Nat} (x : Island) (h : m ≠ n) :
    (s.setIsland n x).island m = s.island m := Tbl.look_put_ne _ _ _ h

theorem State.island_of_pwr {s t : State} (h : t.pwr = s.pwr) (n : Nat) : t.island n = s.island n := by
  unfold State.island
  rw [h]

/-- Island `n` meets `P`, and nothing else changed but the agenda. -/
def IslandBecomes (s : State) (n : Nat) (P : Island → Prop) (t : State) : Prop :=
  P (t.island n) ∧ (∀ m, m ≠ n → t.island m = s.island m) ∧ { t with pwr := s.pwr, agenda := s.agenda } = s

theorem islandBecomes_setIsland (s : State) (n : Nat) {P : Island → Prop} {x : Island} (h : P x) :
    IslandBecomes s n P (s.setIsland n x) :=
  ⟨(s.island_setIsland n x).symm ▸ h, fun _ hm => s.island_setIsland_ne x hm, rfl⟩

/-- A write of an island's record, alone. -/
theorem islandBecomes_eq (s : State) (n : Nat) (x : Island) : IslandBecomes s n (· = x) (s.setIsland n x) :=
  islandBecomes_setIsland s n rfl

/-! ## PWR_ISL_CTL (R21) -/

theorem State.islErr_badFreq (s : State) (n st : Nat) {f : Nat} (h : f < 30 ∨ 90 < f) : s.islErr n st f = 1 :=
  if_pos h

theorem State.islErr_badState (s : State) (n : Nat) {f : Nat} (h : 30 ≤ f) (h' : f ≤ 90) : s.islErr n 3 f = 2 := by
  unfold State.islErr
  rw [if_neg (by omega), if_pos rfl]

theorem State.islErr_owned (s : State) {n st f : Nat} (h : 30 ≤ f) (h' : f ≤ 90) (hst : st = 1 ∨ st = 2)
    (ho : s.islandOwned n = true) : s.islErr n st f = 3 := by
  unfold State.islErr
  rw [if_neg (by omega), if_neg (by omega), if_pos ⟨by omega, ho⟩]

/-- R25: after a thermal shutdown a write does nothing. -/
theorem pwrIslCtlWrite_tripped {s : State} (h : bitAt s.pwr.trip 63 = true) (n : Nat) (v : W32) :
    execPwrIslCtlWrite n v s = .next s := congrArg Host.Outcome.next (if_pos h)

section
variable {s : State} {n : Nat} {v : W32}

theorem pwrIslCtlWrite_refused {e : Nat} (ht : ¬ bitAt s.pwr.trip 63 = true)
    (h : s.islErr n (fld v 9 8) (fld v 6 0) = e) (he : e ≠ 0) :
    execPwrIslCtlWrite n v s = .next (s.setIsland n { s.island n with err := e }) := by
  subst h
  exact congrArg Host.Outcome.next ((if_neg ht).trans (if_pos he))

theorem pwrIslCtlWrite_queued (ht : ¬ bitAt s.pwr.trip 63 = true)
    (h : s.islErr n (fld v 9 8) (fld v 6 0) = 0) (hb : (s.island n).busy = true) :
    execPwrIslCtlWrite n v s =
      .next (s.setIsland n { s.island n with queued := some (fld v 9 8, fld v 6 0), err := 0 }) :=
  congrArg Host.Outcome.next ((if_neg ht).trans ((if_neg (not_not.2 h)).trans (if_pos hb)))

theorem pwrIslCtlWrite_accepted (ht : ¬ bitAt s.pwr.trip 63 = true)
    (h : s.islErr n (fld v 9 8) (fld v 6 0) = 0) (hb : (s.island n).busy = false) :
    execPwrIslCtlWrite n v s = .next (s.islAccept n (fld v 9 8) (fld v 6 0)) :=
  congrArg Host.Outcome.next ((if_neg ht).trans ((if_neg (not_not.2 h)).trans (if_neg (by rw [hb]; decide))))

end

/-- R21: an accepted write of another state begins a transition. -/
theorem State.islAccept_of_state_ne {s : State} {n st : Nat} (h : st ≠ (s.island n).stNow) (f : Nat) :
    s.islAccept n st f = (s.setIsland n
      { s.island n with freq := f, state := st, err := 0, busy := true }).post (.islandTransitionDone n) :=
  if_pos (.inl h)

/-! ## The limiter (R25) -/

/-- The record after one step of the limiter of island record `x`. -/
def Limited (x : Island) (temp : Nat) (hot : Bool) (y : Island) : Prop :=
  y.temp = some (BitVec.ofNat 8 temp) ∧ y.hot = hot ∧ y.freq = x.freq ∧ y.freqNow = min y.freq y.lim ∧
    y.throt = decide (y.freqNow < y.freq) ∧
    y.lim = if hot then min x.lim x.freqNow - 1 else if x.lim < x.freq then x.lim + 1 else 90

theorem Island.limit_limited (x : Island) (temp : Nat) (hot : Bool) :
    Limited x temp hot ({ x with temp := some (BitVec.ofNat 8 temp), hot := hot } : Island).limit :=
  ⟨rfl, rfl, rfl, rfl, rfl, rfl⟩

theorem thermalThrottle_limits (s : State) (n : Nat) {temp : Nat} (h : 100 ≤ temp) :
    Completes (.thermalThrottle n temp) s (IslandBecomes s n (Limited (s.island n) temp true)) := by
  refine ⟨_, rfl, islandBecomes_setIsland s n ?_⟩
  rw [if_pos h]
  exact (s.island n).limit_limited temp true

/-- R25: the step is downward from 100 °C, upward below 97 °C, and keeps its direction between. -/
theorem limiterStep_limits (s : State) (n temp : Nat) :
    Completes (.limiterStep n temp) s (IslandBecomes s n (Limited (s.island n) temp
      (if temp < 97 then false else (s.island n).hot || decide (100 ≤ temp)))) :=
  ⟨_, rfl, islandBecomes_setIsland s n ((s.island n).limit_limited temp _)⟩

/-! ## Power goes and returns (R20, R23) -/

theorem State.byteAt_of_mem {s t : State} (h : t.mem = s.mem) (a : Nat) : t.byteAt a = s.byteAt a := by
  unfold State.byteAt
  rw [h]

/-- Bytes that read zero read zero after a range has been zeroed. -/
theorem State.zeroRange_byteAt_zero {s : State} {a : Nat} (h : s.byteAt a = 0) (lo hi : Nat) :
    (s.zeroRange lo hi).byteAt a = 0 := by
  rw [s.byteAt_zeroRange, h, ite_self]

/-- R23: every byte of a memory tile of the island reads zero. -/
theorem State.clearSram_tiles (s : State) {n b k o : Nat} (hn : n % 20 < 8) (hb : b < 272)
    (hisl : blockIsland b = n) (hk : k < 16) (ho : o < 0x10000) :
    (s.clearSram n).byteAt (tileAddr (tileSite b k) + o) = 0 := by
  unfold State.clearSram
  rw [if_pos hn]
  refine foldl_establishes (P := (State.byteAt · _ = 0)) (List.mem_range.2 hb) (fun t => ?_)
    (fun t c h => ?_) s
  · rw [if_pos hisl]
    refine foldl_establishes (P := (State.byteAt · _ = 0)) (List.mem_range.2 hk) (fun u => ?_)
      (fun u c h => u.zeroRange_byteAt_zero h _ _) t
    rw [State.byteAt_zeroRange, if_pos ⟨Nat.le_add_right _ _, Nat.add_lt_add_left ho _⟩]
  · split
    · exact List.foldlRecOn (motive := (State.byteAt · _ = 0)) _ _ h
        (fun u hu _ _ => u.zeroRange_byteAt_zero hu _ _)
    · exact h

/-- R20, R23: a memory tile of an island that goes OFF reads zero. -/
theorem State.powerOff_tiles (s : State) {n b k o : Nat} (hn : n % 20 < 8) (hb : b < 272)
    (hisl : blockIsland b = n) (hk : k < 16) (ho : o < 0x10000) :
    (s.powerOff n).byteAt (tileAddr (tileSite b k) + o) = 0 := by
  unfold State.powerOff
  extract_lets i t its u v
  rw [if_pos hn]
  exact s.clearSram_tiles hn hb hisl hk ho

/-- R23: a memory tile of an island that comes back reads zero. -/
theorem State.powerOn_tiles (s : State) {n b k o : Nat} (hn : n % 20 < 8) (hb : b < 272)
    (hisl : blockIsland b = n) (hk : k < 16) (ho : o < 0x10000) :
    (s.powerOn n).byteAt (tileAddr (tileSite b k) + o) = 0 := by
  unfold State.powerOn
  rw [if_neg (by omega)]
  exact s.clearSram_tiles hn hb hisl hk ho

/-! ## The end of a transition (R21 to R23) -/

/-- What the end of a transition from `x` does to power. -/
def State.powerMoves (s : State) (n : Nat) (x : Island) : State :=
  if x.state = 2 ∧ x.stNow ≠ 2 then s.powerOff n
  else if x.stNow = 2 ∧ x.state ≠ 2 then s.powerOn n else s

theorem State.powerMoves_of_powered (s : State) (n : Nat) {x : Island} (h : x.state ≠ 2) (h' : x.stNow ≠ 2) :
    s.powerMoves n x = s := by
  unfold State.powerMoves
  rw [if_neg (fun k => h k.1), if_neg (fun k => h' k.1)]

theorem State.powerMoves_tiles (s : State) {n b k o : Nat} {x : Island}
    (hx : x.state = 2 ∧ x.stNow ≠ 2 ∨ x.stNow = 2 ∧ x.state ≠ 2) (hn : n % 20 < 8) (hb : b < 272)
    (hisl : blockIsland b = n) (hk : k < 16) (ho : o < 0x10000) :
    (s.powerMoves n x).byteAt (tileAddr (tileSite b k) + o) = 0 := by
  unfold State.powerMoves
  rcases hx with hoff | hon
  · rw [if_pos hoff]
    exact s.powerOff_tiles hn hb hisl hk ho
  · rw [if_neg (fun h => hon.2 h.1), if_pos hon]
    exact s.powerOn_tiles hn hb hisl hk ho

/-- With no write queued, the transition ends with the record in its new state and everything woken. -/
theorem islandTransitionDone_unqueued {s : State} {n : Nat} (hb : (s.island n).busy = true)
    (hq : (s.island n).queued = none) :
    execIslandTransitionDone n s = .next ((s.powerMoves n (s.island n)).setIsland n
      { (s.island n).settle with stNow := (s.island n).state, busy := false, queued := none }).wakeAll := by
  unfold execIslandTransitionDone State.powerMoves
  simp only [hb, hq]
  rfl

/-- R21 to R23: the record after the transition; memory, unless power went or came; the memory tiles, if it did. -/
theorem islandTransitionDone_completes {s : State} {n : Nat} (hb : (s.island n).busy = true)
    (hq : (s.island n).queued = none) :
    let x := s.island n
    Completes (.islandTransitionDone n) s (fun t =>
      t.island n = { x with freqNow := min x.freq x.lim, throt := decide (min x.freq x.lim < x.freq)
                            stNow := x.state, busy := false } ∧
      (x.state ≠ 2 → x.stNow ≠ 2 → t.mem = s.mem) ∧
      (x.state = 2 ∧ x.stNow ≠ 2 ∨ x.stNow = 2 ∧ x.state ≠ 2 → n % 20 < 8 → ∀ b < 272, blockIsland b = n →
        ∀ k < 16, ∀ o < 0x10000, t.byteAt (tileAddr (tileSite b k) + o) = 0)) := by
  intro x
  let u := (s.powerMoves n x).setIsland n { x.settle with stNow := x.state, busy := false, queued := none }
  have hwake := u.wakeAll_wakes
  have hmem : u.wakeAll.mem = (s.powerMoves n x).mem := hwake.mem
  refine ⟨u.wakeAll, islandTransitionDone_unqueued hb hq, ?_, fun h h' => ?_,
    fun hx hn b hb' hbn k hk o ho => ?_⟩
  · rw [State.island_of_pwr hwake.pwr, State.island_setIsland, ← hq]
    rfl
  · rw [hmem, s.powerMoves_of_powered n h h']
  · rw [State.byteAt_of_mem hmem]
    exact s.powerMoves_tiles hx hn hb' hbn hk ho

end Sys2Proof.Machine
end

section
/-!
SUPPORT. Reset, the thermal shutdown and the die bridge, and the obligations about them (R5, R20 to R25, R31, R80,
R111, R115, R214).
-/

namespace Sys2Proof.Machine

open Sys2Proof

/-- Memory of which only the host's own bytes are left. -/
theorem hostBytes_get (m : List Host.Cell) (a : Nat) :
    Memory.get (m.filter (fun c => isHost c.1)) a = if isHost a then Memory.get m a else 0 :=
  Tbl.look_filter 0 isHost m a

/-- R5, R80: what the fundamental reset leaves. -/
theorem fundamentalReset_completes (s : State) :
    Completes .fundamentalReset s (fun t => (∀ a, isHost a = false → t.byteAt a = 0) ∧ (∀ k, t.thread k = {}) ∧
      (∀ k, t.blkOwn.look {} k = {} ∧ t.cluOwn.look {} k = {} ∧ t.hbmOwn.look {} k = {}) ∧
      (∀ q, t.prt q = {}) ∧ (∀ k, t.island k = {}) ∧ (∀ k, t.link k = {}) ∧ t.dbg = {}) := by
  refine ⟨_, rfl, fun a ha => ?_, fun _ => rfl, fun _ => ⟨rfl, rfl, rfl⟩,
    fun _ => rfl, fun _ => rfl, fun _ => rfl, rfl⟩
  exact (hostBytes_get s.mem a).trans (if_neg (by rw [ha]; decide))

/-! ## THERMAL_SHUTDOWN (R25) -/

/-- The islands without power: all but the always-on ones. -/
def darkIslands (t : Tbl Island) : Tbl Island :=
  (List.range 40).foldl (fun (t : Tbl Island) i =>
    if i % 20 = 19 then t
    else
      let x : Island := t.look {} i
      t.put {} i { x with stNow := 2, busy := false, queued := none }) t

theorem darkIslands_off (t : Tbl Island) {i : Nat} (hi : i < 40) (h : i % 20 ≠ 19) :
    ((darkIslands t).look {} i).stNow = 2 := by
  refine foldl_establishes (P := fun t : Tbl Island => (t.look {} i).stNow = 2) (List.mem_range.2 hi)
    (fun u => ?_) (fun u j hu => ?_) t
  · rw [if_neg h]
    exact congrArg Island.stNow (Tbl.look_put_self _ _ _ _)
  · split
    · exact hu
    · rw [Tbl.look_put]
      split
      · rfl
      · exact hu

/-- A link that has lost its island's power: it is DOWN and holds no flit (R36, R44). -/
def Link.cut (l : Link) : Link := { l with st := .down, out := [], hold := [] }

/-- Every link of the package cut. -/
def cutLinks (t : Tbl Link) : Tbl Link := t.map (fun e => (e.1, e.2.cut))

theorem cutLinks_up (t : Tbl Link) (m : Nat) : ((cutLinks t).look {} m).up = false := by
  unfold cutLinks
  rw [Tbl.look_map (d := {}) (d' := {}) (f := Link.cut) rfl]
  rfl

/-- What a thermal shutdown signals: the error bit, the fatal Tocsin, and every link's leaving UP. -/
def State.shutdownSignals (s : State) : State :=
  let t := (s.hifError 6).tocsin 4
  t.lnk.links.foldl (fun s e => s.leftUp e.1) t

theorem State.shutdownSignals_spec (s : State) :
    Signals s s.shutdownSignals ∧ s.shutdownSignals.dbg.fatal = true ∧
      bitAt s.shutdownSignals.hif.errStat 6 = true ∧
      ∀ n, (s.link n).up = true → bitAt s.shutdownSignals.hif.errStat 2 = true := by
  have h6 := s.hifError_follows 6 (by decide)
  obtain ⟨htoc, hfatal, -⟩ := (s.hifError 6).tocsin_does 4
  have hleft := leftUp_links_follows ((s.hifError 6).tocsin 4)
  have hset : bitAt (s.hifError 6).hif.errStat 6 = true := by
    rw [s.errStat_hifError 6 (by decide)]
    exact Bool.or_true _
  exact ⟨h6.trans (htoc.trans hleft), hleft.fatal (hfatal rfl), (htoc.trans hleft).errors 6 hset,
    fun n hn => leftUp_links_error _ (n := n) (by rw [(h6.trans htoc).up]; exact hn)⟩

/-- The registers and the memory of the state after a thermal shutdown. -/
theorem thermalShutdown_next (s : State) (n : Nat) : ∃ t, exec (.thermalShutdown n) s = .next t ∧
    t.dbg = s.shutdownSignals.dbg ∧ t.hif = s.shutdownSignals.hif ∧
    t.pwr = { isl := darkIslands s.shutdownSignals.pwr.isl, trip := BitVec.ofNat 64 (2 ^ 63 + n % 64) } ∧
    t.lnk.links = cutLinks s.shutdownSignals.lnk.links ∧
    t.mem = s.shutdownSignals.mem.filter (fun c => isHost c.1) :=
  ⟨_, rfl, rfl, rfl, rfl, rfl, rfl⟩

/-- R25, R36, R58: what the shutdown leaves. -/
theorem thermalShutdown_completes (s : State) (n : Nat) :
    Completes (.thermalShutdown n) s (fun t => t.dbg.fatal = true ∧ bitAt t.hif.errStat 6 = true ∧
      t.pwr.trip = BitVec.ofNat 64 (2 ^ 63 + n % 64) ∧
      (∀ i < 40, i % 20 ≠ 19 → (t.island i).stNow = 2) ∧
      (∀ m, (t.link m).up = false) ∧
      ((∃ e ∈ s.lnk.links, (s.link e.1).up = true) → bitAt t.hif.errStat 2 = true) ∧
      ∀ a, t.byteAt a = if isHost a then s.byteAt a else 0) := by
  obtain ⟨hs, hfatal, h6, h2⟩ := s.shutdownSignals_spec
  obtain ⟨t, ht, hdbg, hhif, hpwr, hlinks, hmem⟩ := thermalShutdown_next s n
  have hisl : t.pwr.isl = darkIslands s.shutdownSignals.pwr.isl := by rw [hpwr]
  refine ⟨t, ht, ?_, ?_, congrArg Pwr.trip hpwr, fun i hi ha => ?_,
    fun m => ?_, fun ⟨e, _, he⟩ => ?_, fun a => ?_⟩
  · rw [hdbg]; exact hfatal
  · rw [hhif]; exact h6
  · unfold State.island
    rw [hisl]
    exact darkIslands_off _ hi ha
  · unfold State.link
    rw [hlinks]
    exact cutLinks_up _ m
  · rw [hhif]; exact h2 e.1 he
  · unfold State.byteAt
    rw [hmem, hs.only.mem]
    exact hostBytes_get s.mem a

/-! ## The die bridge (R31) -/

/-- R31, R58: what a failure of the bridge leaves. -/
theorem bridge_completes (s : State) :
    Completes .bridge s (fun t => t.dbg.fatal = true ∧ bitAt t.hif.errStat 7 = true ∧ t.mem = s.mem ∧
      (s.dbg.toc = .running → t.dbg.toc = .halting ∧ t.dbg.cause = 4)) := by
  let u : State := { s with lnk := { s.lnk with bridgeReplays := 0 } }
  obtain ⟨htoc, hfatal, hhalts⟩ := (u.hifError 7).tocsin_does 4
  refine ⟨_, rfl, hfatal rfl, htoc.errors 7 ?_, ?_, fun h => hhalts ?_⟩
  · rw [u.errStat_hifError 7 (by decide)]
    exact Bool.or_true _
  · exact htoc.only.mem.trans (u.hifError_signals 7).mem
  · rw [u.hifError_dbg]
    exact h

/-! ## The reset state (R115) -/

/-- R115: every counter of a partition that has no record is as new, at every level. -/
theorem State.cntr_reset (q lvl i : Nat) : State.reset.cntr q lvl i = {} := by
  unfold State.cntr Prt.cntr
  split <;> rfl

end Sys2Proof.Machine
end

section
open Sys2Proof Sys2Proof.Machine

/-- Settles O41: each clause is the lemma about its event; the frame of a signal and of waking (SignalsOnly,
WakesOnly) keeps memory and power where a clause says so. -/
theorem resetAndPower : Obligations.ResetAndPower := by
  intro s n temp v x st f becomes lim trips
  have bit63 : trips ↔ bitAt s.pwr.trip 63 = true := by rw [bitAt_eq_getLsbD]
  have write {P : State → Prop} {t : State} (h : execPwrIslCtlWrite n v s = .next t) (ht : P t) :
      Completes (.pwrIslCtlWrite n v) s P := ⟨t, h, ht⟩
  have refused {e : Nat} (ht : ¬ trips) (he : s.islErr n st f = e) (h0 : e ≠ 0) :
      Completes (.pwrIslCtlWrite n v) s (becomes (· = { x with err := e })) :=
    write (pwrIslCtlWrite_refused (mt bit63.2 ht) he h0) (islandBecomes_eq s n _)
  have step := limiterStep_limits s n temp
  refine ⟨fundamentalReset_completes s, fun ht => ?tripped, fun ht hf => ?badFreq, fun ht h30 h90 hst => ?badState,
    fun ht h30 h90 hst ho => ?owned, fun ht he hb => ?queued, fun ht he hb hst => ?accepted,
    fun hb hq => islandTransitionDone_completes hb hq, fun h => thermalThrottle_limits s n h, fun h => ?cool,
    fun h h' => ?between, fun h => ?hot, thermalShutdown_completes s n, ⟨_, rfl, rfl⟩, bridge_completes s⟩
  case tripped => exact write (pwrIslCtlWrite_tripped (bit63.1 ht) n v) rfl
  case badFreq => exact refused ht (s.islErr_badFreq n st hf) (by decide)
  case badState => exact refused ht (hst ▸ s.islErr_badState n h30 h90) (by decide)
  case owned => exact refused ht (s.islErr_owned h30 h90 hst ho) (by decide)
  case queued => exact write (pwrIslCtlWrite_queued (mt bit63.2 ht) he hb) (islandBecomes_eq s n _)
  case accepted =>
    refine write (pwrIslCtlWrite_accepted (mt bit63.2 ht) he hb) ?_
    rw [State.islAccept_of_state_ne hst]
    exact ⟨islandBecomes_eq s n _, rfl⟩
  case cool => rwa [if_pos h] at step
  case between => rwa [if_neg (by omega), decide_eq_false (by omega), Bool.or_false] at step
  case hot => rwa [if_neg (by omega), decide_eq_true h, Bool.or_true] at step

/-- Settles O59: every table of the reset state is empty, so every unit reads as its reset value. -/
theorem resetState : Obligations.ResetState :=
  ⟨rfl, fun _ => rfl, fun _ => ⟨rfl, rfl, rfl, rfl, rfl, rfl⟩, fun _ => ⟨rfl, rfl, rfl⟩, rfl, rfl,
    fun q lvl i => State.cntr_reset q lvl i ▸ ⟨rfl, rfl, rfl, rfl⟩, fun _ => rfl, fun _ => rfl, rfl⟩

end

section
/-!
SUPPORT. Routing (R42, R44): to queue a flit at a link that is up, to drop one and to send a notice of it change the
agenda, the queues and the drop counts of links, and nothing else; a link that is not up keeps its queue.
-/

namespace Sys2Proof.Machine

open Sys2Proof

/-! ## Links read back -/

@[simp] theorem State.link_setLink_self (s : State) (n : Nat) (l : Link) : (s.setLink n l).link n = l :=
  Tbl.look_put_self _ _ _ _

theorem State.link_setLink_ne (s : State) {n m : Nat} (l : Link) (h : m ≠ n) :
    (s.setLink n l).link m = s.link m := Tbl.look_put_ne _ _ _ h

theorem State.link_linkDrop (s : State) (n m : Nat) :
    (s.linkDrop n).link m =
      if m = n then { s.link n with drops := min 0xFFFF ((s.link n).drops + 1) } else s.link m :=
  s.link_setLink n m _

theorem State.link_pushOut (s : State) (n : Nat) (f : Flit) : ∃ x : Queued, x.flit = f ∧ ∀ m,
    (s.pushOut n f).link m = if m = n then { s.link n with out := (s.link n).out ++ [x] } else s.link m :=
  ⟨_, rfl, fun m => State.link_setLink _ n m _⟩

/-! ## The route of a flit -/

theorem State.domainPrt_congr {s t : State} (hp : t.prts = s.prts) (d : Nat) : t.domainPrt d = s.domainPrt d := by
  unfold State.domainPrt
  rw [hp]

theorem State.rtEntry_congr {s t : State} (hp : t.prts = s.prts) (hb : t.lnk.base = s.lnk.base) (f : Flit) :
    t.rtEntry f = s.rtEntry f := by
  unfold State.rtEntry State.prt
  rw [State.domainPrt_congr hp, hp, hb]

theorem State.route_congr {s t : State} (hp : t.prts = s.prts) (hb : t.lnk.base = s.lnk.base)
    (hu : ∀ m, (t.link m).up = (s.link m).up) (f : Flit) : t.route f = s.route f := by
  simp only [State.route, State.rtEntry_congr hp hb, hu]

theorem State.route_up {s : State} {f : Flit} {k : Nat} (h : s.route f = some k) : (s.link k).up = true := by
  unfold State.route at h
  extract_lets e at h
  split_ifs at h with hv hl ha
  · cases h; exact hl
  · cases h; exact (Bool.and_eq_true_iff.1 ha).2

theorem State.alternate_up {s : State} {x : Queued} {k : Nat} (h : s.alternate x = some k) :
    (s.link k).up = true := by
  unfold State.alternate at h
  split_ifs at h with ha
  cases h
  exact (Bool.and_eq_true_iff.1 ha).2

/-! ## What routing leaves alone -/

/-- `t` differs from `s` in the agenda, the count of queued flits, and the queues and drop counts of links only; a
link that is not up keeps its queue. -/
structure Routes (s t : State) : Prop where
  only : { t with agenda := s.agenda, lnk := { t.lnk with links := s.lnk.links, queued := s.lnk.queued } } = s
  links : ∀ m, t.link m = { s.link m with out := (t.link m).out, drops := (t.link m).drops }
  idle : ∀ m, (s.link m).up = false → (t.link m).out = (s.link m).out

section
variable {s t u : State}

theorem Routes.refl (s : State) : Routes s s := ⟨rfl, fun _ => rfl, fun _ _ => rfl⟩

theorem Routes.mem (h : Routes s t) : t.mem = s.mem := by
  rw [← h.only]
theorem Routes.hif (h : Routes s t) : t.hif = s.hif := by
  rw [← h.only]
theorem Routes.prts (h : Routes s t) : t.prts = s.prts := by
  rw [← h.only]
theorem Routes.base (h : Routes s t) : t.lnk.base = s.lnk.base := by
  rw [← h.only]

theorem Routes.up (h : Routes s t) (m : Nat) : (t.link m).up = (s.link m).up := by
  unfold Link.up
  rw [h.links m]

theorem Routes.route (h : Routes s t) (f : Flit) : t.route f = s.route f :=
  State.route_congr h.prts h.base h.up f

theorem Routes.trans (h : Routes s t) (k : Routes t u) : Routes s u where
  only := by rw [← h.only, ← k.only]
  links m := (k.links m).trans (by rw [h.links m])
  idle m hm := (k.idle m ((h.up m).trans hm)).trans (h.idle m hm)

theorem Routes.post (h : Routes s t) (e : Instr) : Routes s (t.post e) := ⟨h.only, h.links, h.idle⟩

theorem Routes.foldl {β : Type} {f : State → β → State} (hf : ∀ s b, Routes s (f s b)) (l : List β)
    (s : State) : Routes s (l.foldl f s) := foldl_related Routes.refl Routes.trans hf l s

end

/-- A new queue, for a link that is up, and a new drop count. -/
theorem routes_setLink (s : State) (n : Nat) (o : List Queued) (d : Nat)
    (h : (s.link n).up = false → o = (s.link n).out) :
    Routes s (s.setLink n { s.link n with out := o, drops := d }) where
  only := rfl
  links m := by
    by_cases hm : m = n
    · rw [hm, State.link_setLink_self]
    · rw [s.link_setLink_ne _ hm]
  idle m hup := by
    by_cases hm : m = n
    · subst hm; rw [State.link_setLink_self]; exact h hup
    · rw [s.link_setLink_ne _ hm]

theorem routes_setLink_of_up {s : State} {n : Nat} (h : (s.link n).up = true) (o : List Queued) :
    Routes s (s.setLink n { s.link n with out := o }) :=
  routes_setLink s n o _ (fun h' => absurd (h.symm.trans h') (by decide))

theorem State.linkDrop_routes (s : State) (n : Nat) : Routes s (s.linkDrop n) :=
  routes_setLink s n _ _ (fun _ => rfl)

theorem State.pushOut_routes {s : State} {n : Nat} (h : (s.link n).up = true) (f : Flit) :
    Routes s (s.pushOut n f) := by
  let q : State := { s with lnk := { s.lnk with queued := s.lnk.queued + 1 } }
  have hq : Routes s q := ⟨rfl, fun _ => rfl, fun _ _ => rfl⟩
  exact (hq.trans (routes_setLink_of_up (s := q) h _)).post _

/-! ## Notices and drops (R42) -/

/-- The notice of a flit's drop, to the package the flit came from. -/
def State.noticeOf (s : State) (f : Flit) : Flit :=
  mkFlit s.pkg f.src 0 .control (.notice (payloadOrigin f.payload))

section
variable {s : State} {f : Flit}

theorem sendNotice_home {req : Nat} (h : f.src = s.pkg) (hr : payloadOrigin f.payload = some req) :
    s.sendNotice f = s.post (.routeNotice req) := by
  unfold State.sendNotice
  rw [if_pos h, hr]

theorem sendNotice_home_none (h : f.src = s.pkg) (hr : payloadOrigin f.payload = none) : s.sendNotice f = s := by
  unfold State.sendNotice
  rw [if_pos h, hr]

theorem sendNotice_routed {k : Nat} (h : f.src ≠ s.pkg) (hk : s.route (s.noticeOf f) = some k) :
    s.sendNotice f = s.pushOut k (s.noticeOf f) := by
  unfold State.noticeOf at hk
  unfold State.sendNotice
  simp only [if_neg h, hk]
  rfl

theorem sendNotice_unrouted (h : f.src ≠ s.pkg) (hk : s.route (s.noticeOf f) = none) :
    s.sendNotice f = s.linkDrop (fld (s.rtEntry (s.noticeOf f)) 3 0) := by
  unfold State.noticeOf at hk
  unfold State.sendNotice
  simp only [if_neg h, hk]
  rfl

end

theorem State.sendNotice_routes (s : State) (f : Flit) : Routes s (s.sendNotice f) := by
  by_cases h : f.src = s.pkg
  · cases hr : payloadOrigin f.payload with
    | none => rw [sendNotice_home_none h hr]; exact .refl s
    | some req => rw [sendNotice_home h hr]; exact (Routes.refl s).post _
  · cases hk : s.route (s.noticeOf f) with
    | none => rw [sendNotice_unrouted h hk]; exact s.linkDrop_routes _
    | some k => rw [sendNotice_routed h hk]; exact State.pushOut_routes (State.route_up hk) _

theorem State.dropNoroute_routes (s : State) (arrived : Option Nat) (f : Flit) :
    Routes s (s.dropNoroute arrived f) := (s.linkDrop_routes _).trans (State.sendNotice_routes _ f)

theorem sendFlit_routed {s : State} {f : Flit} {k : Nat} (h : s.route f = some k) (arrived : Option Nat) :
    s.sendFlit arrived f = s.pushOut k f := by
  unfold State.sendFlit
  rw [h]

theorem State.sendFlit_routes (s : State) (arrived : Option Nat) (f : Flit) : Routes s (s.sendFlit arrived f) := by
  cases hk : s.route f with
  | none => unfold State.sendFlit; rw [hk]; exact s.dropNoroute_routes _ _
  | some k => rw [sendFlit_routed hk]; exact State.pushOut_routes (State.route_up hk) _

/-! ## A link that goes down (R44) -/

/-- A link in state `st` with nothing queued or held, and a fresh sequence. -/
def Link.emptied (l : Link) (st : LinkSt) : Link :=
  { enable := l.enable, st := st, peer := l.peer, replays := l.replays, drops := l.drops }

theorem State.dropLink_routes (s : State) (n : Nat) (st : LinkSt) :
    Routes ((s.leftUp n).setLink n ((s.link n).emptied st)) (s.dropLink n st) := by
  rw [← s.link_leftUp n n]
  refine Routes.foldl (fun t x => ?_) _ _
  cases ha : t.alternate x with
  | none => exact t.dropNoroute_routes _ _
  | some m => exact (routes_setLink_of_up (State.alternate_up ha) _).post _

/-- Its flits go elsewhere, and of the link itself only the drop count moves on. -/
theorem State.link_dropLink (s : State) (n : Nat) {st : LinkSt} (h : ({ st := st } : Link).up = false) :
    (s.dropLink n st).link n =
      { (s.link n).emptied st with drops := ((s.dropLink n st).link n).drops } := by
  have hr := s.dropLink_routes n st
  have hout := hr.idle n
  have hlink := hr.links n
  rw [State.link_setLink_self] at hout hlink
  rw [hout h] at hlink
  exact hlink

/-- R58: the link that was up has set the error bit. -/
theorem State.dropLink_error (s : State) {n : Nat} (h : (s.link n).up = true) (st : LinkSt) :
    bitAt (s.dropLink n st).hif.errStat 2 = true := by
  rw [(s.dropLink_routes n st).hif]
  exact s.leftUp_error h

end Sys2Proof.Machine
end

section
/-!
SUPPORT. The events of a link's state (R36, R39, R44, R46), the route tables of partitions (R43), and the obligation
about them.
-/

namespace Sys2Proof.Machine

open Sys2Proof

theorem completes_of_next {i : Instr} {s t : State} {P : State → Prop} (h : exec i s = .next t) (ht : P t) :
    Completes i s P := ⟨t, h, ht⟩

/-- Link `n` becomes `y`, and every other link stays as it is. -/
def LinkBecomes (s : State) (n : Nat) (y : Link) (t : State) : Prop :=
  t.link n = y ∧ ∀ m, m ≠ n → t.link m = s.link m

theorem linkBecomes_setLink (s : State) (n : Nat) (y : Link) : LinkBecomes s n y (s.setLink n y) :=
  ⟨s.link_setLink_self n y, fun _ h => s.link_setLink_ne y h⟩

/-! ## Enabling and disabling (R46) -/

theorem linkEnable_enables {s : State} {n : Nat} {v : W32} (hc : bitAt v 1 = false) (hv : bitAt v 0 = true)
    (he : (s.link n).enable = false) :
    Completes (.linkEnable n v) s (LinkBecomes s n
      { s.link n with enable := true, st := if s.linkPower n then .training else .down }) := by
  refine ⟨s.setLink n _, ?_, linkBecomes_setLink s n _⟩
  show execLinkEnable n v s = _
  unfold execLinkEnable
  simp only [hc, hv, he, Bool.false_eq_true, if_false, if_true]

theorem linkEnable_disables (s : State) (n : Nat) {v : W32} (hv : bitAt v 0 = false) :
    Completes (.linkEnable n v) s (fun t => (t.link n).enable = false ∧ (t.link n).st = .down ∧
      (t.link n).out = [] ∧ (t.link n).hold = []) := by
  let c := if bitAt v 1 then nextOr (execLinkClr n s) s else s
  let d := c.setLink n { c.link n with enable := false }
  refine completes_of_next (t := d.dropLink n .down) ?_ ?_
  · show execLinkEnable n v s = _
    unfold execLinkEnable
    simp only [hv, Bool.false_eq_true, if_false]
    rfl
  · rw [d.link_dropLink n (st := .down) rfl, State.link_setLink_self]
    exact ⟨rfl, rfl, rfl, rfl⟩

/-! ## Training (R36, R39) -/

/-- A list of flits goes out in its order, and nothing else happens. -/
theorem foldl_emitOut_flits (n : Nat) (xs : List Queued) (t : State) :
    xs.foldl (fun t x => t.emitOut (.flit n x.flit)) t =
      { t with outbox := t.outbox ++ xs.map (fun x => Out.flit n x.flit) } := by
  induction xs generalizing t with
  | nil => rw [List.map_nil, List.append_nil]; rfl
  | cons x xs ih =>
    rw [List.foldl_cons, ih, List.map_cons, List.append_cons]
    rfl

section
variable {s : State} {n lanes peer : Nat}

theorem linkTrainDone_ignored (h : (s.link n).st ≠ .training ∨ s.linkPower n = false) :
    Completes (.linkTrainDone n lanes peer) s (· = s) := by
  refine ⟨s, congrArg Host.Outcome.next (if_pos ?_), rfl⟩
  exact h.imp_right (fun hp => by rw [hp]; rfl)

variable (hst : (s.link n).st = .training) (hp : s.linkPower n = true)
include hst hp

/-- R36: the peer has this package's number, and the link goes down. -/
theorem linkTrainDone_dupid (hpeer : peer = s.pkg) :
    Completes (.linkTrainDone n lanes peer) s (fun t => (t.link n).st = .dupid ∧ (t.link n).peer = 0 ∧
      (t.link n).out = [] ∧ (t.link n).hold = []) := by
  let d := s.dropLink n .dupid
  refine completes_of_next (t := d.setLink n { d.link n with peer := 0 }) ?_ ?_
  · show execLinkTrainDone n lanes peer s = _
    unfold execLinkTrainDone
    simp only [hst, hp, hpeer, ne_eq, not_true_eq_false, Bool.not_true, Bool.false_eq_true, or_self, if_false, if_true]
    rfl
  · rw [State.link_setLink_self, s.link_dropLink n (st := .dupid) rfl]
    exact ⟨rfl, rfl, rfl, rfl⟩

/-- R36, R39: the link is up, and what it held is sent again. -/
theorem linkTrainDone_up (hpeer : peer ≠ s.pkg) :
    Completes (.linkTrainDone n lanes peer) s (fun t =>
      LinkBecomes s n { s.link n with
        st := if lanes = 8 then .up8 else .up4, peer := peer
        replays := min 0xFFFF ((s.link n).replays + (s.link n).hold.length) } t ∧
      t.outbox = s.outbox ++ (s.link n).hold.map (fun x => Out.flit n x.flit)) := by
  let y : Link := { s.link n with
    st := if lanes = 8 then .up8 else .up4, peer := peer
    replays := min 0xFFFF ((s.link n).replays + (s.link n).hold.length) }
  let u := s.setLink n y
  refine ⟨State.post { u with outbox := u.outbox ++ (s.link n).hold.map (fun x => Out.flit n x.flit) }
    (.flitTransmit n), ?_, linkBecomes_setLink s n y, rfl⟩
  rw [← foldl_emitOut_flits]
  show execLinkTrainDone n lanes peer s = _
  unfold execLinkTrainDone
  simp only [hst, hp, hpeer, ne_eq, not_true_eq_false, Bool.not_true, Bool.false_eq_true, or_self, if_false]
  rfl

end

/-! ## A link leaves UP (R39, R44) -/

theorem linkDown_drops (s : State) (n : Nat) :
    Completes (.linkDown n) s (fun t => (t.link n).out = [] ∧ (t.link n).hold = [] ∧
      (t.link n).st = (if (s.link n).enable then .training else .down) ∧
      ((s.link n).up = true → bitAt t.hif.errStat 2 = true)) := by
  have hst : ({ st := if (s.link n).enable then .training else .down } : Link).up = false := by
    split <;> rfl
  refine completes_of_next rfl ?_
  rw [s.link_dropLink n hst]
  exact ⟨rfl, rfl, rfl, fun h => s.dropLink_error h _⟩

theorem linkRetrain_trains {s : State} {n : Nat} (h : (s.link n).up = true) :
    Completes (.linkRetrain n) s (fun t =>
      LinkBecomes s n { s.link n with
        st := .training, hold := (s.link n).hold.map (fun x => { x with tries := 0 }) } t ∧
      bitAt t.hif.errStat 2 = true) := by
  refine ⟨_, congrArg Host.Outcome.next (if_pos h), ⟨State.link_setLink_self _ _ _, fun m hm => ?_⟩,
    s.leftUp_error h⟩
  rw [State.link_setLink_ne _ _ hm, State.link_leftUp]

/-! ## Masks and domains of partitions (R43, R46) -/

/-- A valid route entry names links of the mask only. -/
def Admits (mask : BitVec 16) (e : W32) : Prop :=
  bitAt e 9 = true → bitAt mask (fld e 3 0) = true ∧ (bitAt e 8 = true → bitAt mask (fld e 7 4) = true)

theorem admits_of_invalid {mask : BitVec 16} {e : W32} (h : bitAt e 9 = false) : Admits mask e :=
  fun h' => absurd (h.symm.trans h') (by decide)

theorem bitAt_clearValid (e : W32) : bitAt (e &&& ~~~0x200) 9 = false := by
  rw [bitAt_eq_getLsbD, BitVec.getLsbD_and]
  exact Bool.and_false _

/-- R43: what an entry reads after the mask has changed. -/
def maskedEntry (mask : BitVec 16) (e : W32) : W32 :=
  if (bitAt e 9 && !bitAt mask (fld e 3 0)) || (bitAt e 8 && !bitAt mask (fld e 7 4)) then e &&& ~~~0x200 else e

theorem admits_maskedEntry (mask : BitVec 16) (e : W32) : Admits mask (maskedEntry mask e) := by
  unfold maskedEntry
  split
  case isTrue => exact admits_of_invalid (bitAt_clearValid e)
  case isFalse h =>
    intro h9
    simpa only [h9, Bool.true_and, Bool.or_eq_true, Bool.and_eq_true, Bool.not_eq_true', not_or, not_and,
      Bool.not_eq_false] using h

/-- A table built of values that meet `P` from an empty one whose default meets it reads as `P` everywhere. -/
theorem Tbl.look_rebuilt {α β : Type} [DecidableEq α] {P : α → Prop} {d : α} (hd : P d) (k : β → Nat)
    (f : β → α) (hf : ∀ b, P (f b)) (l : List β) (j : Nat) :
    P ((l.foldl (fun (t : Tbl α) b => t.put d (k b) (f b)) []).look d j) := by
  refine l.foldlRecOn (motive := fun t : Tbl α => P (t.look d j)) _ hd (fun t ht b _ => ?_)
  rw [Tbl.look_put]
  split
  · exact hf b
  · exact ht

theorem execLnkLinkmaskWrite_eq (s : State) (q : Nat) (v : W32) :
    execLnkLinkmaskWrite q v s = .next (s.setPrt q { s.prt q with
      linkMask := BitVec.ofNat 16 v.toNat
      rt := (s.prt q).rt.foldl (fun (t : Tbl W32) e => t.put 0 e.1 (maskedEntry (BitVec.ofNat 16 v.toNat) e.2)) [] }) :=
  rfl

theorem lnkLinkmaskWrite_masks (s : State) (q : Nat) (v : W32) :
    Completes (.lnkLinkmaskWrite q v) s (fun t => (t.prt q).linkMask = v.setWidth 16 ∧
      ∀ k, Admits (t.prt q).linkMask ((t.prt q).rt.look 0 k)) := by
  refine completes_of_next (execLnkLinkmaskWrite_eq s q v) ?_
  rw [State.prt_setPrt]
  exact ⟨BitVec.ofNat_toNat .., Tbl.look_rebuilt (P := Admits _) (admits_of_invalid rfl) Prod.fst
    (fun e => maskedEntry _ e.2) (fun e => admits_maskedEntry _ e.2) _⟩

theorem lnkPrtRtWrite_writes (s : State) (q cls dst : Nat) (v : W32) :
    let p := s.prt q
    Completes (.lnkPrtRtWrite q cls dst v) s (fun t => (t.prt q).rt.look 0 (rtKey cls dst) =
      if (bitAt v 9 && !bitAt p.linkMask (fld v 3 0)) || (bitAt v 8 && !bitAt p.linkMask (fld v 7 4))
      then p.rt.look 0 (rtKey cls dst) ||| 0x80000000 else v &&& 0x3FF) := by
  refine completes_of_next rfl ?_
  rw [State.prt_setPrt]
  exact Tbl.look_put_self _ _ _ _

theorem lnkDomainWrite_writes (s : State) (q : Nat) (v : W32) :
    Completes (.lnkDomainWrite q v) s (fun t => t.prt q =
      if bitAt v 31 = true ∧ fld v 11 0 = 0 then s.prt q
      else { s.prt q with domValid := bitAt v 31, domain := v.setWidth 12 }) := by
  refine completes_of_next rfl ?_
  split
  · rfl
  · rw [State.prt_setPrt, BitVec.ofNat_toNat]

end Sys2Proof.Machine
end

section
open Sys2Proof Sys2Proof.Machine

/-- Settles O44: each clause is the lemma about its event; a link that leaves UP is not up while its flits are routed
again, so none of them comes back to it (Routes). -/
theorem linkStates : Obligations.LinkStates := by
  intro s n lanes peer q cls dst v l p becomes
  exact ⟨⟨_, rfl, rfl⟩, ⟨_, rfl, linkBecomes_setLink s n _⟩, linkEnable_enables, linkEnable_disables s n,
    linkTrainDone_ignored, linkTrainDone_dupid, linkTrainDone_up, linkDown_drops s n, linkRetrain_trains,
    lnkPrtRtWrite_writes s q cls dst v, lnkLinkmaskWrite_masks s q v, lnkDomainWrite_writes s q v⟩

end

section
/-!
SUPPORT. A flit goes out (R37, R39, R40), and one that arrives is refused or taken in sequence (R39).
-/

namespace Sys2Proof.Machine

open Sys2Proof

section
variable {s : State} {n : Nat}

/-! ## The output of a link (R40, R45) -/

theorem mayLeave_of_credit {x : Queued} (hc : 0 < (s.link n).cr x.flit.cls) (ho : s.overtakes n x = false) :
    s.mayLeave n x = true := by
  unfold State.mayLeave
  rw [decide_eq_true hc, ho]
  rfl

theorem mayLeave_of_stalled {x : Queued} (h : (s.link n).cr x.flit.cls = 0 ∨ s.overtakes n x = true) :
    s.mayLeave n x = false := by
  unfold State.mayLeave
  rcases h with hc | ho
  · rw [decide_eq_false (by omega), Bool.false_and]
  · rw [ho, Bool.not_true, Bool.and_false]

/-- The round robin serves no one while no flit may leave. -/
theorem linkPick_stalled (h : ∀ x ∈ (s.link n).out, s.mayLeave n x = false) : s.linkPick n = none := by
  have ready (k : Nat) : (s.link n).out.any (fun x =>
      decide (x.flit.cls ≠ .control) && x.part == k && s.mayLeave n x) = false := by
    refine List.any_eq_false.2 (fun x hx => ?_)
    rw [h x hx, Bool.and_false]
    decide
  have unserved (l : List Nat) : l.find? (fun _ => false) = none := List.find?_eq_none.2 (fun _ _ => Bool.false_ne_true)
  unfold State.linkPick
  simp only [ready, Bool.false_eq_true, false_and, if_false, Bool.and_false, unserved, Option.map_none]

/-- Nothing goes out of a link of which no flit may leave. -/
theorem flitTransmit_stalled (h : ∀ x ∈ (s.link n).out, s.mayLeave n x = false) :
    execFlitTransmit n s = .next s := by
  have hfind : (s.link n).out.find? (fun x => decide (x.flit.cls = .control) && s.mayLeave n x) = none :=
    List.find?_eq_none.2 (fun x hx => by rw [h x hx, Bool.and_false]; decide)
  unfold execFlitTransmit
  simp only [hfind, linkPick_stalled h, ite_self]

theorem flitTransmit_unpowered (h : s.linkPower n = false) : execFlitTransmit n s = .next s :=
  congrArg Host.Outcome.next (if_pos (.inr (.inr (by rw [h]; rfl))))

/-- A CONTROL flit at the head that may leave goes first. -/
theorem flitTransmit_control {y : Queued} {ys : List Queued} (hup : (s.link n).up = true)
    (hp : s.linkPower n = true) (hh : (s.link n).hold.length < 512) (hout : (s.link n).out = y :: ys)
    (hcls : y.flit.cls = .control) (hmay : s.mayLeave n y = true) :
    execFlitTransmit n s = .next (s.transmit n y) := by
  have hgo : ¬ (!(s.link n).up ∨ 512 ≤ (s.link n).hold.length ∨ !s.linkPower n) := by
    rw [hup, hp]
    simpa using hh
  have hfind : (s.link n).out.find? (fun x => decide (x.flit.cls = .control) && s.mayLeave n x) = some y := by
    rw [hout]
    exact List.find?_cons_of_pos (by rw [hcls, hmay]; decide)
  unfold execFlitTransmit
  simp only [if_neg hgo, hfind]

/-- R37, R39: the flit's next number, one credit fewer, and the flit is held. -/
theorem transmit_control {y : Queued} {ys : List Queued} (hout : (s.link n).out = y :: ys)
    (hcls : y.flit.cls = .control) :
    let l := s.link n
    let g := { y.flit with seq := l.nextSeq, ack := (l.expect + 1023) % 1024, ackv := true, nak := false }
    (s.transmit n y).link n = { l with
      out := ys, hold := l.hold ++ [{ y with flit := g, tries := 0 }]
      nextSeq := (l.nextSeq + 1) % 1024, cr2 := min 16 (l.cr2 - 1) } ∧
    (s.transmit n y).outbox = s.outbox ++ [.flit n g] := by
  refine ⟨(State.link_setLink_self _ _ _).trans ?_, rfl⟩
  simp only [hcls, Link.setCr, Link.cr, hout, List.erase_cons_head]

/-! ## Refused flits (R39) -/

theorem flitReceive_unpowered (h : s.linkPower n = false) (f : Flit) (ok : Bool) :
    execFlitReceive n f ok s = .next s :=
  congrArg Host.Outcome.next (if_pos (.inr (by rw [h]; rfl)))

theorem flitReceive_refused {f : Flit} {ok : Bool} (hup : (s.link n).up = true) (hp : s.linkPower n = true)
    (h : ok = false ∨ f.seq ≠ (s.link n).expect) :
    execFlitReceive n f ok s = .next (s.emitCtl n true 0 .control) := by
  refine congrArg Host.Outcome.next ((if_neg ?_).trans (if_pos ?_))
  · rw [hup, hp]; decide
  · exact h.imp (fun h => by rw [h]; rfl) .inr

theorem emitCtl_nak (s : State) (n : Nat) (c : FClass) :
    ∃ g, g.nak = true ∧ s.emitCtl n true 0 c = { s with outbox := s.outbox ++ [.flit n g] } := ⟨_, rfl, rfl⟩

/-! ## Flits in sequence (R39, R40, log 48) -/

/-- A DATA flit that passes every check of R39 and carries no acknowledgement and no credits. -/
structure InSequence (s : State) (n : Nat) (f : Flit) : Prop where
  up : (s.link n).up = true
  power : s.linkPower n = true
  formed : flitFormed f = true
  data : f.type = .data
  noAck : f.ackv = false
  noCredits : f.credits = 0
  noNak : f.nak = false
  next : f.seq = (s.link n).expect

/-- The flit is taken: the expected number goes on, and the flit's credit goes back. -/
def State.take (s : State) (n : Nat) (f : Flit) : State :=
  (((s.setLink n (s.link n)).post (.flitTransmit n)).setLink n
    { s.link n with expect := ((s.link n).expect + 1) % 1024 }).emitCtl n false 1 f.cls

theorem link_take (s : State) (n m : Nat) (f : Flit) :
    (s.take n f).link m =
      if m = n then { s.link n with expect := ((s.link n).expect + 1) % 1024 } else s.link m := by
  refine (State.link_setLink _ n m _).trans ?_
  rw [State.link_post, State.link_setLink]
  split <;> rfl

theorem route_take (s : State) (n : Nat) (f g : Flit) : (s.take n f).route g = s.route g := by
  refine State.route_congr (s := s) (t := s.take n f) rfl rfl (fun m => ?_) g
  rw [link_take]
  split
  case isTrue h => rw [h]; rfl
  case isFalse => rfl

/-- R39, R42: the flit is taken, then delivered, dropped or sent on. -/
theorem flitReceive_inSequence {f : Flit} (h : InSequence s n f) :
    execFlitReceive n f true s = .next (
      if f.dst = s.pkg then (s.take n f).deliverFlit n f
      else if f.hops ≤ 1 then (s.take n f).dropNoroute (some n) f
      else (s.take n f).sendFlit (some n) { f with hops := f.hops - 1 }) := by
  have hgo : ¬ (!(s.link n).up ∨ !s.linkPower n) := by
    rw [h.up, h.power]
    decide
  have hok : ¬ (!true ∨ !flitFormed f ∨ f.seq ≠ (s.link n).expect) := by
    rw [h.formed, h.next]
    simp
  refine congrArg Host.Outcome.next ((if_neg hgo).trans ((if_neg hok).trans ?_))
  simp only [h.data, h.noAck, h.noCredits, h.noNak, Bool.false_eq_true, if_false,
    Nat.lt_irrefl, State.link_post, State.link_setLink_self, h.up, Bool.not_true]
  rfl

end

/-! ## Hops spent (R42) -/

section
variable {s : State} {f : Flit}

theorem dropNoroute_home {req : Nat} (n : Nat) (h : f.src = s.pkg) (hr : payloadOrigin f.payload = some req) :
    s.dropNoroute (some n) f = (s.linkDrop n).post (.routeNotice req) :=
  sendNotice_home (s := s.linkDrop n) h hr

theorem dropNoroute_routed {k : Nat} (n : Nat) (h : f.src ≠ s.pkg) (hk : s.route (s.noticeOf f) = some k) :
    s.dropNoroute (some n) f = (s.linkDrop n).pushOut k (s.noticeOf f) :=
  sendNotice_routed (s := s.linkDrop n) h (((s.linkDrop_routes n).route _).trans hk)

theorem dropNoroute_unrouted (n : Nat) (h : f.src ≠ s.pkg) (hk : s.route (s.noticeOf f) = none) :
    s.dropNoroute (some n) f = (s.linkDrop n).linkDrop (fld (s.rtEntry (s.noticeOf f)) 3 0) :=
  sendNotice_unrouted (s := s.linkDrop n) h (((s.linkDrop_routes n).route _).trans hk)

theorem drops_pushOut (s : State) (n : Nat) (f : Flit) (m : Nat) :
    ((s.pushOut n f).link m).drops = (s.link m).drops := by
  obtain ⟨x, -, hx⟩ := s.link_pushOut n f
  rw [hx]
  split
  case isTrue h => rw [h]
  case isFalse => rfl

theorem drops_linkDrop_self (s : State) (n : Nat) :
    ((s.linkDrop n).link n).drops = min 0xFFFF ((s.link n).drops + 1) := by
  rw [s.link_linkDrop, if_pos rfl]

theorem link_linkDrop_ne (s : State) {n m : Nat} (h : m ≠ n) : (s.linkDrop n).link m = s.link m := by
  rw [s.link_linkDrop, if_neg h]

/-- The drop counts once at the link the flit arrived on, unless its notice is dropped there too. -/
theorem dropNoroute_counts {n : Nat}
    (h : f.src = s.pkg ∨ s.route (s.noticeOf f) ≠ none ∨ fld (s.rtEntry (s.noticeOf f)) 3 0 ≠ n) :
    ((s.dropNoroute (some n) f).link n).drops = min 0xFFFF ((s.link n).drops + 1) := by
  rw [← drops_linkDrop_self]
  by_cases hs : f.src = s.pkg
  · cases hr : payloadOrigin f.payload with
    | none => exact congrArg (fun t : State => (t.link n).drops) (sendNotice_home_none (s := s.linkDrop n) hs hr)
    | some req => rw [dropNoroute_home n hs hr, State.link_post]
  · cases hk : s.route (s.noticeOf f) with
    | none =>
      have hm := (h.resolve_left hs).resolve_left (not_not.2 hk)
      rw [dropNoroute_unrouted n hs hk, link_linkDrop_ne _ hm.symm]
    | some k => rw [dropNoroute_routed n hs hk, drops_pushOut]

theorem dropNoroute_queues_notice {k : Nat} (n : Nat) (hs : f.src ≠ s.pkg)
    (hk : s.route (s.noticeOf f) = some k) :
    ∃ x ∈ ((s.dropNoroute (some n) f).link k).out, x.flit = s.noticeOf f := by
  obtain ⟨x, hx, hlink⟩ := (s.linkDrop n).link_pushOut k (s.noticeOf f)
  refine ⟨x, ?_, hx⟩
  rw [dropNoroute_routed n hs hk, hlink, if_pos rfl]
  exact List.mem_append_right _ List.mem_cons_self

theorem dropNoroute_counts_notice {n : Nat} (hs : f.src ≠ s.pkg) (hk : s.route (s.noticeOf f) = none)
    (hm : fld (s.rtEntry (s.noticeOf f)) 3 0 ≠ n) :
    ((s.dropNoroute (some n) f).link (fld (s.rtEntry (s.noticeOf f)) 3 0)).drops =
      min 0xFFFF ((s.link (fld (s.rtEntry (s.noticeOf f)) 3 0)).drops + 1) := by
  rw [dropNoroute_unrouted n hs hk, drops_linkDrop_self, link_linkDrop_ne _ hm]

end

/-- R42: a flit whose hops are spent is taken, dropped and counted, with a notice to its source. -/
theorem flitReceive_spent {s : State} {n : Nat} {f : Flit} (h : InSequence s n f) (hd : f.dst ≠ s.pkg)
    (hh : f.hops ≤ 1) (req : Nat) :
    Completes (.flitReceive n f true) s (fun t =>
      let g := mkFlit s.pkg f.src 0 .control (.notice (payloadOrigin f.payload))
      let m := fld (s.rtEntry g) 3 0
      (t.link n).expect = ((s.link n).expect + 1) % 1024 ∧
      (f.src = s.pkg ∨ s.route g ≠ none ∨ m ≠ n → (t.link n).drops = min 0xFFFF ((s.link n).drops + 1)) ∧
      (payloadOrigin f.payload = some req → f.src = s.pkg → .routeNotice req ∈ t.agenda) ∧
      (∀ k, f.src ≠ s.pkg → s.route g = some k → ∃ x ∈ (t.link k).out, x.flit = g) ∧
      (f.src ≠ s.pkg → s.route g = none → m ≠ n → (t.link m).drops = min 0xFFFF ((s.link m).drops + 1))) := by
  have hroute (g : Flit) : (s.take n f).route g = s.route g := route_take s n f g
  have hlink : (s.take n f).link n = { s.link n with expect := ((s.link n).expect + 1) % 1024 } := by
    rw [link_take, if_pos rfl]
  refine completes_of_next ((flitReceive_inSequence h).trans (by rw [if_neg hd, if_pos hh])) ?_
  intro g m
  refine ⟨?_, fun hc => ?_, fun hr hs => ?_, fun k hs hk => ?_, fun hs hk hm => ?_⟩
  · rw [((s.take n f).dropNoroute_routes (some n) f).links n, hlink]
  · rw [← hroute] at hc
    rw [dropNoroute_counts (s := s.take n f) hc, hlink]
  · rw [dropNoroute_home (s := s.take n f) n hs hr]
    exact List.mem_append_right _ List.mem_cons_self
  · exact dropNoroute_queues_notice (s := s.take n f) n hs ((hroute g).trans hk)
  · refine (dropNoroute_counts_notice (s := s.take n f) hs ((hroute g).trans hk) hm).trans ?_
    rw [link_take]
    exact congrArg (fun l : Link => min 0xFFFF (l.drops + 1)) (if_neg hm)

end Sys2Proof.Machine
end

section
/-!
SUPPORT. What a flit does where it arrives: messages (R382), route notices (R42) and requests of other packages (R45,
R392); and the obligation about traffic.
-/

namespace Sys2Proof.Machine

open Sys2Proof

/-! ## Messages (R136, R382) -/

theorem deliverFlit_message {s : State} {n q k req hops : Nat} {f : Flit} {name core sender : W32} {w0 w1 : W64}
    (hp : f.payload = .message name core w0 w1 sender req hops) (hq : s.domainPrt (fld f.tag 11 0) = some q)
    (hc : s.coreOf q core = some k) :
    s.deliverFlit n f = s.sendMsg { id := 0, prt := q, name := name, w0 := w0, w1 := w1, core := k, hops := hops
                                    sender := none, site := sender, asid := 0, root := 0
                                    remote := some (f.src, req), ret := 0 } := by
  unfold State.deliverFlit State.receiveMsg
  simp only [hp, hq, hc]

theorem flitReceive_message {s : State} {n q k req hops : Nat} {f : Flit} {name core sender : W32} {w0 w1 : W64}
    (h : InSequence s n f) (hd : f.dst = s.pkg) (hp : f.payload = .message name core w0 w1 sender req hops)
    (hq : s.domainPrt (fld f.tag 11 0) = some q) (hc : s.coreOf q core = some k) :
    Completes (.flitReceive n f true) s (fun t =>
      t.link n = { s.link n with expect := ((s.link n).expect + 1) % 1024 } ∧
      ∃ m, t.msgs = s.msgs ++ [m] ∧ m.prt = q ∧ m.name = name ∧ m.core = k ∧ m.hops = hops ∧ m.w0 = w0 ∧
        m.w1 = w1 ∧ m.site = sender ∧ m.remote = some (f.src, req)) := by
  have hlink := link_take s n n f
  rw [if_pos rfl] at hlink
  refine completes_of_next ((flitReceive_inSequence h).trans
    (by rw [if_pos hd, deliverFlit_message (s := s.take n f) hp hq hc])) ?_
  exact ⟨hlink, _, rfl, rfl, rfl, rfl, rfl, rfl, rfl, rfl, rfl⟩

/-! ## Route notices (R42) -/

/-- A command that has ended is found with its status. -/
theorem acmd_endCmd (s : State) (c : ACmd) (status cause : Nat) (v : W64) {d : ACmd}
    (h : (s.endCmd c status cause v).acmd c.id = some d) : d.ended = true ∧ d.status = status := by
  have hid : d.id = c.id := by simpa using List.find?_some h
  obtain ⟨x, -, hx⟩ := List.mem_map.1 (List.mem_of_find?_eq_some h)
  split at hx
  case isTrue => subst hx; exact ⟨rfl, rfl⟩
  case isFalse hne => subst hx; exact absurd hid hne

theorem routeNotice_ends {s : State} {req id : Nat} {x : RReq} {c : ACmd}
    (hx : s.lnk.reqs.find? (fun y => y.id == req) = some x) (hcmd : x.cmd = some id) (hc : s.acmd id = some c)
    (hid : c.id = id) :
    Completes (.routeNotice req) s (fun t => ∀ d, t.acmd id = some d → d.ended = true ∧ d.status = 4) := by
  let u : State := { s with lnk := { s.lnk with reqs := s.lnk.reqs.filter (fun y => y.id != req) } }
  have hu : u.acmd id = some c := hc
  refine completes_of_next (t := u.endCmd c 4 0 0) ?_ (fun d hd => acmd_endCmd u c 4 0 0 (hid ▸ hd))
  show execRouteNotice req s = _
  unfold execRouteNotice
  simp only [hx, hcmd]
  rw [hu]

/-! ## Requests of other packages (R45, R392) -/

theorem answer_routed {s : State} {src domain req k : Nat} {b : List Byte} {cause : Nat}
    (h : s.route (mkFlit s.pkg src domain (if b.isEmpty then .lowLatency else .bulk) (.reply req b cause)) = some k) :
    s.answer src domain req b cause =
      s.pushOut k (mkFlit s.pkg src domain (if b.isEmpty then .lowLatency else .bulk) (.reply req b cause)) :=
  sendFlit_routed h none

theorem answer_mem (s : State) (src domain req : Nat) (b : List Byte) (cause : Nat) :
    (s.answer src domain req b cause).mem = s.mem := (s.sendFlit_routes none _).mem

section
variable {s : State} {src domain q root va req : Nat} {asid : W16} (hq : s.domainPrt domain = some q)
  (hr : s.rootOf q asid = some root)
include hq hr

theorem remoteRead_answers {len : Nat} {b : List Byte} (hb : s.agentRead ⟨q, root, true, none⟩ va len = .ok b) :
    execRemoteMemoryRequest src domain (.read asid va len req) s = .next (s.answer src domain req b 0) := by
  unfold execRemoteMemoryRequest
  simp only [hq, hr, Option.bind_some, Option.map_some, hb]

theorem remoteWrite_answers {data : List Byte} {u : State}
    (hu : s.engineWrite ⟨q, root, true, none⟩ va data = .ok u) :
    execRemoteMemoryRequest src domain (.write asid va data req) s = .next (u.answer src domain req [] 0) := by
  unfold execRemoteMemoryRequest
  simp only [hq, hr, Option.bind_some, Option.map_some, hu]

theorem remoteRead_completes {len k : Nat} {b : List Byte}
    (hb : s.agentRead ⟨q, root, true, none⟩ va len = .ok b)
    (hk : s.route (mkFlit s.pkg src domain (if b.isEmpty then .lowLatency else .bulk) (.reply req b 0)) = some k) :
    Completes (.remoteMemoryRequest src domain (.read asid va len req)) s (fun t => t.mem = s.mem ∧
      ∃ x, (t.link k).out = (s.link k).out ++ [x] ∧
        x.flit = mkFlit s.pkg src domain (if b.isEmpty then .lowLatency else .bulk) (.reply req b 0)) := by
  refine completes_of_next (remoteRead_answers hq hr hb) ⟨answer_mem .., ?_⟩
  obtain ⟨x, hx, hlink⟩ := s.link_pushOut k
    (mkFlit s.pkg src domain (if b.isEmpty then .lowLatency else .bulk) (.reply req b 0))
  refine ⟨x, ?_, hx⟩
  rw [answer_routed hk, hlink, if_pos rfl]

theorem remoteWrite_completes {data : List Byte} {u : State}
    (hu : s.engineWrite ⟨q, root, true, none⟩ va data = .ok u) :
    Completes (.remoteMemoryRequest src domain (.write asid va data req)) s (fun t => t.mem = u.mem) :=
  completes_of_next (remoteWrite_answers hq hr hu) (answer_mem ..)

end

end Sys2Proof.Machine
end

section
open Sys2Proof Sys2Proof.Machine

/-- Settles O45: each clause is the lemma about its event; what a flit in sequence does rests on the state that has
taken it (State.take), and the frame of routing (Routes) keeps memory and every link's own state. -/
theorem linkTraffic : Obligations.LinkTraffic := by
  intro s n req src domain q k va len f name core sender w0 w1 asid data x c id hops y ys l seqd ask
  have inSeq : seqd → InSequence s n f := fun ⟨hup, hp, hform, hdata, hack, hcr, hnak, hseq⟩ =>
    ⟨hup, hp, hform, hdata, hack, hcr, hnak, hseq⟩
  refine ⟨fun hup hp hh hout hcls hcr ho => ?control, fun hout h => ?stalled,
    fun hp => ⟨⟨s, flitTransmit_unpowered hp, rfl⟩, ⟨s, flitReceive_unpowered hp f true, rfl⟩⟩,
    fun hup hp => ⟨_, flitReceive_refused hup hp (.inl rfl), emitCtl_nak s n .control⟩,
    fun hup hp hseq => ⟨_, flitReceive_refused hup hp (.inr hseq), emitCtl_nak s n .control⟩,
    fun h hd hh => flitReceive_spent (inSeq h) hd hh req,
    fun h hd hp hq hc => flitReceive_message (inSeq h) hd hp hq hc,
    routeNotice_ends, fun root b hq hr => ⟨fun hb hk => remoteRead_completes hq hr hb hk,
      fun u hu => remoteWrite_completes hq hr hu⟩⟩
  case control =>
    have hmay : s.mayLeave n y = true := mayLeave_of_credit (by rw [hcls]; exact hcr) ho
    exact ⟨_, flitTransmit_control hup hp hh hout hcls hmay, transmit_control hout hcls⟩
  case stalled =>
    refine ⟨s, flitTransmit_stalled (fun z hz => ?_), rfl⟩
    rw [hout, List.mem_singleton] at hz
    exact hz ▸ mayLeave_of_stalled h

end

section
/-!
SUPPORT. Clapper and Tocsin as the host and other packages drive them (R69 to R75): what a trigger latches or counts,
and what each command of Tocsin leaves.
-/

namespace Sys2Proof.Machine

open Sys2Proof

theorem WakesOnly.dbg {s t : State} (h : WakesOnly s t) : t.dbg = s.dbg := by
  rw [← h]

theorem SignalsOnly.threads {s t : State} (h : SignalsOnly s t) : t.threads = s.threads := by
  rw [← h]
theorem SignalsOnly.tid {s t : State} (h : SignalsOnly s t) : t.tid = s.tid := by
  rw [← h]

theorem SignalsOnly.thr {s t : State} (h : SignalsOnly s t) : t.thr = s.thr := by
  unfold State.thr State.thread
  rw [h.threads, h.tid]

theorem State.propagate_snap (s : State) (p : Payload) : (s.propagate p).snap = s.snap := by
  refine foldl_related (R := fun s t : State => t.snap = s.snap) (fun _ => rfl) (fun h k => k.trans h)
    (fun t e => ?_) s.lnk.links s
  split <;> rfl

/-! ## Clapper (R69, R70) -/

/-- R70: a taken trigger disarms, latches every record and raises the count of triggers. -/
theorem State.clapperAt_armed {s : State} (h : s.dbg.arm = true) (src : Nat) (die : Option Nat) :
    (s.clapperAt src die).dbg = { s.dbg with arm := false, latched := true, seq := s.dbg.seq + 1, source := src } ∧
    (s.clapperAt src die).snap = { s.latch with die := die } := by
  unfold State.clapperAt
  rw [if_pos h]
  extract_lets _ snap _ t u
  split
  · exact ⟨u.propagate_dbg _, u.propagate_snap _⟩
  · exact ⟨rfl, rfl⟩

/-- R70: a trigger while ARM is 0 is counted as missed. -/
theorem State.clapperAt_unarmed {s : State} (h : s.dbg.arm = false) (src : Nat) (die : Option Nat) :
    s.clapperAt src die = { s with dbg := { s.dbg with missed := min 255 (s.dbg.missed + 1) } } :=
  if_neg (by rw [h]; decide)

/-- What a trigger of no die does, taken or not. -/
theorem State.clapper_triggers (s : State) (src : Nat) :
    (s.clapper src).mem = s.mem ∧
    (s.dbg.arm = true → (s.clapper src).dbg.arm = false ∧ (s.clapper src).dbg.latched = true ∧
      (s.clapper src).dbg.seq = s.dbg.seq + 1 ∧ (s.clapper src).dbg.source = src ∧ (s.clapper src).snap = s.latch) ∧
    (s.dbg.arm = false →
      s.clapper src = { s with dbg := { s.dbg with missed := min 255 (s.dbg.missed + 1) } }) := by
  refine ⟨(s.clapperAt_follows src none).only.mem, fun h => ?_, fun h => s.clapperAt_unarmed h src none⟩
  obtain ⟨hd, hs⟩ := s.clapperAt_armed h src none
  unfold State.clapper
  rw [hd]
  exact ⟨rfl, rfl, rfl, rfl, hs⟩

/-- R69: without FIRE a write of SNP_CTL sets the sources and ARM; arming clears LATCHED. -/
theorem clapperArm_sets {v : W32} (h : bitAt v 8 = false) (s : State) :
    execClapperArm v s = .next { s with dbg := { s.dbg with
      clapProp := bitAt v 7, srcTocsin := bitAt v 3, srcEvent := bitAt v 2, srcSnap := bitAt v 1
      arm := bitAt v 0, latched := !bitAt v 0 && s.dbg.latched } } := by
  unfold execClapperArm
  simp only [h, Bool.false_eq_true, if_false]
  cases bitAt v 0 <;> rfl

/-! ## SNAP (R69, R416) -/

/-- Writing a register after signals is the access that took it: the thread is as it was. -/
theorem SignalsOnly.fin_took {s u : State} (h : SignalsOnly s u) (g : GReg) (x : W64) : Took s (u.fin g x) g x := by
  have hw := fin_wrote u g x
  have hg (n : GReg) : u.g n = s.g n := congrArg (fun t : Thread => t.readG n) h.thr
  refine ⟨?_, fun n => (hw.regs n).trans (by rw [hg])⟩
  have hr := hw.rest
  have hword : (u.fin g x).thr.word = s.thr.word := by rw [hr, h.thr]; rfl
  have hz : s.thr.fflags ||| 0 = s.thr.fflags := BitVec.or_zero
  rw [h.thr, hz] at hr
  rw [hword]
  exact hr

/-- SNAP where the partition and the package let it trigger. -/
theorem execSnap_on {s : State} (h : (bitAt (s.prt s.thr.prt).dbgctl 1 && s.dbg.srcSnap) = true) (g : GReg) :
    execSnap g s = .next ((s.clapperAt 1 (some (clusterDie (s.tid / 128)))).fin g (if s.dbg.arm then 1 else 0)) :=
  congrArg Host.Outcome.next (if_pos h)

theorem execSnap_off {s : State} (h : (bitAt (s.prt s.thr.prt).dbgctl 1 && s.dbg.srcSnap) = false) (g : GReg) :
    execSnap g s = .next (s.fin g 0) :=
  congrArg Host.Outcome.next (if_neg (by rw [h]; decide))

theorem snap_taken {s : State} (h : (bitAt (s.prt s.thr.prt).dbgctl 1 && s.dbg.srcSnap) = true)
    (ha : s.dbg.arm = true) (g : GReg) :
    Completes (.snap g) s (fun t => Took s t g 1 ∧ t.mem = s.mem ∧ t.dbg.seq = s.dbg.seq + 1 ∧ t.dbg.source = 1) := by
  have hs := (s.clapperAt_follows 1 (some (clusterDie (s.tid / 128)))).only
  have hd := (State.clapperAt_armed ha 1 (some (clusterDie (s.tid / 128)))).1
  refine completes_of_next ((execSnap_on h g).trans (by rw [if_pos ha])) ⟨hs.fin_took g 1, hs.mem, ?_, ?_⟩
  · exact congrArg Dbg.seq hd
  · exact congrArg Dbg.source hd

theorem snap_missed {s : State} (h : (bitAt (s.prt s.thr.prt).dbgctl 1 && s.dbg.srcSnap) = true)
    (ha : s.dbg.arm = false) (g : GReg) :
    Completes (.snap g) s (fun t => Took s t g 0 ∧ t.snap = s.snap) := by
  have hs := (s.clapperAt_follows 1 (some (clusterDie (s.tid / 128)))).only
  refine completes_of_next ((execSnap_on h g).trans (by rw [if_neg (by rw [ha]; decide)])) ⟨hs.fin_took g 0, ?_⟩
  exact (congrArg State.snap (State.clapperAt_unarmed ha 1 (some (clusterDie (s.tid / 128)))) :)

/-! ## Comparators (R71) -/

theorem dbgEvtWrite_ignored {v : W32} (h : fld v 30 29 = 3 ∨ fld v 23 22 = 3) (n : Nat) (s : State) :
    execDbgEvtWrite n v s = .next s := congrArg Host.Outcome.next (if_pos h)

theorem dbgEvtWrite_kept {v : W32} (ha : fld v 30 29 ≠ 3) (hs : fld v 23 22 ≠ 3) (n : Nat) (s : State) :
    Completes (.dbgEvtWrite n v) s (fun t =>
      t.dbg.evts.look {} n = { s.dbg.evts.look {} n with ctl := v &&& 0xE0C0FFFF } ∧
      ∀ m, m ≠ n → t.dbg.evts.look {} m = s.dbg.evts.look {} m) :=
  completes_of_next (congrArg Host.Outcome.next (if_neg (not_or.2 ⟨ha, hs⟩)))
    ⟨Tbl.look_put_self _ _ _ _, fun _ hm => Tbl.look_put_ne _ _ _ hm⟩

/-! ## Tocsin (R72, R75) -/

/-- R72: a trigger that is not fatal, sets Clapper off nowhere and goes to no other package, halts alone. -/
theorem State.tocsin_halts {s : State} {cause : Nat} (hc : cause ≠ 4) (h : s.dbg.toc = .running)
    (hs : s.dbg.srcTocsin = false) (hp : s.dbg.tocProp = false) :
    s.tocsin cause = ({ s with dbg := { s.dbg with toc := .halting, cause := cause } } : State).post .tocsinHalted := by
  unfold State.tocsin State.tocsinAt
  simp only [if_neg hc, if_pos h, hs, hp, Bool.false_eq_true, if_false]

theorem State.tocsin_ignored {s : State} {cause : Nat} (hc : cause ≠ 4) (h : s.dbg.toc ≠ .running) :
    s.tocsin cause = s := by
  unfold State.tocsin State.tocsinAt
  simp only [if_neg h, hc, false_and, if_false]

/-! ### Replies and traps held for halted threads (R73) -/

theorem Thread.setDest_lateTrap (t : Thread) (d : Dest) (x : V256) : (t.setDest d x).lateTrap = t.lateTrap := by
  unfold Thread.setDest
  split
  case h_2 => split <;> rfl
  all_goals rfl

theorem Thread.takeLate_lateTrap (t : Thread) : t.takeLate.lateTrap = t.lateTrap := by
  have h : (t.late.foldl (fun (u : Thread) r => u.setDest r.1 r.2) t).lateTrap = t.lateTrap :=
    foldl_related (R := fun t u : Thread => u.lateTrap = t.lateTrap) (fun _ => rfl) (fun h k => k.trans h)
      (fun u r => u.setDest_lateTrap r.1 r.2) t.late t
  unfold Thread.takeLate
  extract_lets t'
  split <;> exact h

/-- Where no thread has a trap held, taking what is held changes the threads alone. -/
theorem State.takeHeldReplies_of_no_trap {s : State} (h : ∀ e ∈ s.threads, e.2.lateTrap = none) :
    s.takeHeldReplies = s.takeLate := by
  have hl : ∀ e ∈ s.takeLate.threads, e.2.lateTrap = none := by
    intro e he
    obtain ⟨x, hx, rfl⟩ := List.mem_map.1 he
    dsimp only
    split
    · rw [Thread.takeLate_lateTrap]; exact h x hx
    · exact h x hx
  unfold State.takeHeldReplies
  refine List.foldlRecOn (motive := (· = s.takeLate)) _ _ rfl (fun u hu e he => ?_)
  rw [hl e he]
  exact hu

/-- Tocsin goes to `st`; the threads that run again take what is held for them, and everything is woken. -/
def State.tocsinWakes (s : State) (st : TocSt) : State :=
  ({ s with dbg := { s.dbg with toc := st } } : State).takeHeldReplies.wakeAll

theorem State.tocsinWakes_spec {s : State} (h : ∀ e ∈ s.threads, e.2.lateTrap = none) (st : TocSt) :
    (s.tocsinWakes st).dbg = { s.dbg with toc := st } ∧ (s.tocsinWakes st).mem = s.mem := by
  unfold State.tocsinWakes
  rw [State.takeHeldReplies_of_no_trap (by exact h)]
  exact ⟨(State.wakeAll_wakes _).dbg, (State.wakeAll_wakes _).mem⟩

theorem tocsinStep_steps {s : State} (h : s.dbg.toc = .halted) (hf : s.dbg.fatal = false) (hn : s.dbg.steps ≠ 0) :
    execTocsinStep s = .next (s.tocsinWakes .stepping) :=
  congrArg Host.Outcome.next (if_pos ⟨h, by rw [hf]; rfl, hn⟩)

theorem State.resume_runs {s : State} (h : s.dbg.toc = .halted) (hf : s.dbg.fatal = false)
    (hp : s.dbg.tocProp = false) (hl : ∀ e ∈ s.threads, e.2.lateTrap = none) : s.resume = s.tocsinWakes .running := by
  have hprop : ¬ (s.tocsinWakes .running).dbg.tocProp = true := by
    rw [(State.tocsinWakes_spec hl .running).1, hp]
    decide
  unfold State.resume
  rw [if_pos ⟨h, by rw [hf]; rfl⟩]
  exact if_neg hprop

theorem not_halted_of {s : State} (h : s.dbg.toc ≠ .halted ∨ s.dbg.fatal = true) :
    ¬ (s.dbg.toc = .halted ∧ (!s.dbg.fatal) = true) := by
  rintro ⟨ht, hf⟩
  rcases h with h | h
  · exact h ht
  · rw [h] at hf; exact absurd hf (by decide)

theorem State.resume_ignored {s : State} (h : s.dbg.toc ≠ .halted ∨ s.dbg.fatal = true) : s.resume = s :=
  if_neg (not_halted_of h)

theorem tocsinStep_ignored {s : State} (h : s.dbg.toc ≠ .halted ∨ s.dbg.fatal = true) : execTocsinStep s = .next s :=
  congrArg Host.Outcome.next (if_neg (fun k => not_halted_of h ⟨k.1, k.2.1⟩))

end Sys2Proof.Machine
end

section
open Sys2Proof Sys2Proof.Machine

/-- Settles O46: each clause is the lemma about its event; the frames of signals and of waking (Signals, WakesOnly)
keep memory and the debug unit's registers. -/
theorem debugEvents : Obligations.DebugEvents := by
  intro s n v d taken toc
  refine ⟨fun g => ?snap, ⟨_, rfl, s.clapper_triggers 0⟩, ⟨_, rfl, s.clapper_triggers 4⟩,
    fun h => ⟨_, clapperArm_sets h s, rfl⟩, fun h => ⟨_, dbgEvtWrite_ignored h n s, rfl⟩,
    fun ha hs => dbgEvtWrite_kept ha hs n s, fun h hs hp => ?halt, fun h => ?notRunning, fun h => ?halted,
    fun h => ?stepEnd, fun h hf hn hl => ?step, fun h hf hp hl => ?resume, fun h => ?ignored⟩
  case snap =>
    rw [← bitAt_eq_getLsbD]
    exact ⟨fun ho ha => snap_taken ho ha g, fun ho ha => snap_missed ho ha g,
      fun ho => ⟨_, execSnap_off ho g, fin_wrote s g 0⟩⟩
  case halt =>
    exact ⟨⟨_, congrArg Host.Outcome.next (State.tocsin_halts (by decide) h hs hp), rfl, rfl⟩,
      ⟨_, congrArg Host.Outcome.next (State.tocsin_halts (by decide) h hs hp), rfl, rfl⟩⟩
  case notRunning => exact ⟨_, rfl, State.tocsin_ignored (by decide) h⟩
  case halted => exact ⟨_, congrArg Host.Outcome.next (if_pos h), ⟨rfl, rfl⟩, rfl⟩
  case stepEnd => exact ⟨_, congrArg Host.Outcome.next (if_pos h), ⟨rfl, rfl⟩, rfl⟩
  case step => exact ⟨_, tocsinStep_steps h hf hn, State.tocsinWakes_spec hl .stepping⟩
  case resume =>
    have hr := State.resume_runs h hf hp hl
    have hspec := State.tocsinWakes_spec hl .running
    exact ⟨⟨_, congrArg Host.Outcome.next hr, hspec⟩, ⟨_, congrArg Host.Outcome.next hr, hspec⟩⟩
  case ignored => exact ⟨⟨_, rfl, State.resume_ignored h⟩, ⟨_, tocsinStep_ignored h, rfl⟩⟩

end

section
/-!
SUPPORT. Virtual functions (R50 to R55), function-level resets (R59) and the error bits (R58), and the obligation
about them.
-/

namespace Sys2Proof.Machine

open Sys2Proof

/-! ## Tables rebuilt entry by entry -/

/-- Entries put one after another into `t0`, each key once: a listed key reads as its own entry, another as before. -/
theorem Tbl.look_foldl_put {α : Type} [DecidableEq α] (d : α) (f : α → α) (l t0 : Tbl α)
    (hl : (l.map (·.1)).Nodup) (k : Nat) :
    (l.foldl (fun (t : Tbl α) e => t.put d e.1 (f e.2)) t0).look d k =
      if k ∈ l.map (·.1) then f (l.look d k) else t0.look d k := by
  induction l generalizing t0 with
  | nil => rfl
  | cons e r ih =>
    obtain ⟨i, x⟩ := e
    obtain ⟨hi, hr⟩ := List.nodup_cons.1 hl
    rw [List.foldl_cons, ih _ hr, Tbl.look_put]
    by_cases hk : i = k
    · subst hk
      have hi' : i ∉ r.map (·.1) := hi
      simp [Tbl.look, if_neg hi']
    · simp only [Tbl.look, List.map_cons, List.mem_cons, Ne.symm hk, hk, false_or, if_false]

/-- A key that no entry lists reads as the default. -/
theorem Tbl.look_of_not_mem {α : Type} (d : α) (t : Tbl α) {k : Nat} (h : k ∉ t.map (·.1)) : t.look d k = d := by
  induction t with
  | nil => rfl
  | cons e r ih =>
    simp only [List.map_cons, List.mem_cons, not_or] at h
    simp only [Tbl.look, if_neg (Ne.symm h.1), ih h.2]

/-- A table mapped entry by entry, where the default stays: every key reads as its mapped value. -/
theorem Tbl.look_remapped {α : Type} [DecidableEq α] {d : α} {f : α → α} (hf : f d = d) {l : Tbl α}
    (hl : (l.map (·.1)).Nodup) (k : Nat) :
    (l.foldl (fun (t : Tbl α) e => t.put d e.1 (f e.2)) []).look d k = f (l.look d k) := by
  rw [Tbl.look_foldl_put d f l [] hl]
  split
  case isTrue => rfl
  case isFalse h => rw [Tbl.look_of_not_mem d l h, hf]; rfl

/-! ## Virtual functions read back -/

@[simp] theorem State.vf_setVf (s : State) (n : Nat) (x : Vf) : (s.setVf n x).vf n = x := Tbl.look_put_self _ _ _ _

theorem State.vf_setVf_ne (s : State) {n m : Nat} (x : Vf) (h : m ≠ n) : (s.setVf n x).vf m = s.vf m :=
  Tbl.look_put_ne _ _ _ h

/-- Function `n` becomes `y`, and nothing else changed but the agenda and the host interface's other registers. -/
def VfBecomes (s : State) (n : Nat) (y : Vf) (t : State) : Prop :=
  t.vf n = y ∧ (∀ m, m ≠ n → t.vf m = s.vf m) ∧ { t with hif := s.hif, agenda := s.agenda } = s

theorem vfBecomes_setVf (s : State) (n : Nat) (y : Vf) : VfBecomes s n y (s.setVf n y) :=
  ⟨s.vf_setVf n y, fun _ h => s.vf_setVf_ne y h, rfl⟩

theorem VfBecomes.post {s t : State} {n : Nat} {y : Vf} (h : VfBecomes s n y t) (e : Instr) :
    VfBecomes s n y (t.post e) := h

/-! ## Bindings and doorbells (R50 to R55) -/

section
variable {s : State} {n : Nat} {w : W32}

theorem vfBindWrite_ignored
    (h : (s.vf n).enable = true ∧ (bitAt w 8 ≠ (s.vf n).port ∨ fld w 5 0 ≠ (s.vf n).prt) ∨
      bitAt w 31 = true ∧ s.bindOk (fld w 5 0) (s.vf n) = false) : execVfBindWrite n w s = .next s :=
  congrArg Host.Outcome.next (if_pos (h.imp_right (fun k => ⟨k.1, by rw [k.2]; rfl⟩)))

theorem vfBindWrite_binds
    (hsame : (s.vf n).enable = true → bitAt w 8 = (s.vf n).port ∧ fld w 5 0 = (s.vf n).prt)
    (hok : bitAt w 31 = true → s.bindOk (fld w 5 0) (s.vf n) = true) :
    Completes (.vfBindWrite n w) s (VfBecomes s n
      { s.vf n with enable := bitAt w 31, port := bitAt w 8, prt := fld w 5 0 }) := by
  have hgo : ¬ ((s.vf n).enable = true ∧ (bitAt w 8 ≠ (s.vf n).port ∨ fld w 5 0 ≠ (s.vf n).prt) ∨
      bitAt w 31 = true ∧ (!s.bindOk (fld w 5 0) (s.vf n)) = true) := by
    rintro (⟨he, hd⟩ | ⟨he, hb⟩)
    · exact hd.elim (fun k => k (hsame he).1) (fun k => k (hsame he).2)
    · rw [hok he] at hb; exact absurd hb (by decide)
  have hset := vfBecomes_setVf s n { s.vf n with enable := bitAt w 31, port := bitAt w 8, prt := fld w 5 0 }
  refine completes_of_next (congrArg Host.Outcome.next (if_neg hgo)) ?_
  split
  · exact hset.post _
  · exact hset

variable {port : Nat}

theorem doorbell_ignored (h : (s.vf n).enable = true ∧ b2n (s.vf n).port ≠ port ∨ s.hostPort port = false) :
    execDoorbell n port w s = .next s :=
  congrArg Host.Outcome.next (if_pos (h.imp_right (fun k => by rw [k]; rfl)))

/-- A doorbell reaches the function on a port that runs and that no binding in force turns away. -/
theorem doorbell_arrives (hp : s.hostPort port = true) (hv : (s.vf n).enable = true → b2n (s.vf n).port = port) :
    execDoorbell n port w s = .next (
      if !(s.vf n).enable ∨ (s.vf n).size ≤ fld w 15 0 then
        s.setVf n { s.vf n with baddb := min 255 ((s.vf n).baddb + 1) }
      else (s.setVf n { s.vf n with tail := fld w 15 0 }).post (.jobRecordTake n)) := by
  refine congrArg Host.Outcome.next (if_neg ?_)
  rintro (⟨he, hne⟩ | hport)
  · exact hne (hv he)
  · rw [hp] at hport; exact absurd hport (by decide)

theorem doorbell_refused (hp : s.hostPort port = true)
    (h : (s.vf n).enable = false ∨ b2n (s.vf n).port = port ∧ (s.vf n).size ≤ fld w 15 0) :
    Completes (.doorbell n port w) s (VfBecomes s n { s.vf n with baddb := min 255 ((s.vf n).baddb + 1) }) := by
  have hv (he : (s.vf n).enable = true) : b2n (s.vf n).port = port :=
    h.elim (fun k => absurd (k.symm.trans he) (by decide)) And.left
  have hbad : (!(s.vf n).enable) = true ∨ (s.vf n).size ≤ fld w 15 0 := h.imp (fun k => by rw [k]; rfl) And.right
  exact completes_of_next ((doorbell_arrives hp hv).trans (by rw [if_pos hbad])) (vfBecomes_setVf s n _)

theorem doorbell_taken (hp : s.hostPort port = true) (he : (s.vf n).enable = true) (hv : b2n (s.vf n).port = port)
    (hw : fld w 15 0 < (s.vf n).size) :
    Completes (.doorbell n port w) s (fun t => VfBecomes s n { s.vf n with tail := fld w 15 0 } t ∧
      t.agenda = s.agenda ++ [.jobRecordTake n]) := by
  have hgood : ¬ ((!(s.vf n).enable) = true ∨ (s.vf n).size ≤ fld w 15 0) := by
    rw [he]
    exact not_or.2 ⟨by decide, Nat.not_le.2 hw⟩
  exact completes_of_next ((doorbell_arrives hp (fun _ => hv)).trans (by rw [if_neg hgood]))
    ⟨(vfBecomes_setVf s n _).post _, rfl⟩

end

/-! ## Function-level resets (R59) -/

theorem vfFlr_empties (s : State) (n : Nat) :
    Completes (.vfFlr n) s (fun t => (t.vf n).head = 0 ∧ (t.vf n).tail = 0 ∧ (t.vf n).baddb = 0 ∧
      (t.vf n).badrec = 0) := by
  refine completes_of_next rfl ?_
  rw [State.vf_setVf]
  exact ⟨rfl, rfl, rfl, rfl⟩

/-- A binding cleared. -/
def Vf.unbound (v : Vf) : Vf := { v with enable := false, port := false, prt := 0 }

theorem State.vfs_clearBinds (s : State) (f : Vf → Bool) :
    (s.clearBinds f).hif.vfs =
      s.hif.vfs.foldl (fun (t : Tbl Vf) e => t.put {} e.1 (if f e.2 then e.2.unbound else e.2)) [] := rfl

theorem State.clearBinds_all (s : State) (m : Nat) : ((s.clearBinds (fun _ => true)).vf m).enable = false := by
  unfold State.vf
  rw [s.vfs_clearBinds]
  exact Tbl.look_rebuilt (P := fun v : Vf => v.enable = false) rfl Prod.fst
    (fun e => if (fun _ => true) e.2 then Vf.unbound e.2 else e.2) (fun _ => rfl) _ m

/-- R59: of a canonical table, the bindings of port B are cleared, and the rest stays. -/
theorem State.clearBinds_port {s : State} (h : (s.hif.vfs.map (·.1)).Nodup) (m : Nat) :
    (s.clearBinds (·.port)).vf m = if (s.vf m).port then (s.vf m).unbound else s.vf m := by
  unfold State.vf
  rw [s.vfs_clearBinds]
  exact Tbl.look_remapped (f := fun v : Vf => if v.port then v.unbound else v) rfl h m

/-! ## Errors (R58) -/

theorem State.hifError_irqs {s : State} {b : Nat} (h : bitAt s.hif.errStat b = false) :
    (s.hifError b).irqs = s.irqs ++ [⟨pf0, 0⟩] := by
  unfold State.hifError
  rw [if_neg (by rw [h]; decide)]
  rfl

/-- An error changes the host interface and the raised vectors alone. -/
theorem State.hifError_frame (s : State) (b : Nat) : { s.hifError b with hif := s.hif, irqs := s.irqs } = s := by
  unfold State.hifError
  split <;> rfl

/-- An error sets its bit of HIF_ERR and changes no other register of the host interface. -/
theorem State.hifError_hif (s : State) (b : Nat) :
    (s.hifError b).hif = { s.hif with errStat := (s.hifError b).hif.errStat } := by
  unfold State.hifError
  split <;> rfl

theorem State.hifError_sets (s : State) {b : Nat} (hb : b < 8) : bitAt (s.hifError b).hif.errStat b = true := by
  rw [s.errStat_hifError b hb, decide_eq_true rfl, Bool.or_true]

theorem MemKind.bit_lt (k : MemKind) : MemKind.bit k < 8 := by cases k <;> decide

theorem State.poisoned_of_mem {s : State} {a n p : Nat} (hp : p ∈ s.poison) (h : a ≤ p) (h' : p < a + n) :
    s.poisoned a n = true :=
  List.any_eq_true.2 ⟨p, hp, by simp [h, h']⟩

/-- The location of an uncorrectable error is marked, once. -/
def State.mark (s : State) (a : Nat) : State :=
  if s.poison.contains a then s else { s with poison := s.poison ++ [a] }

theorem State.mark_spec (s : State) (a : Nat) :
    (s.mark a).mem = s.mem ∧ (s.mark a).hif = s.hif ∧ a ∈ (s.mark a).poison := by
  unfold State.mark
  split
  case isTrue h => exact ⟨rfl, rfl, List.contains_iff_mem.1 h⟩
  case isFalse => exact ⟨rfl, rfl, List.mem_append_right _ List.mem_cons_self⟩

/-- The first address since the three memory error bits were clear is kept. -/
def State.noteAddr (s : State) (a : Nat) : State :=
  if fld s.hif.errStat 5 3 = 0 then { s with hif := { s.hif with errAddr := a % 2 ^ 52 } } else s

theorem State.noteAddr_spec (s : State) (a : Nat) : (s.noteAddr a).mem = s.mem ∧
    (s.noteAddr a).hif.errAddr = if fld s.hif.errStat 5 3 = 0 then a % 2 ^ 52 else s.hif.errAddr := by
  unfold State.noteAddr
  split <;> exact ⟨rfl, rfl⟩

theorem execMemoryUncorrectableError_eq (k : MemKind) (a : Nat) (s : State) :
    execMemoryUncorrectableError k a s = .next (((s.noteAddr a).hifError (MemKind.bit k)).mark a) := rfl

theorem memoryUncorrectableError_marks (k : MemKind) (a : Nat) (s : State) :
    Completes (.memoryUncorrectableError k a) s (fun t => t.mem = s.mem ∧ t.poisoned a 1 = true ∧
      bitAt t.hif.errStat (MemKind.bit k) = true ∧
      t.hif.errAddr = if fld s.hif.errStat 5 3 = 0 then a % 2 ^ 52 else s.hif.errAddr) := by
  obtain ⟨hmem, hhif, hpoison⟩ := ((s.noteAddr a).hifError (MemKind.bit k)).mark_spec a
  obtain ⟨hmem', haddr⟩ := s.noteAddr_spec a
  refine completes_of_next (execMemoryUncorrectableError_eq k a s)
    ⟨hmem.trans (((s.noteAddr a).hifError_signals (MemKind.bit k)).mem.trans hmem'),
      State.poisoned_of_mem hpoison (Nat.le_refl a) (Nat.lt_succ_self a), ?_, ?_⟩
  · rw [hhif]; exact State.hifError_sets _ (MemKind.bit_lt k)
  · rw [hhif, State.hifError_hif]; exact haddr

end Sys2Proof.Machine
end

section
open Sys2Proof Sys2Proof.Machine

/-- Settles O42: each clause is the lemma about its event; a function-level reset rebuilds the table of functions, whose
keys are listed once. -/
theorem hostFunctionsAndErrors : Obligations.HostFunctionsAndErrors := by
  intro s n port a w k v en sel q becomes
  refine ⟨fun he hd => ⟨_, vfBindWrite_ignored (.inl ⟨he, hd⟩), rfl⟩,
    fun he hb => ⟨_, vfBindWrite_ignored (.inr ⟨he, hb⟩), rfl⟩, vfBindWrite_binds,
    fun h => ⟨_, doorbell_ignored h, rfl⟩, doorbell_refused, doorbell_taken, vfFlr_empties s n,
    ⟨_, rfl, State.clearBinds_all _⟩, fun h => ⟨_, rfl, fun m => ?pf1Flr⟩, ?memory,
    ⟨_, rfl, State.hifError_sets s (by decide), s.hifError_frame 1, State.hifError_irqs⟩, ⟨_, rfl, ?fwfail⟩⟩
  case pf1Flr =>
    have hm := State.clearBinds_port h m
    exact ⟨fun hp => by rw [hm, if_pos hp]; rfl, fun hp => by rw [hm, if_neg (by rw [hp]; decide)]⟩
  case memory =>
    have hm := memoryUncorrectableError_marks k a s
    cases k <;> exact hm
  case fwfail =>
    exact ⟨State.hifError_sets _ (by decide), congrArg Hif.fwRuns (State.hifError_hif _ 0), (State.hifError_signals _ 0).mem⟩

end

section
/-!
SUPPORT. Bytes that the host writes (R49, R60): what a run of bytes stored at its home leaves, and what such stores
leave alone.
-/

namespace Sys2Proof.Machine

open Sys2Proof

/-! ## Bytes and the number they hold (R4) -/

theorem leNat_getD (l : List Byte) {i : Nat} (h : i < l.length) :
    l.getD i 0 = BitVec.ofNat 8 (leNat l / 256 ^ i) := by
  induction l generalizing i with
  | nil => exact absurd h (Nat.not_lt_zero i)
  | cons b r ih =>
    cases i with
    | zero =>
      have hb := b.isLt
      apply BitVec.eq_of_toNat_eq
      simp only [leNat, List.getD_cons_zero, Nat.pow_zero, Nat.div_one, BitVec.toNat_ofNat]
      omega
    | succ i =>
      have hdiv : (b.toNat + 256 * leNat r) / 256 = leNat r := by omega
      rw [List.getD_cons_succ, ih (Nat.lt_of_succ_lt_succ h), leNat, Nat.pow_succ', ← Nat.div_div_eq_div_mul, hdiv]

theorem Memory.writeList_append (m : List Host.Cell) (a : Nat) (l r : List Byte) :
    Memory.writeList m a (l ++ r) = Memory.writeList (Memory.writeList m a l) (a + l.length) r := by
  induction l generalizing m a with
  | nil => rfl
  | cons b l ih =>
    have e : a + (b :: l).length = a + 1 + l.length := by rw [List.length_cons]; omega
    rw [List.cons_append, Memory.writeList, ih, e]
    rfl

theorem Stored.of_byteAt {s t : State} {a n x : Nat} (h : ∀ b,
    t.byteAt b = if a ≤ b ∧ b < a + n then BitVec.ofNat 8 (x / 256 ^ (b - a)) else s.byteAt b) :
    Stored s t (List.range' a n) x := by
  refine ⟨fun i hi => ?_, fun b hb => ?_⟩
  · rw [List.length_range'] at hi
    have e : (List.range' a n).getD i 0 = a + i := by
      rw [List.getD_eq_getElem _ _ (by rwa [List.length_range']), List.getElem_range', Nat.one_mul]
    rw [e, h, if_pos ⟨Nat.le_add_right _ _, Nat.add_lt_add_left hi _⟩, Nat.add_sub_cancel_left]
  · rw [h, if_neg (fun k => hb (List.mem_range'_1.2 k))]

/-- Memory that a run of bytes was written to holds their number there, and every other byte as before. -/
theorem Stored.of_writeList {s t : State} {a : Nat} {l : List Byte} (h : t.mem = Memory.writeList s.mem a l) :
    Stored s t (List.range' a l.length) (leNat l) := by
  refine Stored.of_byteAt (fun b => ?_)
  unfold State.byteAt
  rw [h, Memory.get_writeList]
  split
  · exact leNat_getD l (by omega)
  · rfl

/-! ## What stores leave alone -/

/-- `t` differs from `s` in the bytes of memory, their errors and the caches' copies only. -/
def StoresOnly (s t : State) : Prop := { t with mem := s.mem, poison := s.poison, copies := s.copies } = s

section
variable {s t u : State}

theorem StoresOnly.refl (s : State) : StoresOnly s s := rfl

theorem StoresOnly.trans (h : StoresOnly s t) (k : StoresOnly t u) : StoresOnly s u := by
  unfold StoresOnly at *
  rw [← h, ← k]

theorem StoresOnly.waiters (h : StoresOnly s t) : t.waiters = s.waiters := by
  rw [← h]

theorem StoresOnly.prts (h : StoresOnly s t) : t.prts = s.prts := by
  rw [← h]
theorem StoresOnly.resize (h : StoresOnly s t) : t.resize = s.resize := by
  rw [← h]
theorem StoresOnly.cores (h : StoresOnly s t) : t.cores = s.cores := by
  rw [← h]
theorem StoresOnly.cluOwn (h : StoresOnly s t) : t.cluOwn = s.cluOwn := by
  rw [← h]
theorem StoresOnly.l2used (h : StoresOnly s t) : t.l2used = s.l2used := by
  rw [← h]
theorem StoresOnly.pwr (h : StoresOnly s t) : t.pwr = s.pwr := by
  rw [← h]

theorem State.prtHome_congr (hp : t.prts = s.prts) (hz : t.resize = s.resize) : t.prtHome = s.prtHome := by
  unfold State.prtHome State.groupsAt State.sweepOf State.prt
  rw [hp, hz]

theorem State.memHome_congr (hp : t.prts = s.prts) (hz : t.resize = s.resize) : t.memHome = s.memHome := by
  unfold State.memHome State.prt
  rw [State.prtHome_congr hp hz, hp]

theorem State.redirectHome_congr (hp : t.prts = s.prts) (hz : t.resize = s.resize) :
    t.redirectHome = s.redirectHome := by
  unfold State.redirectHome
  rw [State.prtHome_congr hp hz, hp]

theorem State.inPrtMem_congr (hp : t.prts = s.prts) : t.inPrtMem = s.inPrtMem := by
  unfold State.inPrtMem State.prt
  rw [hp]

theorem State.carveAt_congr (hc : t.cores = s.cores) : t.carveAt = s.carveAt := by
  unfold State.carveAt State.pw State.core
  rw [hc]

theorem State.slotKey_congr (hp : t.prts = s.prts) (ho : t.cluOwn = s.cluOwn) : t.slotKey = s.slotKey := by
  unfold State.slotKey State.cluOwner State.prt
  rw [hp, ho]

theorem StoresOnly.homeClock (h : StoresOnly s t) (a : Nat) : t.homeClock a = s.homeClock a := by
  unfold State.homeClock State.clockOn
  rw [h.pwr]

theorem StoresOnly.bar2At (h : StoresOnly s t) (q a : Nat) : t.bar2At q a = s.bar2At q a := by
  unfold State.bar2At State.prt State.core
  rw [State.inPrtMem_congr h.prts, State.memHome_congr h.prts h.resize, State.redirectHome_congr h.prts h.resize,
    State.carveAt_congr h.cores, State.slotKey_congr h.prts h.cluOwn, h.prts, h.cores, h.l2used]

end

theorem State.deviceWrite_stores (s : State) (a : Nat) (l : List Byte) : StoresOnly s (s.deviceWrite a l) := rfl

theorem State.deviceWrite_mem (s : State) (a : Nat) (l : List Byte) :
    (s.deviceWrite a l).mem = Memory.writeList s.mem a l := rfl

theorem State.serveRange_of_no_waiters {s : State} (h : s.waiters = []) (a n : Nat) : s.serveRange a n = s :=
  if_pos (by rw [h]; rfl)

end Sys2Proof.Machine
end

section
/-!
SUPPORT. CXL (R60, R61) and the apertures (R49, R216): what the host reads, and where its writes land.
-/

namespace Sys2Proof.Machine

open Sys2Proof

/-! ## Lines that the host takes (R60) -/

theorem State.hostHolds_spec (s : State) (a : Nat) :
    { s.hostHolds a with hif := s.hif } = s ∧ a / 64 ∈ (s.hostHolds a).hif.lines := by
  unfold State.hostHolds
  split
  case isTrue h => exact ⟨rfl, List.contains_iff_mem.1 h⟩
  case isFalse => exact ⟨rfl, List.mem_append_right _ List.mem_cons_self⟩

section
variable (s : State) (a : Nat)

theorem State.hostHolds_mem : (s.hostHolds a).mem = s.mem := by
  obtain ⟨h, -⟩ := s.hostHolds_spec a
  exact (congrArg State.mem h :)

theorem State.hostHolds_copies : (s.hostHolds a).copies = s.copies := by
  obtain ⟨h, -⟩ := s.hostHolds_spec a
  exact (congrArg State.copies h :)

theorem State.hostHolds_outbox : (s.hostHolds a).outbox = s.outbox := by
  obtain ⟨h, -⟩ := s.hostHolds_spec a
  exact (congrArg State.outbox h :)

theorem State.hostHolds_waiters : (s.hostHolds a).waiters = s.waiters := by
  obtain ⟨h, -⟩ := s.hostHolds_spec a
  exact (congrArg State.waiters h :)

end

/-! ## A word that no cache holds newer (R60) -/

/-- `t` follows `s` by host writes beneath the caches: every copy stays, and none at the host's level is new. -/
structure Beneath (s t : State) : Prop where
  only : StoresOnly s t
  copies : ∃ new, t.copies = s.copies ++ new ∧ ∀ c ∈ new, c.level ≠ hostLevel

section
variable {s t u : State}

theorem Beneath.refl (s : State) : Beneath s s :=
  ⟨.refl s, [], (List.append_nil _).symm, fun _ h => nomatch h⟩

theorem Beneath.trans (h : Beneath s t) (k : Beneath t u) : Beneath s u := by
  obtain ⟨x, hx, hx'⟩ := h.copies
  obtain ⟨y, hy, hy'⟩ := k.copies
  exact ⟨h.only.trans k.only, x ++ y, by rw [hy, hx, List.append_assoc],
    fun c hc => (List.mem_append.1 hc).elim (hx' c) (hy' c)⟩

theorem Beneath.keeps (h : Beneath s t) {c : Copy} (hc : c ∈ s.copies) : c ∈ t.copies := by
  obtain ⟨x, hx, -⟩ := h.copies
  rw [hx]
  exact List.mem_append_left _ hc

theorem Beneath.copyAt_host (h : Beneath s t) {w : Nat} (hw : s.copyAt hostLevel w = none) :
    t.copyAt hostLevel w = none := by
  obtain ⟨x, hx, hlevel⟩ := h.copies
  unfold State.copyAt at *
  rw [hx, List.find?_append, hw, Option.none_or]
  exact List.find?_eq_none.2 (fun c hc => by simp [hlevel c hc])

end

theorem dieLevel_ne_hostLevel {d : Nat} (h : d = 0 ∨ d = 1) : dieLevel d ≠ hostLevel := by
  rcases h with rfl | rfl <;> decide

/-- The sector that the homes hold stays there, and memory itself is as it was. -/
theorem State.keepBeneath_spec (s : State) (w : Nat) : Beneath s (s.keepBeneath w) ∧ (s.keepBeneath w).mem = s.mem := by
  refine List.foldlRecOn (motive := fun t : State => Beneath s t ∧ t.mem = s.mem) [0, 1] _ ⟨.refl s, rfl⟩
    (fun t ⟨hb, hm⟩ d hd => ?_)
  split
  · exact ⟨hb, hm⟩
  · split
    · refine ⟨hb.trans ⟨rfl, _, rfl, fun c hc => ?_⟩, hm⟩
      rw [List.mem_singleton.1 hc]
      exact dieLevel_ne_hostLevel (by simpa using hd)
    · exact ⟨hb, hm⟩

/-- A host write of a word that no cache holds newer goes to memory. -/
theorem State.hostPut_beneath {s : State} {w : Nat} (h : s.copyAt hostLevel w = none) (l : List Byte) :
    Beneath s (s.hostPut w l) ∧ (s.hostPut w l).mem = Memory.writeList s.mem w l := by
  obtain ⟨hb, hm⟩ := s.keepBeneath_spec w
  unfold State.hostPut
  rw [h]
  exact ⟨hb.trans ⟨rfl, [], (List.append_nil _).symm, fun _ h => nomatch h⟩, by rw [← hm]; rfl⟩

end Sys2Proof.Machine
end

section
/-!
SUPPORT. A line that the host writes (R60): with the device's caches, beneath them, or over words that they hold newer.
-/

namespace Sys2Proof.Machine

open Sys2Proof

/-! ## A line beneath the caches -/

/-- The first `n` words of a line that the host writes without the caches. -/
def State.hostPuts (s : State) (a : Nat) (data : List Byte) (n : Nat) : State :=
  ((List.range n).map (fun i => a + 8 * i)).foldl (fun s w => s.hostPut w ((data.drop (w - a)).take 8)) s

theorem State.hostPuts_succ (s : State) (a : Nat) (data : List Byte) (n : Nat) :
    s.hostPuts a data (n + 1) = (s.hostPuts a data n).hostPut (a + 8 * n) ((data.drop (8 * n)).take 8) := by
  unfold State.hostPuts
  rw [List.range_succ, List.map_append, List.foldl_append, List.map_singleton, List.foldl_cons, List.foldl_nil,
    Nat.add_sub_cancel_left]

theorem State.hostPuts_beneath {s : State} {a : Nat} {data : List Byte} {n : Nat} (hn : 8 * n ≤ data.length)
    (h : ∀ i < n, s.copyAt hostLevel (a + 8 * i) = none) :
    Beneath s (s.hostPuts a data n) ∧ (s.hostPuts a data n).mem = Memory.writeList s.mem a (data.take (8 * n)) := by
  induction n with
  | zero => exact ⟨.refl s, rfl⟩
  | succ n ih =>
    obtain ⟨hb, hm⟩ := ih (by omega) (fun i hi => h i (by omega))
    obtain ⟨hb', hm'⟩ := State.hostPut_beneath (hb.copyAt_host (h n (Nat.lt_succ_self n))) ((data.drop (8 * n)).take 8)
    have hlen : (data.take (8 * n)).length = 8 * n := by rw [List.length_take]; omega
    have hsplit : data.take (8 * (n + 1)) = data.take (8 * n) ++ (data.drop (8 * n)).take 8 := List.take_add
    rw [s.hostPuts_succ]
    refine ⟨hb.trans hb', ?_⟩
    rw [hm', hm, hsplit, Memory.writeList_append, hlen]

/-! ## Words that a cache holds newer -/

/-- The host's write replaces what memory holds of the word, and no other word's. -/
theorem State.copyAt_hostPut {s : State} {w : Nat} {c : Copy} (h : s.copyAt hostLevel w = some c) {l : List Byte}
    (hl : l.length = 8) (u : Nat) :
    (s.hostPut w l).copyAt hostLevel u =
      if u = w then some { c with val := BitVec.ofNat 64 (leNat l) } else s.copyAt hostLevel u := by
  let f (x : Copy) : Copy := if x = c then { x with val := BitVec.ofNat 64 (leNat l) } else x
  have hw : c.addr = w := by
    have := List.find?_some h
    simp only [Bool.and_eq_true, beq_iff_eq] at this
    exact this.2
  have hput : (s.hostPut w l).copies = s.copies.map f := by
    unfold State.hostPut
    rw [h]
    have hv : l ++ (leBytes 8 c.val.toNat).drop l.length = l := by
      rw [List.drop_eq_nil_of_le (by rw [leBytes_length, hl]), List.append_nil]
    simp only [hv]
    rfl
  have hf : (fun x : Copy => x.level == hostLevel && x.addr == u) ∘ f = fun x => x.level == hostLevel && x.addr == u := by
    funext x
    simp only [Function.comp_apply, f]
    split <;> rfl
  unfold State.copyAt
  rw [hput, List.find?_map, hf]
  split
  case isTrue hu =>
    subst hu
    unfold State.copyAt at h
    rw [h]
    exact congrArg some (if_pos rfl)
  case isFalse hu =>
    cases hx : s.copies.find? (fun x => x.level == hostLevel && x.addr == u) with
    | none => rfl
    | some x =>
      have hxu := List.find?_some hx
      simp only [Bool.and_eq_true, beq_iff_eq] at hxu
      refine congrArg some (if_neg (fun e => hu ?_))
      rw [← hxu.2, e, hw]

theorem State.hostPut_newer {s : State} {w : Nat} (h : s.copyAt hostLevel w ≠ none) (l : List Byte) :
    StoresOnly s (s.hostPut w l) ∧ (s.hostPut w l).mem = s.mem := by
  obtain ⟨c, hc⟩ := Option.ne_none_iff_exists'.1 h
  unfold State.hostPut
  rw [hc]
  exact ⟨rfl, rfl⟩

/-- The first `n` words are replaced where memory holds them; the others are as they were. -/
theorem State.hostPuts_newer {s : State} {a : Nat} {data : List Byte} {n : Nat} (hn : 8 * n ≤ data.length)
    (h : ∀ i < n, s.copyAt hostLevel (a + 8 * i) ≠ none) :
    StoresOnly s (s.hostPuts a data n) ∧ (s.hostPuts a data n).mem = s.mem ∧ ∀ i,
      ((s.hostPuts a data n).copyAt hostLevel (a + 8 * i)).map Copy.val =
        if i < n then some (BitVec.ofNat 64 (leNat ((data.drop (8 * i)).take 8)))
        else (s.copyAt hostLevel (a + 8 * i)).map Copy.val := by
  induction n with
  | zero => exact ⟨.refl s, rfl, fun _ => rfl⟩
  | succ n ih =>
    obtain ⟨hs, hm, hval⟩ := ih (by omega) (fun i hi => h i (by omega))
    have hcopy : (s.hostPuts a data n).copyAt hostLevel (a + 8 * n) ≠ none := fun hnone => by
      have hv := hval n
      rw [hnone, if_neg (Nat.lt_irrefl n)] at hv
      exact h n (Nat.lt_succ_self n) (Option.map_eq_none_iff.1 hv.symm)
    obtain ⟨hs', hm'⟩ := State.hostPut_newer hcopy ((data.drop (8 * n)).take 8)
    obtain ⟨c, hc⟩ := Option.ne_none_iff_exists'.1 hcopy
    have hlen : ((data.drop (8 * n)).take 8).length = 8 := by
      rw [List.length_take, List.length_drop]; omega
    rw [s.hostPuts_succ]
    refine ⟨hs.trans hs', hm'.trans hm, fun i => ?_⟩
    rw [State.copyAt_hostPut hc hlen]
    by_cases hi : i = n
    · subst hi
      rw [if_pos rfl, if_pos (Nat.lt_succ_self i)]
      rfl
    · rw [if_neg (by omega), hval]
      exact if_congr (by omega) rfl rfl

theorem State.hostWord_of_copyAt {s : State} {w : Nat} {v : W64} (h : (s.copyAt hostLevel w).map Copy.val = some v) :
    s.hostWord w = v := by
  obtain ⟨c, hc, rfl⟩ := Option.map_eq_some_iff.1 h
  unfold State.hostWord
  rw [hc]

/-! ## HOST_CXL_MEM_REQUEST (R60, R61) -/

/-- A line that the host writes: with the device's caches, or without them. -/
def State.hostStored (s : State) (a : Nat) (data : List Byte) : State :=
  if s.coherentLine a then (s.backInvalidate a).writeBytes a (data.take 64) else s.hostPuts a data 8

theorem State.hostStored_coherent {s : State} {a : Nat} (h : s.coherentLine a = true) (data : List Byte) :
    s.hostStored a data = (s.backInvalidate a).writeBytes a (data.take 64) := if_pos h

theorem State.hostStored_uncached {s : State} {a : Nat} (h : s.coherentLine a = false) (data : List Byte) :
    s.hostStored a data = s.hostPuts a data 8 := if_neg (by rw [h]; decide)

section
variable {s : State} {addr : Nat} {data : List Byte}

theorem cxlMem_ignored {wr : Bool} (h : s.inHdm (addr / 64 * 64) = false ∨ s.hostPort 0 = false) :
    execHostCxlMemRequest wr addr data s = .next s :=
  congrArg Host.Outcome.next (if_pos (h.imp (fun k => by rw [k]; rfl) (fun k => by rw [k]; rfl)))

variable (hport : s.hostPort 0 = true) (hin : s.inHdm (addr / 64 * 64) = true)
include hport hin

theorem cxlMem_reaches : ¬ ((!s.inHdm (addr / 64 * 64)) = true ∨ (!s.hostPort 0) = true) := by
  rw [hport, hin]
  decide

theorem cxlMem_read :
    let a := s.redirectHome (addr / 64 * 64)
    Completes (.hostCxlMemRequest false addr data) s (fun t => t.mem = s.mem ∧ t.copies = s.copies ∧
      t.outbox = s.outbox ++ [.hostRead (addr / 64 * 64) (if s.coherentLine a then Memory.readList s.mem a 64
        else ((List.range 8).map (fun i => a + 8 * i)).flatMap (fun w => leBytes 8 (s.hostWord w).toNat))] ∧
      a / 64 ∈ t.hif.lines) := by
  intro a
  obtain ⟨-, hl⟩ := s.hostHolds_spec a
  refine completes_of_next (congrArg Host.Outcome.next (if_neg (cxlMem_reaches hport hin)))
    ⟨s.hostHolds_mem a, s.hostHolds_copies a, ?_, hl⟩
  exact congrArg (· ++ _) (s.hostHolds_outbox a)

/-- R20: storage without its clock takes no write. -/
theorem cxlMem_unclocked (hc : s.homeClock (s.redirectHome (addr / 64 * 64)) = false) :
    execHostCxlMemRequest true addr data s = .next s := by
  refine congrArg Host.Outcome.next ((if_neg (cxlMem_reaches hport hin)).trans
    ((if_neg (by decide)).trans (if_pos ?_)))
  rw [hc]
  rfl

theorem cxlMem_write (hc : s.homeClock (s.redirectHome (addr / 64 * 64)) = true) :
    execHostCxlMemRequest true addr data s = .next
      (((s.hostStored (s.redirectHome (addr / 64 * 64)) data).hostHolds (s.redirectHome (addr / 64 * 64))).serveRange
        (s.redirectHome (addr / 64 * 64)) 64) := by
  refine congrArg Host.Outcome.next ((if_neg (cxlMem_reaches hport hin)).trans
    ((if_neg (by decide)).trans (if_neg ?_)))
  rw [hc]
  decide

variable (hw : s.waiters = []) (hc : s.homeClock (s.redirectHome (addr / 64 * 64)) = true)
include hw hc

/-- Where no thread waits at a word, the write is the line stored and then held by the host. -/
theorem cxlMem_stores {t : State} (ht : s.hostStored (s.redirectHome (addr / 64 * 64)) data = t)
    (hwt : t.waiters = s.waiters) :
    execHostCxlMemRequest true addr data s = .next (t.hostHolds (s.redirectHome (addr / 64 * 64))) := by
  rw [cxlMem_write hport hin hc, ht, State.serveRange_of_no_waiters]
  rw [t.hostHolds_waiters, hwt, hw]

variable (hlen : data.length = 64)
include hlen

theorem cxlMem_write_coherent (hco : s.coherentLine (s.redirectHome (addr / 64 * 64)) = true) :
    let a := s.redirectHome (addr / 64 * 64)
    Completes (.hostCxlMemRequest true addr data) s (fun t =>
      Stored s t (List.range' a 64) (leNat data) ∧ ∀ c ∈ t.copies, c.addr / 64 ≠ a / 64) := by
  intro a
  have htake : data.take 64 = data := List.take_of_length_le (by omega)
  refine completes_of_next (cxlMem_stores hport hin hw hc (State.hostStored_coherent hco data) rfl) ⟨?_, fun c hcm => ?_⟩
  · have hm : (((s.backInvalidate a).writeBytes a (data.take 64)).hostHolds a).mem =
        Memory.writeList s.mem a (data.take 64) := State.hostHolds_mem _ a
    have hst := Stored.of_writeList hm
    rw [htake, hlen] at hst
    exact htake.symm ▸ hst
  · rw [State.hostHolds_copies] at hcm
    simpa using (List.mem_filter.1 hcm).2

theorem cxlMem_write_beneath (hco : s.coherentLine (s.redirectHome (addr / 64 * 64)) = false)
    (hcp : ∀ i < 8, s.copyAt hostLevel (s.redirectHome (addr / 64 * 64) + 8 * i) = none) :
    Completes (.hostCxlMemRequest true addr data) s (fun t =>
      Stored s t (List.range' (s.redirectHome (addr / 64 * 64)) 64) (leNat data) ∧ ∀ c ∈ s.copies, c ∈ t.copies) := by
  obtain ⟨hb, hm⟩ := State.hostPuts_beneath (data := data) (by omega) hcp
  have htake : data.take (8 * 8) = data := List.take_of_length_le (by omega)
  refine completes_of_next (cxlMem_stores hport hin hw hc (State.hostStored_uncached hco data) hb.only.waiters)
    ⟨?_, fun c hcs => ?_⟩
  · have hst := Stored.of_writeList ((State.hostHolds_mem _ (s.redirectHome (addr / 64 * 64))).trans hm)
    rwa [htake, hlen] at hst
  · rw [State.hostHolds_copies]
    exact hb.keeps hcs

theorem cxlMem_write_newer (hco : s.coherentLine (s.redirectHome (addr / 64 * 64)) = false)
    (hcp : ∀ i < 8, s.copyAt hostLevel (s.redirectHome (addr / 64 * 64) + 8 * i) ≠ none) :
    Completes (.hostCxlMemRequest true addr data) s (fun t => t.mem = s.mem ∧ ∀ i < 8,
      t.hostWord (s.redirectHome (addr / 64 * 64) + 8 * i) =
        BitVec.ofNat 64 (leNat ((data.drop (8 * i)).take 8))) := by
  obtain ⟨hs, hm, hval⟩ := State.hostPuts_newer (data := data) (by omega) hcp
  refine completes_of_next (cxlMem_stores hport hin hw hc (State.hostStored_uncached hco data) hs.waiters)
    ⟨(State.hostHolds_mem _ _).trans hm, fun i hi => State.hostWord_of_copyAt ?_⟩
  have hv := hval i
  rw [if_pos hi] at hv
  unfold State.copyAt at *
  rw [State.hostHolds_copies]
  exact hv

end

/-! ## HOST_SNOOP (R61) -/

theorem hostSnoop_ignored {s : State} (h : s.hostPort 0 = false) (addr : Nat) : execHostSnoop addr s = .next s :=
  congrArg Host.Outcome.next (if_pos (by rw [h]; rfl))

theorem hostSnoop_flushes {s : State} (h : s.hostPort 0 = true) (addr : Nat) :
    let a := hostWin + addr % 2 ^ 51 / 64 * 64
    Completes (.hostSnoop addr) s (fun t => t.mem = s.mem ∧
      t.outbox = s.outbox ++ [.snoopReply a (Memory.readList s.mem a 64)] ∧
      ∀ c ∈ t.copies, c.addr + 8 ≤ a ∨ a + 64 ≤ c.addr) := by
  intro a
  refine completes_of_next (congrArg Host.Outcome.next (if_neg (by rw [h]; decide))) ⟨rfl, rfl, fun c hc => ?_⟩
  have hkeep := (List.mem_filter.1 hc).2
  rwa [Bool.or_eq_true, decide_eq_true_eq, decide_eq_true_eq] at hkeep

/-! ## BAR2 (R49, R216, R220) -/

section
variable {s : State} {pf : Nat}

theorem bar2_ignored {wr : Bool} (h : s.hostPort pf = false) (off n : Nat) (data : List Byte) :
    execHostBar2Access pf wr off n data s = .next s :=
  congrArg Host.Outcome.next (if_pos (by rw [h]; rfl))

theorem bar2_read (h : s.hostPort pf = true) (off n : Nat) (data : List Byte) :
    let aper := if pf = 0 then s.hif.aper0 else s.hif.aper1
    execHostBar2Access pf false off n data s = .next { s with outbox := s.outbox ++
      [.bar2Read pf ((List.range n).map (fun i => s.bar2Byte (fld aper 5 0) (fld aper 51 32 * 2 ^ 32 + off + i)))] } :=
  congrArg Host.Outcome.next (if_neg (by rw [h]; decide))

end

/-- A fold whose every step does nothing to states of a kind ends where it began. -/
theorem foldl_unmoved {α β : Type} {P : α → Prop} {f : α → β → α} (hf : ∀ s b, P s → f s b = s) (l : List β) {s : α}
    (h : P s) : l.foldl f s = s :=
  l.foldlRecOn (motive := (· = s)) f rfl (fun _ ht b _ => ht ▸ hf _ b (ht ▸ h))

/-- Bytes put one after another through an aperture. -/
def State.bar2Puts (s : State) (q a : Nat) (data : List Byte) : State :=
  (data.foldl (fun (e : State × Nat) b => (e.1.bar2Put q e.2 b, e.2 + 1)) (s, a)).1

/-- Where every byte is its own home and has its clock, the bytes are a run in memory. -/
theorem State.bar2Puts_stores {q : Nat} (data : List Byte) {s : State} {a : Nat}
    (h : ∀ i < data.length, s.bar2At q (a + i) = .mem (a + i) ∧ s.homeClock (a + i) = true) :
    StoresOnly s (s.bar2Puts q a data) ∧ (s.bar2Puts q a data).mem = Memory.writeList s.mem a data := by
  induction data generalizing s a with
  | nil => exact ⟨.refl s, rfl⟩
  | cons b r ih =>
    obtain ⟨hat, hclk⟩ : s.bar2At q a = .mem a ∧ s.homeClock a = true := h 0 (Nat.succ_pos _)
    have hput : s.bar2Put q a b = s.deviceWrite a [b] := by
      unfold State.bar2Put
      rw [hat]
      exact if_pos hclk
    have hs := s.deviceWrite_stores a [b]
    obtain ⟨hr, hm⟩ := ih (s := s.deviceWrite a [b]) (a := a + 1) (fun i hi => by
      rw [hs.bar2At, hs.homeClock, Nat.add_assoc, Nat.add_comm 1 i]
      exact h (i + 1) (Nat.succ_lt_succ hi))
    have hcons : s.bar2Puts q a (b :: r) = (s.deviceWrite a [b]).bar2Puts q (a + 1) r := by rw [← hput]; rfl
    rw [hcons]
    exact ⟨hs.trans hr, hm⟩

theorem bar2_write {s : State} {pf off : Nat} {data : List Byte} (hp : s.hostPort pf = true) (n : Nat) {aper : W64}
    (ha : aper = if pf = 0 then s.hif.aper0 else s.hif.aper1)
    (h : ∀ i < data.length, s.bar2At (fld aper 5 0) (fld aper 51 32 * 2 ^ 32 + off + i) =
        .mem (fld aper 51 32 * 2 ^ 32 + off + i) ∧ s.homeClock (fld aper 51 32 * 2 ^ 32 + off + i) = true)
    (hw : s.waiters = []) :
    Completes (.hostBar2Access pf true off n data) s (fun t =>
      Stored s t (List.range' (fld aper 51 32 * 2 ^ 32 + off) data.length) (leNat data)) := by
  obtain ⟨hs, hm⟩ := State.bar2Puts_stores data h
  refine completes_of_next (t := s.bar2Puts (fld aper 5 0) (fld aper 51 32 * 2 ^ 32 + off) data) ?_
    (Stored.of_writeList hm)
  subst ha
  show execHostBar2Access pf true off n data s = _
  unfold execHostBar2Access
  simp only [hp, Bool.not_true, Bool.false_eq_true, if_false, if_true]
  refine congrArg Host.Outcome.next (foldl_unmoved (P := fun t : State => t.waiters = []) (fun t i ht => ?_) _ (hs.waiters.trans hw))
  split
  · exact State.serveRange_of_no_waiters ht _ _
  · rfl

end Sys2Proof.Machine
end

section
/-!
SUPPORT. Firmware (R62 to R65), attestation and IDE keys (R66), and the obligation about the host's memory and firmware.
-/

namespace Sys2Proof.Machine

open Sys2Proof

/-! ## STATUS (R57, R63) -/

/-- A change of STATUS changes it and the raised vectors alone. -/
theorem State.setFw_spec (s : State) (st : Nat) :
    { s.setFw st with irqs := s.irqs } = { s with hif := { s.hif with fwStatus := st } } := by
  unfold State.setFw
  split <;> rfl

section
variable (s : State) (st : Nat)

theorem State.setFw_hif : (s.setFw st).hif = { s.hif with fwStatus := st } :=
  (congrArg State.hif (s.setFw_spec st) :)

theorem State.setFw_mem : (s.setFw st).mem = s.mem :=
  (congrArg State.mem (s.setFw_spec st) :)

theorem State.setFw_threads : (s.setFw st).threads = s.threads :=
  (congrArg State.threads (s.setFw_spec st) :)

end

theorem fwStart_ignored {s : State} (h : s.hif.fwStatus = 1) : execFwStart s = .next s :=
  congrArg Host.Outcome.next (if_pos h)

theorem fwStart_fetches {s : State} (h : s.hif.fwStatus ≠ 1) :
    Completes .fwStart s (fun t => t.hif.fwStatus = 1 ∧ t.hif.staged = none ∧ t.hif.fetching = true) := by
  refine completes_of_next (congrArg Host.Outcome.next (if_neg h)) ?_
  rw [State.setFw_hif]
  exact ⟨rfl, rfl, rfl⟩

/-- R63: the fetch ends, and STATUS tells its outcome; an image below the minimum SVN is not staged. -/
theorem fwVerifyDone_ends {s : State} (h : s.hif.fetching = true) (r : FwResult) (hash : BitVec 512) (svn : Byte)
    (raises : Bool) :
    Completes (.fwVerifyDone r hash svn raises) s (fun t => t.hif.fetching = false ∧
      (r = .dmaErr → t.hif.fwStatus = 5) ∧ (r = .badSig → t.hif.fwStatus = 3) ∧ (r = .rollback → t.hif.fwStatus = 4) ∧
      (r = .verified → svn.toNat < s.hif.min.toNat → t.hif.fwStatus = 4) ∧
      (r = .verified → s.hif.min.toNat ≤ svn.toNat → t.hif.fwStatus = 2 ∧
        t.hif.staged = some (hash, svn, raises))) := by
  refine completes_of_next (congrArg Host.Outcome.next (if_neg (by rw [h]; decide))) ?_
  cases r with
  | dmaErr => rw [State.setFw_hif]; simp
  | badSig => rw [State.setFw_hif]; simp
  | rollback => rw [State.setFw_hif]; simp
  | verified =>
    by_cases hs : svn.toNat < s.hif.min.toNat
    · simp only [if_pos hs, State.setFw_hif]
      simp [hs]
    · simp only [if_neg hs, State.setFw_hif]
      simp [hs]

theorem fwActivate_refused {s : State} (h : s.hif.staged = none ∨ s.jobsOpen = true) :
    Completes .fwActivate s (fun t => t.hif.fwStatus = 7) := by
  refine completes_of_next (congrArg Host.Outcome.next (if_pos (h.imp_left Option.isNone_iff_eq_none.2))) ?_
  rw [State.setFw_hif]

theorem fwActivate_begins {s : State} (h : s.hif.staged ≠ none) (hj : s.jobsOpen = false) :
    Completes .fwActivate s (fun t => t.hif.activating = s.hif.staged ∧ t.agenda = s.agenda ++ [.fwActivateDone]) := by
  have hgo : ¬ (s.hif.staged.isNone = true ∨ s.jobsOpen = true) := by
    rw [hj, Option.isNone_iff_eq_none]
    exact not_or.2 ⟨h, by decide⟩
  exact completes_of_next (congrArg Host.Outcome.next (if_neg hgo)) ⟨rfl, rfl⟩

/-! ## The restart of the islands (R63) -/

theorem State.leftUp_minSvn (s : State) (n : Nat) : (s.leftUp n).hif.minSvn = s.hif.minSvn := by
  unfold State.leftUp
  split
  · rw [State.hifError_hif]
  · rfl

/-- Links that go down leave memory and the fused minimum SVN. -/
theorem State.linkDown_keeps (s : State) (n : Nat) : (nextOr (execLinkDown n s) s).mem = s.mem ∧
    (nextOr (execLinkDown n s) s).hif.minSvn = s.hif.minSvn := by
  have hr := s.dropLink_routes n (if (s.link n).enable then .training else .down)
  exact ⟨hr.mem.trans (s.leftUp_follows n).only.mem,
    (congrArg Hif.minSvn hr.hif).trans (s.leftUp_minSvn n)⟩

/-- A thread's slot after the restart: empty, with the registers that its carve-out keeps. -/
def Thread.restarted (t : Thread) : Thread := { g := t.g, v := t.v, prt := t.prt, ctx := t.ctx, life := t.life }

theorem State.restart_spec (s : State) : s.restart.mem = s.mem ∧ s.restart.hif.minSvn = s.hif.minSvn ∧
    ∀ k, (s.restart.thread k).st = .empty := by
  let u := s.lnk.links.foldl (fun s e => if e.2.up then nextOr (execLinkDown e.1 s) s else s) s
  have hu : u.mem = s.mem ∧ u.hif.minSvn = s.hif.minSvn := by
    refine foldl_related (R := fun s t : State => t.mem = s.mem ∧ t.hif.minSvn = s.hif.minSvn) (fun _ => ⟨rfl, rfl⟩)
      (fun h k => ⟨k.1.trans h.1, k.2.trans h.2⟩) (fun t e => ?_) s.lnk.links s
    split
    · exact t.linkDown_keeps e.1
    · exact ⟨rfl, rfl⟩
  have hth : s.restart.threads = u.threads.map (fun e => (e.1, e.2.restarted)) := rfl
  refine ⟨hu.1, hu.2, fun k => ?_⟩
  unfold State.thread
  rw [hth, Tbl.look_map (d := {}) (d' := {}) (f := Thread.restarted) rfl]
  rfl

theorem Hif.min_congr {h k : Hif} (e : h.minSvn = k.minSvn) : h.min = k.min := by
  unfold Hif.min
  rw [e]

/-- R63 to R65: the staged image runs in islands that have restarted. -/
theorem fwActivateDone_runs {s : State} {hash : BitVec 512} {svn : Byte} {raises : Bool}
    (h : s.hif.activating = some (hash, svn, raises)) :
    Completes .fwActivateDone s (fun t => t.hif.fwStatus = 6 ∧ t.hif.runHash = some hash ∧ t.hif.svn = some svn ∧
      t.mem = s.mem ∧ (∀ k, (t.thread k).st = .empty) ∧
      (raises = true → s.hif.min.toNat < svn.toNat → t.hif.min = svn)) := by
  obtain ⟨hm, hmin, hth⟩ := s.restart_spec
  let z : Hif := { s.restart.hif with
    activating := none, staged := none, svn := some svn
    minSvn := if raises = true ∧ s.restart.hif.min.toNat < svn.toNat then some svn else s.restart.hif.minSvn
    fwRuns := true, runHash := some hash, rewHash := Config.tableHash hash }
  let u : State := { s.restart with hif := z }
  refine completes_of_next (t := u.setFw 6) ?_ ?_
  · show execFwActivateDone s = _
    unfold execFwActivateDone
    rw [h]
  · rw [State.setFw_hif, State.setFw_mem]
    refine ⟨rfl, rfl, rfl, hm, fun k => ?_, fun hr hlt => ?_⟩
    · unfold State.thread
      rw [State.setFw_threads]
      exact hth k
    · have hz : z.minSvn = some svn := if_pos ⟨hr, by rwa [Hif.min_congr hmin]⟩
      exact (congrArg (Option.getD · Config.minSvn) hz :)

/-! ## Attestation and IDE keys (R66) -/

theorem Hif.spdm_certificate_error (h : Hif) {n : Nat} (hn : n ≠ 0) : h.spdm (.certificate n) = .error := if_neg hn

theorem Hif.spdm_measurement_error (h : Hif) {n : Nat} (hn : n = 0 ∨ 5 < n) : h.spdm (.measurement n) = .error := by
  rcases hn with rfl | hn
  · rfl
  · obtain ⟨m, rfl⟩ : ∃ m, n = m + 6 := ⟨n - 6, by omega⟩
    have hm : h.measure (m + 6) = none := rfl
    unfold Hif.spdm
    simp only [hm]

theorem ideKm_replaces (s : State) (port stream : Nat) (key : BitVec 256) :
    Completes (.ideKm port stream key) s (fun t => (port, stream, key) ∈ t.hif.ide ∧
      ∀ e ∈ t.hif.ide, e.1 = port → e.2.1 = stream → e.2.2 = key) := by
  refine completes_of_next rfl ⟨List.mem_append_right _ List.mem_cons_self, fun e he hp hst => ?_⟩
  rcases List.mem_append.1 he with hold | hnew
  · have hne := (List.mem_filter.1 hold).2
    simp [hp, hst] at hne
  · rw [List.mem_singleton.1 hnew]

end Sys2Proof.Machine
end

section
open Sys2Proof Sys2Proof.Machine

/-- Settles O43: each clause is the lemma about its event; what host writes leave alone (StoresOnly, Beneath) keeps the
homes and the copies that the next byte or word is looked up by. -/
theorem hostMemoryAndFirmware : Obligations.HostMemoryAndFirmware := by
  intro s addr pf off n port stream data r hash svn raises key rq line a h aper b
  refine ⟨fun hin => ⟨⟨_, cxlMem_ignored (.inl hin), rfl⟩, ⟨_, cxlMem_ignored (.inl hin), rfl⟩⟩,
    fun hp _ => ⟨⟨_, cxlMem_ignored (.inr hp), rfl⟩, ⟨_, hostSnoop_ignored hp addr, rfl⟩⟩,
    fun hp hin => ⟨cxlMem_read hp hin, fun hc => ⟨_, cxlMem_unclocked hp hin hc, rfl⟩, fun hw hc hl =>
      ⟨cxlMem_write_coherent hp hin hw hc hl, cxlMem_write_beneath hp hin hw hc hl,
        cxlMem_write_newer hp hin hw hc hl⟩⟩,
    fun hp => hostSnoop_flushes hp addr, fun hp _ => ⟨_, bar2_ignored hp off n data, rfl⟩,
    fun hp => ⟨_, bar2_read hp off n data, rfl⟩, fun hp hb hw => bar2_write hp n rfl hb hw,
    fun hf => ⟨_, fwStart_ignored hf, rfl⟩, fwStart_fetches, fun hf => fwVerifyDone_ends hf r hash svn raises,
    fwActivate_refused, fun hs hj => fwActivate_begins (by rw [hs]; exact Option.some_ne_none _) hj,
    fwActivateDone_runs, ⟨_, rfl, rfl⟩, rfl, s.hif.spdm_certificate_error, s.hif.spdm_measurement_error, rfl,
    ideKm_replaces s port stream key⟩

end

section
/-!
SUPPORT. SCH_CANCEL of a launch (R130) whose ring slot a table of launches lists twice: the entry that is looked up
has been placed, the other still waits for a dependence that failed (R127).
-/

namespace Sys2Proof.Machine

open Sys2Proof

/-- Launch 1 of partition 0 runs; its second entry waits for a dependence that is judged failed. -/
def doubledLaunch : State :=
  { State.reset with prts := [(0, {
      exist := true, cnt := { launches := [(1, { st := .running })] }
      launchRun := [(1, { st := .placed }), (1, { st := .waiting, deps := [⟨false, 0, 0⟩] })] })] }

/-- A write of SCH_CANCEL that names launch 1, without FAULT (R139). -/
def cancelLaunchOne : W64 := 0x10001

theorem cancelLaunchOne_fields :
    fld cancelLaunchOne 18 16 = 1 ∧ fld cancelLaunchOne 11 0 % fileSize 1 = 1 ∧
      cancelStat (bitAt cancelLaunchOne 20) = (.cancelled, rCANCEL) := by decide

/-- The pass over dependences reaches the second entry (R127), and the counter resolves with its reason, not with
the cancel's. -/
theorem schCancel_doubledLaunch {t : State} (h : exec (.schCancelWrite 0 cancelLaunchOne) doubledLaunch = .next t) :
    (t.cntr 0 1 1).running = false ∧ (t.cntr 0 1 1).reason = rDEPFAIL := by
  have hrun : ((nextOr (execSchCancelWrite 0 cancelLaunchOne doubledLaunch) doubledLaunch).cntr 0 1 1).running = false ∧
      ((nextOr (execSchCancelWrite 0 cancelLaunchOne doubledLaunch) doubledLaunch).cntr 0 1 1).reason = rDEPFAIL := by
    decide
  have ht : execSchCancelWrite 0 cancelLaunchOne doubledLaunch = .next t := h
  rw [ht] at hrun
  exact hrun

end Sys2Proof.Machine
end

section
open Sys2Proof Sys2Proof.Machine

/-- Refutes O49: SCH_CANCEL of a running launch gives its counter the cancel's reason only while no entry of that ring
slot waits. In doubledLaunch, whose table lists slot 1 twice, the launch resolves CANCELLED with reason DEPFAIL (5) and
not CANCEL (7). The statement has no premise that a table lists each key once. -/
theorem not_schedulerEvents : ¬ Obligations.SchedulerEvents := by
  intro h
  obtain ⟨-, -, -, -, -, -, -, -, -, hcancel, -⟩ := h doubledLaunch 0 0 0 0 0 0 0 0 0 cancelLaunchOne []
  obtain ⟨hlv, hix, hstop⟩ := cancelLaunchOne_fields
  simp only [hlv, hix, hstop] at hcancel
  obtain ⟨t, ht, -, hresolved⟩ := hcancel (by decide) (by decide) (by decide) (by decide) (by decide)
  obtain ⟨hrun, hreason⟩ := schCancel_doubledLaunch ht
  have hcancelled := (hresolved hrun).2
  rw [hreason] at hcancelled
  exact absurd hcancelled (by decide)

end

section
/-!
SUPPORT. Context commands as CTXCTL takes them (R269, R273), FRACK (R264, R265), and the register words that are taken
whole or not at all (R197, R263, R267, R419).
-/

namespace Sys2Proof.Machine

open Sys2Proof

/-! ## A command that CTXCTL takes (R269) -/

section
variable {s : State} {q : Nat}

/-- Each context command is a write of its code. -/
theorem exec_eq_ctxCmd {j : Instr} {c : Nat}
    (h : (j, c) ∈ [Instr.ctxSwap q, .ctxSpill q, .ctxFill q].zip [1, 2, 3]) :
    exec j s = .next (s.ctxCmd q c) ∧ c ≠ 0 ∧ c ≤ 3 := by
  simp only [List.zip_cons_cons, List.zip_nil_right, List.mem_cons, List.not_mem_nil, or_false, Prod.mk.injEq] at h
  obtain ⟨rfl, rfl⟩ | ⟨rfl, rfl⟩ | ⟨rfl, rfl⟩ := h
  all_goals exact ⟨rfl, by decide, by decide⟩

/-- Each context command has its code. -/
theorem mem_ctxCmds {j : Instr} (h : j ∈ [Instr.ctxSwap q, .ctxSpill q, .ctxFill q]) :
    ∃ c, (j, c) ∈ [Instr.ctxSwap q, .ctxSpill q, .ctxFill q].zip [1, 2, 3] := by
  simp only [List.mem_cons, List.not_mem_nil, or_false] at h
  obtain rfl | rfl | rfl := h
  · exact ⟨1, .head _⟩
  · exact ⟨2, .tail _ (.head _)⟩
  · exact ⟨3, .tail _ (.tail _ (.head _))⟩

section
variable {c : Nat} (hc : c ≠ 0 ∧ c ≤ 3) (he : (s.prt q).exist = true)
include hc he

theorem State.ctxCmd_accepted : s.ctxCmd q c =
    if (s.prt q).ctxState ≠ 0 then s.setPrt q { s.prt q with ctxStatus := 1 }
    else if s.ctxHeldUp q then s.setPrt q { s.prt q with ctxState := 4, ctxStatus := 0, ctxWait := c }
    else s.ctxStart q c := by
  obtain ⟨h0, h3⟩ := hc
  refine if_neg ?_
  rw [he]
  simpa [h0] using h3

theorem State.ctxCmd_of_busy (h : (s.prt q).ctxState ≠ 0) :
    s.ctxCmd q c = s.setPrt q { s.prt q with ctxStatus := 1 } := by
  rw [State.ctxCmd_accepted hc he, if_pos h]

theorem State.ctxCmd_of_heldUp (h : (s.prt q).ctxState = 0) (hu : s.ctxHeldUp q = true) :
    s.ctxCmd q c = s.setPrt q { s.prt q with ctxState := 4, ctxStatus := 0, ctxWait := c } := by
  rw [State.ctxCmd_accepted hc he, if_neg (by simp [h]), if_pos hu]

theorem State.ctxCmd_of_free (h : (s.prt q).ctxState = 0) (hu : s.ctxHeldUp q = false) :
    s.ctxCmd q c = s.ctxStart q c := by
  rw [State.ctxCmd_accepted hc he, if_neg (by simp [h]), if_neg (by simp [hu])]

end

theorem ctxCmd_busy (he : (s.prt q).exist = true) (h : (s.prt q).ctxState ≠ 0) {j : Instr}
    (hj : j ∈ [Instr.ctxSwap q, .ctxSpill q, .ctxFill q]) :
    Completes j s (fun t => t.prt q = { s.prt q with ctxStatus := 1 }) := by
  obtain ⟨c, hm⟩ := mem_ctxCmds hj
  obtain ⟨hx, hc⟩ := exec_eq_ctxCmd (s := s) hm
  refine completes_of_next hx ?_
  rw [State.ctxCmd_of_busy hc he h, State.prt_setPrt]

theorem ctxCmd_waits (he : (s.prt q).exist = true) (h : (s.prt q).ctxState = 0) (hu : s.ctxHeldUp q = true)
    {j : Instr} {c : Nat} (hj : (j, c) ∈ [Instr.ctxSwap q, .ctxSpill q, .ctxFill q].zip [1, 2, 3]) :
    Completes j s (fun t => t.prt q = { s.prt q with ctxState := 4, ctxStatus := 0, ctxWait := c }) := by
  obtain ⟨hx, hc⟩ := exec_eq_ctxCmd (s := s) hj
  refine completes_of_next hx ?_
  rw [State.ctxCmd_of_heldUp hc he h hu, State.prt_setPrt]

/-! ## A command that starts, or is refused (R269) -/

theorem State.prt_setCtxState (s : State) (q st status : Nat) :
    (s.setCtxState q st status).prt q = { s.prt q with ctxState := st, ctxStatus := status } := State.prt_setPrt _ _ _

/-- A command that starts is in its state, with the event of its end in the agenda. -/
theorem State.started (s : State) (q st : Nat) (i : Instr) :
    ((s.setCtxState q st 0).post i).prt q = { s.prt q with ctxState := st, ctxStatus := 0 } ∧
      ((s.setCtxState q st 0).post i).agenda = s.agenda ++ [i] :=
  ⟨s.prt_setCtxState q st 0, rfl⟩

section
variable (he : (s.prt q).exist = true) (h : (s.prt q).ctxState = 0) (hu : s.ctxHeldUp q = false)
include he h hu

theorem ctxSwap_starts : Completes (.ctxSwap q) s (fun t =>
    t.prt q = { s.prt q with ctxState := 1, ctxStatus := 0 } ∧ t.agenda = s.agenda ++ [.ctxSwapDone q]) :=
  completes_of_next (congrArg Host.Outcome.next (State.ctxCmd_of_free (by decide) he h hu)) (s.started q 1 _)

theorem ctxSpill_starts
    (ha : s.inPrtMem q (fld (s.prt q).ctxSpill 51 12 * 4096) (s.spillBytes q (1 - (s.prt q).ctxActive)) = true) :
    Completes (.ctxSpill q) s (fun t =>
      t.prt q = { s.prt q with ctxState := 2, ctxStatus := 0 } ∧ t.agenda = s.agenda ++ [.ctxSpillDone q]) :=
  completes_of_next (congrArg Host.Outcome.next
    ((State.ctxCmd_of_free (by decide) he h hu).trans (if_pos ha))) (s.started q 2 _)

theorem ctxSpill_badaddr
    (ha : s.inPrtMem q (fld (s.prt q).ctxSpill 51 12 * 4096) (s.spillBytes q (1 - (s.prt q).ctxActive)) = false) :
    Completes (.ctxSpill q) s (fun t => t.prt q = { s.prt q with ctxState := 0, ctxStatus := 4 }) :=
  completes_of_next (congrArg Host.Outcome.next
    ((State.ctxCmd_of_free (by decide) he h hu).trans (if_neg (by rw [ha]; decide)))) (s.prt_setCtxState q 0 4)

theorem ctxFill_noslot (hx : bitAt (s.prt q).ctxHeld (1 - (s.prt q).ctxActive) = true) :
    Completes (.ctxFill q) s (fun t => t.prt q = { s.prt q with ctxState := 0, ctxStatus := 2 }) :=
  completes_of_next (congrArg Host.Outcome.next
    ((State.ctxCmd_of_free (by decide) he h hu).trans (if_pos hx))) (s.prt_setCtxState q 0 2)

theorem ctxFill_starts {e : Spill} (hx : bitAt (s.prt q).ctxHeld (1 - (s.prt q).ctxActive) = false)
    (hi : s.imageAt q (fld (s.prt q).ctxSpill 51 12 * 4096) = some e) (hslot : e.slot = 1 - (s.prt q).ctxActive)
    (ha : s.inPrtMem q (fld (s.prt q).ctxSpill 51 12 * 4096) 4096 = true)
    (hroom : s.shareShort q (1 - (s.prt q).ctxActive) e.words = false) :
    Completes (.ctxFill q) s (fun t =>
      t.prt q = { s.prt q with ctxState := 3, ctxStatus := 0 } ∧ t.agenda = s.agenda ++ [.ctxFillDone q]) := by
  refine completes_of_next (congrArg Host.Outcome.next
    ((State.ctxCmd_of_free (by decide) he h hu).trans ?_)) (s.started q 3 _)
  unfold State.ctxStart
  simp [hx, hi, hslot, ha, hroom]

end

/-! ## A command that stands still (R273) -/

/-- R273: the package is halted for the partition, or a region of it is scanned out. -/
theorem ctxSwapDone_waits (h : (s.prt q).ctxState = 1) (hw : ¬s.prtRuns (some q) = true ∨ s.scanning q = true) :
    Completes (.ctxSwapDone q) s (· = s) := by
  refine completes_of_next (t := s) ?_ rfl
  show execCtxSwapDone q s = _
  unfold execCtxSwapDone
  rw [h]
  refine congrArg Host.Outcome.next (if_pos (.inr ?_))
  exact hw.symm.imp_right (fun hr => by simpa using hr)

theorem ctxSpillDone_waits (hw : ¬s.prtRuns (some q) = true ∨ s.scanning q = true) :
    Completes (.ctxSpillDone q) s (· = s) :=
  completes_of_next (congrArg Host.Outcome.next (if_pos (.inr (.inr (hw.symm.imp_right (fun hr => by simpa using hr))))))
    rfl

theorem ctxFillDone_waits (hw : ¬s.prtRuns (some q) = true ∨ s.scanning q = true) :
    Completes (.ctxFillDone q) s (· = s) :=
  completes_of_next (congrArg Host.Outcome.next (if_pos (.inr (.inr (hw.symm.imp_right (fun hr => by simpa using hr))))))
    rfl

end

/-! ## FRACK (R264, R265) -/

theorem WakesOnly.prts {s t : State} (h : WakesOnly s t) : t.prts = s.prts := by
  rw [← h]

/-- `t` has the regions of `s`. -/
def KeepsRegions (s t : State) : Prop := t.regions = s.regions

namespace KeepsRegions

theorem refl (s : State) : KeepsRegions s s := rfl

theorem trans {s t u : State} (h : KeepsRegions s t) (k : KeepsRegions t u) : KeepsRegions s u := Eq.trans k h

theorem foldl {β : Type} {f : State → β → State} (hf : ∀ s b, KeepsRegions s (f s b)) (l : List β) (s : State) :
    KeepsRegions s (l.foldl f s) := foldl_related refl trans hf l s

theorem ite {s t u : State} {c : Prop} [Decidable c] (h : KeepsRegions s t) (k : KeepsRegions s u) :
    KeepsRegions s (if c then t else u) := by
  split
  · exact h
  · exact k

end KeepsRegions

theorem State.poke_keepsRegions (s : State) (i : Instr) : KeepsRegions s (s.poke i) := .ite (.refl s) rfl

theorem State.pokes_keepsRegions (s : State) (l : List Instr) : KeepsRegions s (s.pokes l) :=
  .foldl State.poke_keepsRegions l s

/-- A region that may act again keeps its clock and its fault: only its extents are filled again. -/
theorem State.wakeRegion_clock (s : State) (q sl : Nat) :
    ((s.wakeRegion q sl).region q sl).clock = (s.region q sl).clock ∧
      ((s.wakeRegion q sl).region q sl).faulted = (s.region q sl).faulted := by
  unfold State.wakeRegion
  extract_lets r
  generalize hp :
    (if s.regionRuns q r then (s.restore q r, s.setRegion q sl (s.restore q r)) else (r, s)) = p
  obtain ⟨r', s0⟩ := p
  have h0 : (s0.region q sl).clock = r.clock ∧ (s0.region q sl).faulted = r.faulted := by
    split at hp
    · cases hp
      rw [State.region_setRegion]
      exact ⟨rfl, rfl⟩
    · cases hp
      exact ⟨rfl, rfl⟩
  dsimp -zeta only
  extract_lets s1 s2 s3 s4 s5 s6
  have h1 : KeepsRegions s0 s1 := .foldl (fun t _ => t.pokes_keepsRegions _) _ _
  have h2 : KeepsRegions s1 s2 := .foldl (fun t _ => t.pokes_keepsRegions _) _ _
  have h3 : KeepsRegions s2 s3 := .foldl (fun t _ =>
    have h : KeepsRegions t _ := .ite (t.poke_keepsRegions _) (.refl t)
    .ite (h.trans (State.poke_keepsRegions _ _)) h) _ _
  have h4 : KeepsRegions s3 s4 := .foldl (fun t _ => t.pokes_keepsRegions _) _ _
  have h5 : KeepsRegions s4 s5 := .foldl (fun t _ => .ite (t.poke_keepsRegions _) (.refl t)) _ _
  have h6 : KeepsRegions s5 s6 := .foldl (fun t _ => .ite (.refl t) (t.pokes_keepsRegions _)) _ _
  have h7 := h1.trans (h2.trans (h3.trans (h4.trans (h5.trans (h6.trans (s6.pokes_keepsRegions
    [.hushSweep q sl, .regionClockStop q sl]))))))
  have h : (s6.pokes [.hushSweep q sl, .regionClockStop q sl]).region q sl = s0.region q sl := by
    unfold KeepsRegions at h7
    unfold State.region
    rw [h7]
  rw [h]
  exact h0

section
variable (s : State) (q : Nat) {v : W64}

theorem frackResume_ignored (h : bitAt v 63 = false) : Completes (.frackResume q v) s (· = s) :=
  completes_of_next (congrArg Host.Outcome.next (if_pos (.inl (by rw [h]; rfl)))) rfl

variable (h : bitAt v 63 = true) (hl : (s.region q (fld v 11 0)).loaded = true)
include h hl

theorem frackResume_acts : exec (.frackResume q v) s = .next (
    if (s.region q (fld v 11 0)).savedAt.isSome then
      (s.setRegion q (fld v 11 0) { s.region q (fld v 11 0) with reload := true }).post
        (.regionReload q (fld v 11 0))
    else if (s.region q (fld v 11 0)).clock = 1 ∧ (s.region q (fld v 11 0)).retryable then
      (s.setRegion q (fld v 11 0) (s.region q (fld v 11 0)).retry).wakeRegion q (fld v 11 0)
    else s) :=
  congrArg Host.Outcome.next (if_neg (by simp [h, hl]))

theorem frackResume_reloads (hs : (s.region q (fld v 11 0)).savedAt ≠ none) :
    Completes (.frackResume q v) s (fun t =>
      t.region q (fld v 11 0) = { s.region q (fld v 11 0) with reload := true } ∧
        t.agenda = s.agenda ++ [.regionReload q (fld v 11 0)]) := by
  refine completes_of_next ((frackResume_acts s q h hl).trans
    (congrArg Host.Outcome.next (if_pos (Option.isSome_iff_ne_none.2 hs)))) ⟨State.region_setRegion _ _ _ _, rfl⟩

theorem frackResume_retries (hs : (s.region q (fld v 11 0)).savedAt = none)
    (hc : (s.region q (fld v 11 0)).clock = 1) (hr : (s.region q (fld v 11 0)).retryable = true) :
    Completes (.frackResume q v) s (fun t =>
      (t.region q (fld v 11 0)).clock = 0 ∧ (t.region q (fld v 11 0)).faulted = false) := by
  refine completes_of_next ((frackResume_acts s q h hl).trans
    (congrArg Host.Outcome.next ((if_neg (by rw [hs]; decide)).trans (if_pos ⟨hc, hr⟩)))) ?_
  obtain ⟨hclock, hfault⟩ := (s.setRegion q (fld v 11 0) (s.region q (fld v 11 0)).retry).wakeRegion_clock q (fld v 11 0)
  rw [hclock, hfault, State.region_setRegion]
  exact ⟨rfl, rfl⟩

end

/-! ## Words taken whole or not at all (R197, R263, R267, R419) -/

/-- A mask that has every bit of a field keeps the field. -/
theorem fld_and {w : Nat} (x m : BitVec w) {hi lo : Nat} (h : ∀ i, lo ≤ i → i ≤ hi → m.getLsbD i = true) :
    fld (x &&& m) hi lo = fld x hi lo := by
  unfold fld
  apply Nat.eq_of_testBit_eq
  intro i
  rw [Nat.testBit_mod_two_pow, Nat.testBit_mod_two_pow, Nat.testBit_div_two_pow, Nat.testBit_div_two_pow,
    BitVec.toNat_and, Nat.testBit_and]
  by_cases hi' : i < hi + 1 - lo
  · have hm : m.toNat.testBit (i + lo) = true := h (i + lo) (by omega) (by omega)
    rw [hm, Bool.and_true]
  · simp [hi']

/-- The mask of the tile words keeps BASE and LEN (R267). -/
theorem fld_mtpwMask (v : W64) :
    fld (v &&& 0x7F7F) 14 8 = fld v 14 8 ∧ fld (v &&& 0x7F7F) 6 0 = fld v 6 0 :=
  ⟨fld_and v _ (by decide), fld_and v _ (by decide)⟩

section
variable {s : State} {core n q off : Nat} {v : W64}

theorem poolpwWrite_refused (h : s.poolOk core n (v &&& 0x00000FFFFFFC01FF) = false) :
    Completes (.poolpwWrite core n v) s (fun t => t = s.setCore core { s.core core with pwRefused := true }) :=
  completes_of_next (congrArg Host.Outcome.next (if_neg (by rw [h]; decide))) rfl

/-- Registers that come out of the pool's bytes leave the cores as they are. -/
theorem State.carveIn_cores (s : State) (c x : Nat) : (s.carveIn c x).cores = s.cores := by
  unfold State.carveIn
  exact List.foldlRecOn (motive := fun t : State => t.cores = s.cores) _ _ rfl (fun _ h _ _ => h)

theorem State.carveIn_core (s : State) (c x k : Nat) : (s.carveIn c x).core k = s.core k := by
  unfold State.core
  rw [s.carveIn_cores c x]

theorem poolpwWrite_taken (h : s.poolOk core n (v &&& 0x00000FFFFFFC01FF) = true) :
    Completes (.poolpwWrite core n v) s (fun t =>
      (t.core core).poolpw n = v &&& 0x00000FFFFFFC01FF ∧ (t.core core).pwRefused = false) := by
  refine completes_of_next (congrArg Host.Outcome.next (if_pos h)) ?_
  extract_lets t u w
  have hw : w.core core = if n = 0 then
      { s.core core with poolpw0 := v &&& 0x00000FFFFFFC01FF, pwRefused := false }
    else { s.core core with poolpw1 := v &&& 0x00000FFFFFFC01FF, pwRefused := false } :=
    (u.carveIn_core core n core).trans (State.core_setCore _ _ _)
  have hk : (w.core core).poolpw n = v &&& 0x00000FFFFFFC01FF ∧ (w.core core).pwRefused = false := by
    rw [hw]
    by_cases hn : n = 0
    · rw [if_pos hn]; exact ⟨if_pos hn, rfl⟩
    · rw [if_neg hn]; exact ⟨if_neg hn, rfl⟩
  split
  · exact hk
  · exact hk

theorem mtpwWrite_taken (hlen : fld v 14 8 + fld v 6 0 ≤ 64) (hempty : fld v 6 0 = 0)
    (hr : ∀ z ∈ s.regions, z.1 / 4096 = q → z.2.loaded = true → z.2.ctx ≠ 0) :
    Completes (.mtpwWrite q 0 v) s (fun t => t.prt q = { s.prt q with mtpw0 := v &&& 0x7F7F }) := by
  refine completes_of_next (congrArg Host.Outcome.next ((if_neg ?_).trans (congrArg (s.setPrt q) (if_pos rfl))))
    (State.prt_setPrt _ _ _)
  have hnone : s.regions.any (fun e => e.1 / 4096 == q && e.2.loaded && e.2.ctx == 0) = false := by
    rw [List.any_eq_false]
    intro z hz
    simpa using hr z hz
  have hlen' : fld v 14 8 ≤ 64 := by omega
  obtain ⟨hbase, hsize⟩ := fld_mtpwMask v
  rw [hbase, hsize]
  simp [hnone, hlen', hempty]

theorem mtpwWrite_too_long (h : 64 < fld v 14 8 + fld v 6 0) : Completes (.mtpwWrite q n v) s (· = s) := by
  obtain ⟨hbase, hsize⟩ := fld_mtpwMask v
  rw [← hbase, ← hsize] at h
  exact completes_of_next (congrArg Host.Outcome.next (if_pos (.inl h))) rfl

theorem frbaseWrite_taken (h : fld v 4 0 = 0 ∨ (6 ≤ fld v 4 0 ∧ fld v 4 0 ≤ 12)) :
    Completes (.frbaseWrite q v) s (fun t => t.prt q = { s.prt q with frbase := v &&& 0x000FFFFFFFFFF01F }) :=
  completes_of_next (congrArg Host.Outcome.next (if_pos h)) (State.prt_setPrt _ _ _)

theorem frbaseWrite_ignored (h0 : fld v 4 0 ≠ 0) (h : fld v 4 0 < 6 ∨ 12 < fld v 4 0) :
    Completes (.frbaseWrite q v) s (· = s) :=
  completes_of_next (congrArg Host.Outcome.next (if_neg (by omega))) rfl

theorem rqdescWrite_taken (hcap : fld v 11 0 ≠ 0 ∨ bitAt v 63 = false)
    (hfit : fld v 49 32 + 16 * (fld v 11 0 + 1) ≤ 1024 * (s.pw core off).scrkb) :
    Completes (.rqdescWrite core off n v) s (fun t => (t.core core).rq.look {} (rqIdx off n) =
      { enable := bitAt v 63, base := fld v 49 32, cap := fld v 11 0, head := 0, tail := 0 }) := by
  refine completes_of_next (congrArg Host.Outcome.next (if_neg ?_)) ?_
  · rintro (⟨h0, hen⟩ | hlong)
    · exact hcap.elim (· h0) (fun hoff => by simp [hoff] at hen)
    · exact absurd hlong (by omega)
  · rw [State.core_setCore, Tbl.look_put_self]

theorem rqdescWrite_ignored
    (h : (fld v 11 0 = 0 ∧ bitAt v 63 = true) ∨
      1024 * (s.pw core off).scrkb < fld v 49 32 + 16 * (fld v 11 0 + 1)) :
    Completes (.rqdescWrite core off n v) s (· = s) :=
  completes_of_next (congrArg Host.Outcome.next (if_pos h)) rfl

end

/-! ## Register writes (R5, R48, R112) -/

section
variable (s : State) {fn : Nat} (v : W64)

theorem registerWrite_pf1 (off : Nat) : Completes (.registerWrite 257 off v) s (· = s) :=
  completes_of_next rfl rfl

theorem registerWrite_vf (hfn : fn < 256) (off : Nat) :
    exec (.registerWrite fn off v) s = .next (s.vfWrite fn off v) :=
  congrArg Host.Outcome.next (if_pos hfn)

theorem registerWrite_pf0 (off : Nat) : exec (.registerWrite 256 off v) s = .next (s.pfWrite off v) := rfl

theorem registerWrite_doorbell (hfn : fn < 256) :
    exec (.registerWrite fn 0 v) s = exec (.doorbell fn (b2n (s.vf fn).port) (v.setWidth 32)) s :=
  registerWrite_vf s v hfn 0

/-- The supervisor's page holds WEIGHT to read, not to write (R112). -/
theorem registerWrite_vf_weight (hfn : fn < 256) : Completes (.registerWrite fn 0x2018 v) s (· = s) := by
  refine completes_of_next (registerWrite_vf s v hfn 0x2018) ?_
  by_cases he : (s.vf fn).enable = true
  · exact if_neg (by simp [he])
  · exact if_pos (by simp [he])

theorem registerWrite_fwAddr :
    Completes (.registerWrite 256 0x208 v) s (fun t => t.hif = { s.hif with fwAddr := v &&& ~~~0xFFF }) :=
  completes_of_next (registerWrite_pf0 s v 0x208) rfl

theorem registerWrite_stepMask :
    Completes (.registerWrite 256 0x1600008 v) s (fun t => t.dbg = { s.dbg with stepMask := v }) :=
  completes_of_next (registerWrite_pf0 s v 0x1600008) rfl

theorem registerWrite_weight {q : Nat} (hq : q < 64) :
    Completes (.registerWrite 256 (0x140018 + 0x1000 * q) v) s (fun t =>
      t.prt q = { s.prt q with weight := v.setWidth 32 }) := by
  have hpage : s.pfWrite (0x140018 + 0x1000 * q) v = s.prtPageWrite q false 0x018 v := by
    have hdiv : (0x140018 + 0x1000 * q - 0x140000) / 0x1000 = q := by omega
    have hmod : (0x140018 + 0x1000 * q) % 0x1000 = 0x018 := by omega
    unfold State.pfWrite
    rw [if_neg (by omega), if_pos (by omega), if_pos (by omega), hdiv, hmod]
  refine completes_of_next (registerWrite_pf0 s v _) ?_
  rw [hpage]
  exact State.prt_setPrt _ _ _

end

end Sys2Proof.Machine
end

section
/-!
SUPPORT. The end of a swap, a spill and a fill (R266 to R271): what the tables hold after a context has been renamed,
where the partition's memory still lies, and what a fill puts back.
-/

namespace Sys2Proof.Machine

open Sys2Proof

/-! ## Tables that a list is written into -/

namespace Tbl

section
variable {α : Type}

theorem look_of_mem (d : α) {t : Tbl α} (h : (t.map (·.1)).Nodup) {k : Nat} {x : α} (hx : (k, x) ∈ t) :
    t.look d k = x := by
  induction t with
  | nil => exact absurd hx List.not_mem_nil
  | cons e r ih =>
    rw [List.map_cons, List.nodup_cons] at h
    obtain ⟨hnew, hr⟩ := h
    rcases List.mem_cons.1 hx with rfl | hx
    · exact if_pos rfl
    · have hne : e.1 ≠ k := fun he => hnew (he ▸ List.mem_map_of_mem (f := (·.1)) hx)
      exact (if_neg hne).trans (ih hr hx)

/-- The last entry written at a key is what the key holds. -/
theorem look_foldl_put_find [DecidableEq α] (d : α) (g : Nat → Nat) (l : List (Nat × α)) (t : Tbl α) (y : Nat) :
    (l.foldl (fun (t : Tbl α) c => t.put d (g c.1) c.2) t).look d y =
      (l.reverse.find? (fun c => g c.1 == y)).elim (t.look d y) (·.2) := by
  induction l using List.reverseRecOn with
  | nil => rfl
  | append_singleton l c ih =>
    rw [List.foldl_append, List.foldl_cons, List.foldl_nil, look_put, List.reverse_append, List.reverse_singleton,
      List.singleton_append, List.find?_cons]
    by_cases h : y = g c.1
    · simp [h]
    · have h' : (g c.1 == y) = false := by simpa using Ne.symm h
      rw [if_neg h, h', ih]

/-- A key at which the list holds one value reads as that value. -/
theorem look_foldl_ins (d : α) {l : List (Nat × α)} {k : Nat} {x : α} (hx : (k, x) ∈ l)
    (hone : ∀ e ∈ l, e.1 = k → e.2 = x) (t : Tbl α) :
    (l.foldl (fun (t : Tbl α) e => t.ins e.1 e.2) t).look d k = x := by
  induction l using List.reverseRecOn with
  | nil => exact absurd hx List.not_mem_nil
  | append_singleton l c ih =>
    rw [List.foldl_append, List.foldl_cons, List.foldl_nil, look_ins]
    split
    case isTrue h => exact hone c (List.mem_append_right _ List.mem_cons_self) h.symm
    case isFalse h =>
      refine ih ?_ (fun e he => hone e (List.mem_append_left _ he))
      rcases List.mem_append.1 hx with hx | hx
      · exact hx
      · exact absurd (congrArg Prod.fst (List.mem_singleton.1 hx)) h

end

end Tbl

/-! ## Swap (R266, R270) -/

theorem State.swap_prt (s : State) (q : Nat) :
    ((s.swap q).prt q).ctxActive = 1 - (s.prt q).ctxActive ∧ ((s.swap q).prt q).ctxState = 0 := by
  unfold State.swap
  extract_lets x y ms s1 s2 s3 s4 s5 s6 p
  rw [State.prt_setPrt]
  exact ⟨rfl, rfl⟩

theorem ctxSwapDone_swaps {s : State} {q : Nat} (h : (s.prt q).ctxState = 1) (hc : s.cfgPending q = false)
    (hs : s.scanning q = false) (hr : s.prtRuns (some q) = true) :
    Completes (.ctxSwapDone q) s (fun t =>
      (t.prt q).ctxActive = 1 - (s.prt q).ctxActive ∧ (t.prt q).ctxState = 0) := by
  refine completes_of_next (t := (s.swap q).wakePrt q) ?_ ?_
  · show execCtxSwapDone q s = _
    unfold execCtxSwapDone
    rw [h]
    exact congrArg Host.Outcome.next (if_neg (by simp [hc, hs, hr]))
  · have hp : ((s.swap q).wakePrt q).prt q = (s.swap q).prt q := by
      unfold State.prt
      rw [((s.swap q).wakePrt_wakes q).prts]
    rw [hp]
    exact s.swap_prt q

/-! ## Threads that are renamed (R266, R271) -/

section
variable {s : State}

theorem State.rename_thread {f : Nat → Nat} {j k : Nat} {th : Thread} (hj : (j, th) ∈ s.threads)
    (hst : th.st ≠ .empty) (hf : f j = k) (hone : ∀ e ∈ s.threads, e.2.st ≠ .empty → f e.1 = k → e.2 = th) :
    (s.rename f).thread k = th := by
  have hlive : ∀ e : Nat × Thread, e ∈ s.threads.filter (fun e => decide (e.2.st ≠ .empty)) ↔
      e ∈ s.threads ∧ e.2.st ≠ .empty := fun e => by rw [List.mem_filter, decide_eq_true_iff]
  have hk : (k, th) ∈ (s.threads.filter (fun e => decide (e.2.st ≠ .empty))).map (fun e => (f e.1, e.2)) :=
    List.mem_map.2 ⟨(j, th), (hlive _).2 ⟨hj, hst⟩, congrArg (·, th) hf⟩
  refine Tbl.look_foldl_ins ({} : Thread) hk (fun e he hk => ?_) []
  obtain ⟨e', he', rfl⟩ := List.mem_map.1 he
  obtain ⟨hm, hl⟩ := (hlive e').1 he'
  exact hone e' hm hl hk

/-- A thread of the context that moves is found in its place in the new range. -/
theorem State.moveThreads_thread {q ctx base base' j : Nat} {th : Thread} (hn : (s.threads.map (·.1)).Nodup)
    (hj : (j, th) ∈ s.threads) (hst : th.st ≠ .empty) (hq : th.prt = q) (hctx : th.ctx = ctx) (hlo : base ≤ j)
    (hhi : j < base + 65536) (hfree : (s.thread (j - base + base')).st = .empty) :
    (s.moveThreads q ctx base base').thread (j - base + base') = th := by
  have hth : s.thread j = th := Tbl.look_of_mem _ hn hj
  refine State.rename_thread hj hst (if_pos ⟨hth ▸ hst, hth ▸ hq, hth ▸ hctx, hlo, hhi⟩) (fun e he hl hk => ?_)
  have hek : s.thread e.1 = e.2 := Tbl.look_of_mem _ hn he
  dsimp only at hk
  split at hk
  case isTrue h =>
    obtain ⟨-, -, -, hle, -⟩ := h
    have hej : e.1 = j := by omega
    rw [← hek, hej, hth]
  case isFalse h => exact absurd (hk ▸ hfree) (hek ▸ hl)

theorem State.setCtx_thread (s : State) (q : Nat) {a : Nat} (ha : a ≠ 0) (b k : Nat) :
    (s.setCtx q a b).thread k =
      { s.thread k with ctx := if (s.thread k).prt = q ∧ (s.thread k).ctx = a then b else (s.thread k).ctx } := by
  refine Tbl.look_map (d := ({} : Thread))
    (f := fun th : Thread => { th with ctx := if th.prt = q ∧ th.ctx = a then b else th.ctx }) ?_ s.threads k
  have h : ¬(({} : Thread).prt = q ∧ ({} : Thread).ctx = a) := fun h => ha h.2.symm
  simp only [if_neg h]

end

end Sys2Proof.Machine
end

section
/-!
SUPPORT. What a spill and a fill leave of memory (R267, R271).
-/

namespace Sys2Proof.Machine

open Sys2Proof

/-! ## Where the partition's memory lies -/

/-- What tells where a partition's memory lies (R81, R82, R252). -/
def Prt.place (p : Prt) : List Nat × List Nat × Tbl Mig := (p.groups, p.ddrUnits, p.mig)

/-- `t` holds the bytes of `s`, no new waiter, and partition `q` has its memory where it had it. -/
structure MemoryKept (q : Nat) (s t : State) : Prop where
  mem : t.mem = s.mem
  waiters : s.waiters = [] → t.waiters = []
  resize : t.resize = s.resize
  place : (t.prt q).place = (s.prt q).place

section
variable {q : Nat} {s t u : State}

theorem MemoryKept.refl (q : Nat) (s : State) : MemoryKept q s s := ⟨rfl, id, rfl, rfl⟩

theorem MemoryKept.trans (h : MemoryKept q s t) (k : MemoryKept q t u) : MemoryKept q s u where
  mem := k.mem.trans h.mem
  waiters := fun hw => k.waiters (h.waiters hw)
  resize := k.resize.trans h.resize
  place := k.place.trans h.place

theorem MemoryKept.foldl {β : Type} {f : State → β → State} (hf : ∀ s b, MemoryKept q s (f s b)) (l : List β)
    (s : State) : MemoryKept q s (l.foldl f s) :=
  foldl_related (R := MemoryKept q) (MemoryKept.refl q) MemoryKept.trans hf l s

theorem MemoryKept.memHome (h : MemoryKept q s t) (pa : Nat) : t.memHome q pa = s.memHome q pa := by
  obtain ⟨hgroups, hunits, hmig⟩ : (t.prt q).groups = (s.prt q).groups ∧ (t.prt q).ddrUnits = (s.prt q).ddrUnits ∧
      (t.prt q).mig = (s.prt q).mig := by simpa only [Prt.place, Prod.mk.injEq] using h.place
  unfold State.memHome State.prtHome State.groupsAt State.sweepOf Prt.hbmCap Prt.ddrCap
  dsimp only
  rw [h.resize, hgroups, hunits, hmig]

/-- A field of a table's values that a map keeps, with the keys, reads the same at every key. -/
theorem Tbl.look_map_field {α β : Type} {d : α} {f : Nat × α → Nat × α} {g : α → β} (t : Tbl α) (k : Nat)
    (hf : ∀ e, (f e).1 = e.1 ∧ g (f e).2 = g e.2) : g (Tbl.look d (t.map f) k) = g (t.look d k) := by
  induction t with
  | nil => rfl
  | cons e r ih =>
    obtain ⟨hkey, hval⟩ := hf e
    by_cases hk : e.1 = k
    · simp [Tbl.look, hkey, hk, hval]
    · simp [Tbl.look, hkey, hk, ih]

theorem State.rename_memoryKept (s : State) (f : Nat → Nat) (q : Nat) : MemoryKept q s (s.rename f) where
  mem := rfl
  waiters := fun h => by
    show s.waiters.map _ = []
    rw [h, List.map_nil]
  resize := rfl
  place := by
    refine Tbl.look_map_field (g := Prt.place) s.prts q ?_
    exact fun _ => ⟨rfl, rfl⟩

theorem State.setCtx_memoryKept (s : State) (q' a b q : Nat) : MemoryKept q s (s.setCtx q' a b) where
  mem := rfl
  waiters := id
  resize := rfl
  place := by
    refine Tbl.look_map_field (g := Prt.place) s.prts q ?_
    exact fun _ => ⟨rfl, rfl⟩

theorem State.setCore_memoryKept (s : State) (c : Nat) (x : Core) (q : Nat) : MemoryKept q s (s.setCore c x) :=
  ⟨rfl, id, rfl, rfl⟩

theorem State.setClu_memoryKept (s : State) (m : Nat) (x : Cluster) (q : Nat) : MemoryKept q s (s.setClu m x) :=
  ⟨rfl, id, rfl, rfl⟩

theorem State.dropTileTlb_memoryKept (s : State) (q' x q : Nat) : MemoryKept q s (s.dropTileTlb q' x) :=
  .foldl (fun t m => t.setClu_memoryKept m _ q) _ s

/-! ## A store to partition memory (R271) -/

theorem State.deviceStore_of_no_waiters (hw : s.waiters = []) (a : Nat) (l : List Byte) :
    s.deviceStore a l = s.deviceWrite a l :=
  State.serveRange_of_no_waiters (s := s.deviceWrite a l) hw a l.length

/-- A byte that lies at no home of the partition's memory keeps its value when nothing waits at the homes. -/
theorem State.prtStore_byteAt {y : Nat} (n : Nat) (hw : s.waiters = [])
    (hy : ∀ b h, s.memHome q b = some h → ¬(h ≤ y ∧ y < h + 64)) (pa : Nat) (l : List Byte) :
    (s.prtStore q pa n l).byteAt y = s.byteAt y := by
  induction n generalizing s pa l with
  | zero => rfl
  | succ n ih =>
    unfold State.prtStore
    cases hh : s.memHome q pa with
    | none => exact ih hw hy _ _
    | some h =>
      dsimp only
      rw [State.deviceStore_of_no_waiters hw]
      have hs := s.deviceWrite_stores h (l.take 64)
      refine (ih (hs.waiters.trans hw) (fun b h' hb => hy b h' ?_) _ _).trans ?_
      · rwa [State.memHome_congr hs.prts hs.resize] at hb
      · have hlen : (l.take 64).length ≤ 64 := List.length_take_le 64 l
        have hout : ¬(h ≤ y ∧ y < h + (l.take 64).length) := fun ⟨hlo, hhi⟩ => hy pa h hh ⟨hlo, by omega⟩
        unfold State.byteAt
        rw [State.deviceWrite_mem, Memory.get_writeList, if_neg hout]

end

/-! ## Shares that are zeroed (R267) -/

theorem State.zeroShares_byteAt (s : State) (q x y : Nat) :
    (s.zeroShares q x).byteAt y = if (s.shareKey q x y).isSome then 0 else s.byteAt y := by
  refine (Tbl.look_filter 0 (fun a => (s.shareKey q x a).isNone) s.mem y).trans ?_
  cases s.shareKey q x y <;> rfl

theorem State.zeroShares_full (s : State) (q x y : Nat) :
    (s.zeroShares q x).full.look .unset y =
      if (s.shareKey q x (8 * y)).isSome then .unset else s.full.look .unset y := by
  refine (Tbl.look_filter .unset (fun a => (s.shareKey q x (8 * a)).isNone) s.full y).trans ?_
  cases s.shareKey q x (8 * y) <;> rfl

/-! ## Spill (R269, R271) -/

/-- The slot's context of the partition has left its units, its shares and its TLB entries, for image `id`. -/
def State.left (s : State) (q x id : Nat) : State :=
  let s := ((s.zeroShares q x).moveThreads q x outKey (spillKey id)).setCtx q x (2 + id)
  ((s.coresOf q).foldl (fun s c => s.setCore c { s.core c with tlbOut := [] }) s).dropTileTlb q x

theorem State.left_memoryKept (s : State) (q x id : Nat) : MemoryKept q (s.zeroShares q x) (s.left q x id) :=
  ((State.rename_memoryKept _ _ q).trans (State.setCtx_memoryKept _ q x (2 + id) q)).trans
    ((MemoryKept.foldl (fun t c => t.setCore_memoryKept c _ q) _ _).trans (State.dropTileTlb_memoryKept _ q x q))

theorem bitAt_and_two (b : BitVec 2) : bitAt (b &&& 2) 0 = false := by
  revert b
  decide

theorem bitAt_and_one (b : BitVec 2) : bitAt (b &&& 1) 1 = false := by
  revert b
  decide

/-! What a new number and free values leave alone. -/

section
variable (s : State) (n k : Nat)

theorem State.prt_drawn : ({ s with idNext := n, fresh := k } : State).prt = s.prt := by
  unfold State.prt
  dsimp only

theorem State.pw_drawn : ({ s with idNext := n, fresh := k } : State).pw = s.pw := by
  unfold State.pw State.core
  dsimp only

theorem State.ownsCluster_drawn : ({ s with idNext := n, fresh := k } : State).ownsCluster = s.ownsCluster := by
  unfold State.ownsCluster
  dsimp only

theorem State.ownsBlock_drawn : ({ s with idNext := n, fresh := k } : State).ownsBlock = s.ownsBlock := by
  unfold State.ownsBlock
  dsimp only

theorem State.shareKey_drawn : ({ s with idNext := n, fresh := k } : State).shareKey = s.shareKey := by
  unfold State.shareKey
  rw [State.prt_drawn, State.pw_drawn, State.ownsCluster_drawn, State.ownsBlock_drawn]

theorem State.spillBytes_drawn : ({ s with idNext := n, fresh := k } : State).spillBytes = s.spillBytes := by
  unfold State.spillBytes State.coresOf State.core
  rw [State.prt_drawn]

end

/-- The state in which a spill of slot `x` has its image's number and bytes (logs 13, 19). -/
def State.drawn (s : State) (q x : Nat) : State :=
  (s.newId.2.freeBytes (s.newId.2.spillBytes q x)).2

/-- The image that a spill of slot `x` records. -/
def State.image (s : State) (q x : Nat) : Spill :=
  let t := s.drawn q x
  { img := (s.newId.2.freeBytes (s.newId.2.spillBytes q x)).1, slot := x, words := t.shareWords q x
    mtpw := if x = 0 then (t.prt q).mtpw0 else (t.prt q).mtpw1
    cells := (t.shareCells q x).1, full := (t.shareCells q x).2, id := s.idNext }

/-- The image is in partition memory, once the context has left. -/
def State.imageStored (s : State) (q x : Nat) : State :=
  ((s.drawn q x).left q x s.idNext).prtStore q (fld ((s.drawn q x).prt q).ctxSpill 51 12 * 4096)
    (s.newId.2.spillBytes q x / 64) (s.image q x).img

theorem State.freeBytes_length (s : State) (n : Nat) : (s.freeBytes n).1.length = n := by
  unfold State.freeBytes
  rw [List.length_map, List.length_range]

theorem State.image_length (s : State) (q x : Nat) : (s.image q x).img.length = s.spillBytes q x :=
  (s.newId.2.freeBytes_length _).trans (congrFun (congrFun (s.spillBytes_drawn (s.idNext + 1) s.fresh) q) x)

section
variable {s : State} {q : Nat}

/-- What `prtStore` is asked to put at partition memory touches no byte of the shares, and those are zero. -/
theorem State.imageStored_byteAt {x : Nat} (hw : s.waiters = [])
    (hd : ∀ b h, s.memHome q b = some h → ∀ o < 64, s.shareKey q x (h + o) = none) {y : Nat}
    (hy : s.shareKey q x y ≠ none) : (s.imageStored q x).byteAt y = 0 := by
  let t : State := s.drawn q x
  have hkey : t.shareKey = s.shareKey := s.shareKey_drawn _ _
  have hhome : t.memHome = s.memHome := State.memHome_congr rfl rfl
  have hk : MemoryKept q (t.zeroShares q x) (t.left q x s.idNext) := t.left_memoryKept q x s.idNext
  refine (State.prtStore_byteAt _ (hk.waiters hw) (fun b h hb hin => ?_) _ _).trans ?_
  · have hb : s.memHome q b = some h := by
      rw [← hhome, ← hb, hk.memHome]
      exact congrFun (congrFun (State.memHome_congr rfl rfl) q) b
    have hfree := hd b h hb (y - h) (by omega)
    rw [Nat.add_sub_cancel' hin.1] at hfree
    exact hy hfree
  · unfold State.byteAt
    rw [hk.mem]
    exact (t.zeroShares_byteAt q x y).trans (if_pos (by rw [hkey]; exact Option.isSome_iff_ne_none.2 hy))

theorem ctxSpillDone_spills (h : (s.prt q).ctxState = 2)
    (hb : s.sharesBusy q (1 - (s.prt q).ctxActive) = false) (hs : s.scanning q = false)
    (ha : (s.prt q).ctxActive ≤ 1) (hr : s.prtRuns (some q) = true) (hw : s.waiters = []) :
    Completes (.ctxSpillDone q) s (fun t =>
      (t.prt q).ctxState = 0 ∧ (t.prt q).ctxSpilled = true ∧
      bitAt (t.prt q).ctxHeld (1 - (s.prt q).ctxActive) = false ∧
      (∃ z ∈ (t.prt q).spills, z.slot = 1 - (s.prt q).ctxActive ∧
        z.img.length = s.spillBytes q (1 - (s.prt q).ctxActive)) ∧
      ((∀ b h, s.memHome q b = some h → ∀ o < 64, s.shareKey q (1 - (s.prt q).ctxActive) (h + o) = none) →
        ∀ y, s.shareKey q (1 - (s.prt q).ctxActive) y ≠ none → t.byteAt y = 0)) := by
  generalize hx : 1 - (s.prt q).ctxActive = x at hb
  have hx1 : x = 0 ∨ x = 1 := by omega
  let u := s.imageStored q x
  refine completes_of_next (t := u.setPrt q { u.prt q with
      spills := (u.prt q).spills ++ [s.image q x], ctxState := 0, ctxSpilled := true
      ctxHeld := if x = 0 then (u.prt q).ctxHeld &&& 2 else (u.prt q).ctxHeld &&& 1 }) ?_ ?_
  · subst hx
    exact congrArg Host.Outcome.next (if_neg (by simp [h, hb, hs, hr]))
  · rw [State.prt_setPrt]
    refine ⟨rfl, rfl, ?_, ⟨s.image q x, List.mem_append_right _ List.mem_cons_self, rfl, ?_⟩,
      fun hd y hy => State.imageStored_byteAt hw hd hy⟩
    · rcases hx1 with rfl | rfl
      · exact bitAt_and_two _
      · exact bitAt_and_one _
    · exact s.image_length q x

/-! ## Fill (R249, R269, R271) -/

/-- The slot holds what image `e` recorded, under the threads' own keys. -/
def State.restored (s : State) (q x : Nat) (e : Spill) : State :=
  ((((s.zeroShares q x).putShares q x e.cells e.full).moveThreads q (2 + e.id) (spillKey e.id) outKey).setCtx q
    (2 + e.id) x).noExtents q x

theorem State.restored_byteAt (s : State) (q x : Nat) (e : Spill) (y : Nat) :
    (s.restored q x e).byteAt y = (e.cells.reverse.find? (fun c => s.shareAddr q x c.1 == y)).elim
      (if (s.shareKey q x y).isSome then 0 else s.byteAt y) (·.2) := by
  rw [← s.zeroShares_byteAt q x y]
  exact Tbl.look_foldl_put_find 0 (s.shareAddr q x) e.cells (s.zeroShares q x).mem y

theorem State.restored_full (s : State) (q x : Nat) (e : Spill) (y : Nat) :
    (s.restored q x e).full.look .unset y = (e.full.reverse.find? (fun c => s.shareAddr q x c.1 / 8 == y)).elim
      (if (s.shareKey q x (8 * y)).isSome then .unset else s.full.look .unset y) (·.2) := by
  rw [← s.zeroShares_full q x y]
  exact Tbl.look_foldl_put_find .unset (fun k => s.shareAddr q x k / 8) e.full (s.zeroShares q x).full y

theorem State.restored_thread {x : Nat} {e : Spill} {j : Nat} {th : Thread} (hn : (s.threads.map (·.1)).Nodup)
    (hj : (j, th) ∈ s.threads) (hst : th.st ≠ .empty) (hq : th.prt = q) (hctx : th.ctx = 2 + e.id)
    (hlo : spillKey e.id ≤ j) (hhi : j < spillKey e.id + 65536)
    (hfree : (s.thread (j - spillKey e.id + outKey)).st = .empty) :
    (s.restored q x e).thread (j - spillKey e.id + outKey) = { th with ctx := x } := by
  let t := (s.zeroShares q x).putShares q x e.cells e.full
  have hm : (t.moveThreads q (2 + e.id) (spillKey e.id) outKey).thread (j - spillKey e.id + outKey) = th :=
    State.moveThreads_thread (s := t) hn hj hst hq hctx hlo hhi hfree
  refine (State.setCtx_thread _ q (by omega) x _).trans ?_
  rw [hm, if_pos ⟨hq, hctx⟩]

theorem bitAt_or_pow (b : BitVec 2) {x : Nat} (hx : x ≤ 1) : bitAt (b ||| BitVec.ofNat 2 (2 ^ x)) x = true := by
  obtain rfl | rfl : x = 0 ∨ x = 1 := by omega
  all_goals
    revert b
    decide

theorem ctxFillDone_fills {e : Spill} (h : (s.prt q).ctxState = 3)
    (hb : s.sharesBusy q (1 - (s.prt q).ctxActive) = false) (hs : s.scanning q = false)
    (hr : s.prtRuns (some q) = true) (hi : s.imageAt q (fld (s.prt q).ctxSpill 51 12 * 4096) = some e) :
    Completes (.ctxFillDone q) s (fun t =>
      (t.prt q).ctxState = 0 ∧ (t.prt q).ctxSpilled = false ∧
      bitAt (t.prt q).ctxHeld (1 - (s.prt q).ctxActive) = true ∧
      (∀ z ∈ (t.prt q).spills, z.id ≠ e.id) ∧
      (∀ y, t.byteAt y = (s.restored q (1 - (s.prt q).ctxActive) e).byteAt y) ∧
      (∀ y, t.full.look .unset y = (s.restored q (1 - (s.prt q).ctxActive) e).full.look .unset y) ∧
      ∀ k, t.thread k = (s.restored q (1 - (s.prt q).ctxActive) e).thread k) := by
  generalize hx : 1 - (s.prt q).ctxActive = x at hb
  have hx1 : x ≤ 1 := by omega
  let u := s.restored q x e
  refine completes_of_next (t := u.setPrt q { u.prt q with
    spills := (u.prt q).spills.filter (fun z => z.id != e.id), ctxState := 0, ctxSpilled := false
    ctxHeld := (u.prt q).ctxHeld ||| BitVec.ofNat 2 (2 ^ x) }) ?_ ?_
  · subst hx
    refine congrArg Host.Outcome.next ((if_neg (by simp [h, hb, hs, hr])).trans ?_)
    rw [hi]
    rfl
  · rw [State.prt_setPrt]
    refine ⟨rfl, rfl, bitAt_or_pow _ hx1, fun z hz => ?_, fun _ => rfl, fun _ => rfl, fun _ => rfl⟩
    simpa using (List.mem_filter.1 hz).2

end

end Sys2Proof.Machine
end

section
open Sys2Proof Sys2Proof.Machine

/-- Settles O52: each clause is the lemma about its command, event or register; the end of a spill and of a fill rest on
what the renaming of a context leaves alone (MemoryKept) and on what a table reads that a list was written into. -/
theorem contextAndRegisterEvents : Obligations.ContextAndRegisterEvents := by
  intro s q core n fn off v e p x a k sl r cmds at' runs
  refine ⟨fun j hj he h => ctxCmd_busy he h hj, fun j c hj he h hu => ctxCmd_waits he h hu hj,
    fun he h hu => ⟨ctxSwap_starts he h hu, ctxSpill_starts he h hu, ctxSpill_badaddr he h hu, ctxFill_noslot he h hu,
      fun hx hi hslot ha => ctxFill_starts he h hu hx hi hslot ha⟩,
    ctxSwapDone_swaps, ctxSwapDone_waits, fun _ => ctxSpillDone_waits, fun _ => ctxFillDone_waits,
    ctxSpillDone_spills, fun h hb hs _ hr hi => ?_, frackResume_ignored s q, frackResume_reloads s q,
    frackResume_retries s q, poolpwWrite_refused, poolpwWrite_taken, mtpwWrite_taken, mtpwWrite_too_long,
    frbaseWrite_taken, frbaseWrite_ignored, rqdescWrite_taken, rqdescWrite_ignored, registerWrite_pf1 s v off,
    fun hfn => ⟨registerWrite_doorbell s v hfn, registerWrite_vf_weight s v hfn⟩, registerWrite_fwAddr s v,
    registerWrite_stepMask s v, registerWrite_weight s v⟩
  obtain ⟨t, ht, hstate, hspilled, hheld, hgone, hbytes, hfull, hthreads⟩ := ctxFillDone_fills h hb hs hr hi
  refine ⟨t, ht, hstate, hspilled, hheld, hgone, fun y => ?_, fun y => ?_,
    fun hn j th hj hst hq hctx hlo hhi hfree => ?_⟩
  · rw [hbytes, s.restored_byteAt]
    cases e.cells.reverse.find? (fun c => s.shareAddr q x c.1 == y) <;> rfl
  · rw [hfull, s.restored_full]
    cases e.full.reverse.find? (fun c => s.shareAddr q x c.1 / 8 == y) <;> rfl
  · rw [hthreads]
    exact State.restored_thread hn hj hst hq hctx hlo hhi hfree

end

section
/-!
SUPPORT. What the accesses of a partition leave alone when they are performed (R90, R232, R249): the caches' blocks and
copies, memory, its full bits and its waiters, the threads that get a reply, and the count of lines moved in a rehash
change (R110), and nothing that a resize gives, takes or moves.
-/

namespace Sys2Proof.Machine

open Sys2Proof

/-- `t` differs from `s` in memory, full bits, errors, copies, blocks, waiters and threads, the lines that the host
holds, the running resize, the vectors raised, the agenda and the free values only. -/
structure UnitsKept (s t : State) : Prop where
  rest : { t with
    mem := s.mem, full := s.full, poison := s.poison, copies := s.copies, l2 := s.l2, l2used := s.l2used
    waiters := s.waiters, threads := s.threads, hif := s.hif, resize := s.resize, irqs := s.irqs
    agenda := s.agenda, fresh := s.fresh } = s

namespace UnitsKept

section
variable {s t u : State}

theorem refl (s : State) : UnitsKept s s := ⟨rfl⟩

theorem trans (h : UnitsKept s t) (k : UnitsKept t u) : UnitsKept s u := by
  constructor
  rw [← h.rest, ← k.rest]

theorem prts (h : UnitsKept s t) : t.prts = s.prts := by
  rw [← h.rest]
theorem blkOwn (h : UnitsKept s t) : t.blkOwn = s.blkOwn := by
  rw [← h.rest]
theorem cluOwn (h : UnitsKept s t) : t.cluOwn = s.cluOwn := by
  rw [← h.rest]
theorem hbmOwn (h : UnitsKept s t) : t.hbmOwn = s.hbmOwn := by
  rw [← h.rest]
theorem regions (h : UnitsKept s t) : t.regions = s.regions := by
  rw [← h.rest]
theorem resizeQ (h : UnitsKept s t) : t.resizeQ = s.resizeQ := by
  rw [← h.rest]
theorem lnk (h : UnitsKept s t) : t.lnk = s.lnk := by
  rw [← h.rest]

theorem prt (h : UnitsKept s t) : t.prt = s.prt := by
  unfold State.prt
  rw [h.prts]

theorem pkg (h : UnitsKept s t) : t.pkg = s.pkg := by
  unfold State.pkg
  rw [h.lnk]

/-- The caches' copies alone are replaced. -/
theorem withCopies (s : State) (l : List Copy) : UnitsKept s { s with copies := l } := ⟨rfl⟩

theorem foldl {β : Type} {f : State → β → State} (hf : ∀ s b, UnitsKept s (f s b)) (l : List β) (s : State) :
    UnitsKept s (l.foldl f s) := foldl_related refl trans hf l s

theorem ite {c : Prop} [Decidable c] (h : UnitsKept s t) (k : UnitsKept s u) :
    UnitsKept s (if c then t else u) := by
  split
  · exact h
  · exact k

end

end UnitsKept

section
variable (s : State)

/-! ## The L2 slices and the L1s (R98, R222 to R225) -/

theorem State.makeRoom_unitsKept (slice blk : Nat) : UnitsKept s (s.makeRoom slice blk) := by
  unfold State.makeRoom
  dsimp only
  split
  · exact .refl s
  · exact .ite (.refl s) ⟨rfl⟩

theorem State.findBlock_unitsKept (d blk : Nat) : UnitsKept s (s.findBlock d blk) := by
  unfold State.findBlock
  split
  · exact .refl s
  · exact .ite (.refl s) ((s.makeRoom_unitsKept _ _).trans ⟨rfl⟩)

theorem State.takeUnit_unitsKept (d q grain : Nat) (hc ex : Bool) (a : Nat) :
    UnitsKept s (s.takeUnit d q grain hc ex a) := by
  unfold State.takeUnit
  extract_lets blk u t slice t' t''
  have ht : UnitsKept s t := s.findBlock_unitsKept d blk
  have ht'' : UnitsKept t t'' := .ite (.refl t) ((t.makeRoom_unitsKept _ _).trans ⟨rfl⟩)
  exact (ht.trans ht'').trans ⟨rfl⟩

theorem State.evictLine_unitsKept (m line : Nat) : UnitsKept s (s.evictLine m line) := by
  unfold State.evictLine
  extract_lets gone t
  have ht : UnitsKept s t := ⟨rfl⟩
  exact ht.trans (.foldl (fun t c => t.takeUnit_unitsKept ..) _ _)

theorem State.l1Room_unitsKept (m : Nat) (p : Part) (w : Nat) : UnitsKept s (s.l1Room m p w) := by
  unfold State.l1Room
  extract_lets ls
  have ht : UnitsKept s s.choice.2 := ⟨rfl⟩
  exact .ite (.refl s) (ht.trans (State.evictLine_unitsKept _ _ _))

theorem State.keepCopies_unitsKept (m : Nat) (p : Part) (w : Nat) : UnitsKept s (s.keepCopies m p w) := by
  unfold State.keepCopies
  extract_lets d t v
  have ht : UnitsKept s t := (s.takeUnit_unitsKept ..).trans (State.l1Room_unitsKept ..)
  exact .ite (.refl s) (ht.trans (.withCopies t _))

theorem State.homeWrote_unitsKept (d : Nat) (p : Part) (w : Nat) : UnitsKept s (s.homeWrote d p w) := by
  unfold State.homeWrote
  extract_lets t
  have ht : UnitsKept s t := s.takeUnit_unitsKept ..
  exact ht.trans (.withCopies t _)

theorem State.l1Wrote_unitsKept (m : Nat) (p : Part) (w : Nat) : UnitsKept s (s.l1Wrote m p w) := by
  unfold State.l1Wrote
  extract_lets d t
  have ht : UnitsKept s t := (s.takeUnit_unitsKept ..).trans (State.l1Room_unitsKept ..)
  exact ht.trans (.withCopies t _)

theorem State.dropCopy_unitsKept (lvl w : Nat) : UnitsKept s (s.dropCopy lvl w) := .withCopies s _

theorem State.behind_unitsKept (p : Part) : UnitsKept s (s.behind p) := by
  unfold State.behind
  refine .ite (.foldl (fun t w => ?_) _ _) (.refl s)
  exact .ite (.refl t) (.withCopies t _)

theorem State.behindDie_unitsKept (d : Nat) (p : Part) : UnitsKept s (s.behindDie d p) := by
  unfold State.behindDie
  refine .ite (.foldl (fun t w => ?_) _ _) (.refl s)
  exact .ite (.refl t) (.withCopies t _)

/-! ## One access at its home (R223, R231, R344) -/

theorem State.loadPart_unitsKept (m : Nat) (p : Part) : UnitsKept s (s.loadPart m p).2 :=
  .ite (.foldl (fun t _ => t.keepCopies_unitsKept ..) _ _) (.refl s)

theorem State.acqPart_unitsKept (m : Nat) (p : Part) : UnitsKept s (s.acqPart m p).2 := by
  unfold State.acqPart
  split
  · refine .foldl (fun t w => ?_) _ _
    split
    · exact .ite (.refl t) ((t.dropCopy_unitsKept m w).trans (State.keepCopies_unitsKept ..))
    · exact t.keepCopies_unitsKept ..
  · exact .refl s

theorem State.writeHome_unitsKept (a n x : Nat) : UnitsKept s (s.writeHome a n x) := ⟨rfl⟩

theorem State.storePart_unitsKept (m : Nat) (p : Part) (x : Nat) : UnitsKept s (s.storePart m p x) := by
  unfold State.storePart
  extract_lets t
  have ht : UnitsKept s t := ((s.behind_unitsKept p).trans (State.behindDie_unitsKept _ _ _)).trans
    (State.writeHome_unitsKept ..)
  exact ht.trans (.ite (.foldl (fun t _ => t.l1Wrote_unitsKept ..) _ _) (.refl t))

theorem State.homeAccess_unitsKept (m : Nat) (p : Part) : UnitsKept s (s.homeAccess m p) := by
  unfold State.homeAccess
  refine .ite ((s.behind_unitsKept p).trans (.foldl (fun t w => ?_) _ _)) (.refl s)
  exact (t.homeWrote_unitsKept _ _ _).trans (State.dropCopy_unitsKept _ _ _)

theorem State.relPart_unitsKept (m : Nat) (p : Part) (x : Nat) : UnitsKept s (s.relPart m p x) := by
  unfold State.relPart
  extract_lets ws t
  have ht : UnitsKept s t := (s.homeAccess_unitsKept m p).trans (State.writeHome_unitsKept ..)
  exact .ite (ht.trans (.foldl (fun t _ => t.keepCopies_unitsKept ..) _ _)) (s.writeHome_unitsKept ..)

theorem State.loadParts_unitsKept (m : Nat) (acq : Bool) (ps : List Part) : UnitsKept s (s.loadParts m acq ps).2 := by
  induction ps generalizing s with
  | nil => exact .refl s
  | cons p r ih =>
    cases acq
    · exact (s.loadPart_unitsKept m p).trans (ih _)
    · exact (s.acqPart_unitsKept m p).trans (ih _)

theorem State.storeParts_unitsKept (m : Nat) (rel : Bool) (ps : List Part) (x : Nat) :
    UnitsKept s (s.storeParts m rel ps x) := by
  induction ps generalizing s x with
  | nil => exact .refl s
  | cons p r ih =>
    cases rel
    · exact (s.storePart_unitsKept m p _).trans (ih _ _)
    · exact (s.relPart_unitsKept m p _).trans (ih _ _)

/-! ## Waiters that are served (R337, R378) -/

theorem State.acquireAt_unitsKept (m scope : Nat) : UnitsKept s (s.acquireAt m scope) := .ite ⟨rfl⟩ (.refl s)

theorem State.setFull_unitsKept (a : Nat) (f : Bool) : UnitsKept s (s.setFull a f) := ⟨rfl⟩

theorem State.setThread_unitsKept (t : Nat) (x : Thread) : UnitsKept s (s.setThread t x) := ⟨rfl⟩

theorem State.replyReg_unitsKept (t : Nat) (d : Dest) (x : V256) : UnitsKept s (s.replyReg t d x) := ⟨rfl⟩

theorem State.replyGo_unitsKept (t : Nat) : UnitsKept s (s.replyGo t) := ⟨rfl⟩

theorem State.serve_unitsKept (w : Waiter) : UnitsKept s (s.serve w) := by
  unfold State.serve
  split
  · exact s.setThread_unitsKept ..
  · extract_lets m t old tid x u scope
    have ht : UnitsKept s t := s.homeAccess_unitsKept m w.part
    have hu : UnitsKept t u := by
      unfold u
      split
      · exact UnitsKept.trans (.ite (t.setFull_unitsKept ..) (.refl t)) (State.replyReg_unitsKept ..)
      · exact (t.writeHome_unitsKept ..).trans (State.setFull_unitsKept ..)
      · exact (t.writeHome_unitsKept ..).trans (State.replyReg_unitsKept ..)
      · exact t.replyReg_unitsKept ..
      · exact t.setThread_unitsKept ..
    exact ((ht.trans hu).trans (.ite (u.acquireAt_unitsKept m scope) (.refl u))).trans (State.replyGo_unitsKept _ tid)

theorem State.serveN_unitsKept (a n : Nat) : UnitsKept s (s.serveN a n) := by
  induction n generalizing s with
  | zero => exact .refl s
  | succ n ih =>
    unfold State.serveN
    split
    next w _ =>
      have h : UnitsKept s { s with waiters := s.waiters.erase w } := ⟨rfl⟩
      exact (h.trans (State.serve_unitsKept _ w)).trans (ih _)
    next => exact .refl s

theorem State.serveRange_unitsKept (a n : Nat) : UnitsKept s (s.serveRange a n) :=
  .ite (.refl s) (.foldl (fun t b => t.serveN_unitsKept b _) _ _)

theorem State.deviceStore_unitsKept (a : Nat) (l : List Byte) : UnitsKept s (s.deviceStore a l) :=
  UnitsKept.trans (t := s.deviceWrite a l) ⟨rfl⟩ (State.serveRange_unitsKept _ _ _)

/-! ## Relaxed accesses that are performed (R232) -/

theorem State.performRlx_unitsKept (t : Nat) (r : Rlx) : UnitsKept s (s.performRlx t r) := by
  unfold State.performRlx
  extract_lets m
  have hat (p : Part) : UnitsKept s (s.homeAccess m p) := s.homeAccess_unitsKept m p
  split
  case h_1 => exact (s.loadParts_unitsKept m false r.parts).trans (State.replyReg_unitsKept ..)
  case h_2 => exact s.storeParts_unitsKept ..
  case h_3 =>
    split
    case h_1 p _ => exact ((hat p).trans (State.writeHome_unitsKept ..)).trans (State.replyReg_unitsKept ..)
    case h_2 => exact .refl s
  case h_4 =>
    split
    case h_1 p _ =>
      exact ((hat p).trans (.ite (State.writeHome_unitsKept ..) (.refl _))).trans (State.replyReg_unitsKept ..)
    case h_2 => exact .refl s
  case h_5 =>
    split
    case h_1 p _ => exact ((hat p).trans (State.writeHome_unitsKept ..)).trans (State.setFull_unitsKept ..)
    case h_2 => exact .refl s
  case h_6 =>
    split
    case h_1 p _ => exact (hat p).trans (State.setFull_unitsKept ..)
    case h_2 => exact .refl s

theorem State.performAt_unitsKept (t i : Nat) : UnitsKept s (s.performAt t i) := by
  unfold State.performAt
  extract_lets th
  split
  · exact .refl s
  · have h : UnitsKept s (s.setThread t { th with rlxOut := th.rlxOut.eraseIdx i }) := ⟨rfl⟩
    exact (h.trans (State.performRlx_unitsKept ..)).trans (.foldl (fun u p => u.serveRange_unitsKept ..) _ _)

theorem State.performN_unitsKept (t n : Nat) : UnitsKept s (s.performN t n) := by
  induction n generalizing s with
  | zero => exact .refl s
  | succ n ih => exact (s.performAt_unitsKept t 0).trans (ih _)

theorem State.performPrt_unitsKept (q : Nat) : UnitsKept s (s.performPrt q) :=
  .foldl (fun t k => .ite (t.performN_unitsKept k _) (.refl t)) _ _

end

end Sys2Proof.Machine
end

section
/-!
SUPPORT. Commands of PRT_PCTL as they are written (R85, R86), and the records and reports of a command (R88, R110).
-/

namespace Sys2Proof.Machine

open Sys2Proof

/-! ## Records and reports (R88, R110) -/

section
variable (s : State)

theorem State.rszRecord_unitsKept (z : Resize) (status last : Nat) : UnitsKept s (s.rszRecord z status last) := by
  unfold State.rszRecord
  extract_lets p a
  split
  · split
    · exact .refl s
    · exact s.deviceStore_unitsKept ..
  · exact .refl s

/-- Where nothing waits at a word, the record changes its bytes alone. -/
theorem State.rszRecord_stores {s : State} (hw : s.waiters = []) (z : Resize) (status last : Nat) :
    StoresOnly s (s.rszRecord z status last) := by
  unfold State.rszRecord
  extract_lets p a
  split
  · split
    · exact .refl s
    · rw [State.deviceStore_of_no_waiters hw]
      exact s.deviceWrite_stores ..
  · exact .refl s

theorem State.report_unitsKept (q vec : Nat) : UnitsKept s (s.report q vec) := ⟨rfl⟩


theorem State.report_resize (q vec : Nat) : (s.report q vec).resize = s.resize := rfl

/-! ## A write of CMD (R85, R86) -/

theorem State.prts_poke (e : Instr) : (s.poke e).prts = s.prts := (s.poke_wakes e).prts

theorem WakesOnly.resize {s t : State} (h : WakesOnly s t) : t.resize = s.resize := by
  rw [← h]

theorem State.resize_poke (e : Instr) : (s.poke e).resize = s.resize := (s.poke_wakes e).resize

theorem State.beginResize_prt (z : Resize) :
    (s.beginResize z).prt z.prt = { s.prt z.prt with rszStep := 1, rszStatus := 13 } := by
  unfold State.beginResize State.prt
  rw [State.prts_poke]
  exact State.prt_setPrt ..

theorem State.beginResize_resize (z : Resize) : (s.beginResize z).resize = some z := by
  unfold State.beginResize
  rw [State.resize_poke]
  rfl

/-- The command that a write of CMD makes, with its copy of the proposal registers; a DESTROY's is empty (R85). -/
def State.command (s : State) (q cmd : Nat) (sup : Bool) : Resize :=
  let p := s.prt q
  { prt := q, cmd := cmd, origin := if sup then 2 else 1, blk := if cmd == 3 then 0 else p.propBlk
    clu := if cmd == 3 then 0 else p.propClu, hbm := if cmd == 3 then 0 else p.propHbm
    ddr := if cmd == 3 then 0 else p.propDdr, relocs := if cmd == 3 then [] else p.propReloc, step := 1
    groups := [], w := 0, grow := false, nblk := 0, ncore := 0, nthread := 0, nbytes := 0, nreloc := 0
    regions := [], cores := [], moved := 0, oldBlk := 0, oldClu := 0, durs := [] }

/-- Each command of PRT_PCTL is a write of its code. -/
theorem exec_eq_resizeCmd {q k : Nat} {sup : Bool} {i : Instr}
    (h : (i, k) ∈ [(Instr.prtCreate q sup, 1), (.prtResize q sup, 2), (.prtDestroy q sup, 3)]) :
    exec i s = .next (s.resizeCmd q k sup) := by
  simp only [List.mem_cons, List.not_mem_nil, or_false, Prod.mk.injEq] at h
  obtain ⟨rfl, rfl⟩ | ⟨rfl, rfl⟩ | ⟨rfl, rfl⟩ := h
  all_goals rfl

/-- What the command proposes: the proposal registers, or for a DESTROY the empty shape. -/
theorem State.command_proposes (q k : Nat) (sup : Bool) :
    (s.command q k sup).blk = (if k = 3 then 0 else (s.prt q).propBlk) ∧
    (s.command q k sup).clu = (if k = 3 then 0 else (s.prt q).propClu) ∧
    (s.command q k sup).hbm = (if k = 3 then 0 else (s.prt q).propHbm) ∧
    (s.command q k sup).ddr = (if k = 3 then 0 else (s.prt q).propDdr) := by
  simp only [State.command, beq_iff_eq, and_self]

/-- The state in which the command has been accepted: the partition is BUSY with it, and it is PENDING. -/
def State.accepted (s : State) (q : Nat) (sup : Bool) : State :=
  s.setPrt q { s.prt q with rszBusy := true, rszOrigin := if sup then 2 else 1, rszStatus := 12 }

theorem State.accepted_prt (q : Nat) (sup : Bool) : (s.accepted q sup).prt q =
    { s.prt q with rszBusy := true, rszOrigin := if sup then 2 else 1, rszStatus := 12 } := State.prt_setPrt ..

/-- The state in which the command has been refused, before its record. -/
def State.refused (s : State) (q : Nat) : State := s.setPrt q { s.prt q with rszStatus := 1 }

theorem State.resizeCmd_eq (q k : Nat) (sup : Bool) :
    s.resizeCmd q k sup =
      if (s.prt q).rszBusy ∨ (s.prt q).ctxState = 1 then
        ((s.refused q).rszRecord (s.command q k sup) 1 0).report q 3
      else
        match s.resize with
        | some _ => { s.accepted q sup with resizeQ := s.resizeQ ++ [s.command q k sup] }
        | none => (s.accepted q sup).beginResize (s.command q k sup) := rfl

end

section
variable {s : State} {q k : Nat} {sup : Bool} {i : Instr}
  (hi : (i, k) ∈ [(Instr.prtCreate q sup, 1), (.prtResize q sup, 2), (.prtDestroy q sup, 3)])
include hi

theorem prtCommand_refused (h : (s.prt q).rszBusy = true ∨ (s.prt q).ctxState = 1) (hw : s.waiters = []) :
    Completes i s (fun t => (t.prt q).rszStatus = 1 ∧ (t.prt q).rszBusy = (s.prt q).rszBusy ∧
      t.resize = s.resize ∧ t.resizeQ = s.resizeQ) := by
  have hx : exec i s = .next (((s.refused q).rszRecord (s.command q k sup) 1 0).report q 3) := by
    rw [exec_eq_resizeCmd s hi, s.resizeCmd_eq, if_pos h]
  have hstore : StoresOnly (s.refused q) ((s.refused q).rszRecord (s.command q k sup) 1 0) :=
    State.rszRecord_stores (s := s.refused q) hw ..
  have hkept := ((s.refused q).rszRecord_unitsKept (s.command q k sup) 1 0).trans (State.report_unitsKept _ q 3)
  have hp : (s.refused q).prt q = { s.prt q with rszStatus := 1 } := State.prt_setPrt ..
  refine completes_of_next hx ?_
  rw [hkept.prt, State.report_resize, hstore.resize, hkept.resizeQ, hp]
  exact ⟨rfl, rfl, rfl, rfl⟩

variable (hb : (s.prt q).rszBusy = false) (hc : (s.prt q).ctxState ≠ 1)
include hb hc

theorem prtCommand_accepted : exec i s = .next (
    match s.resize with
    | some _ => { s.accepted q sup with resizeQ := s.resizeQ ++ [s.command q k sup] }
    | none => (s.accepted q sup).beginResize (s.command q k sup)) := by
  rw [exec_eq_resizeCmd s hi, s.resizeCmd_eq, if_neg (by simp [hb, hc])]

theorem prtCommand_starts (hz : s.resize = none) : Completes i s (fun t =>
    ((t.prt q).rszBusy = true ∧ (t.prt q).rszOrigin = (if sup then 2 else 1)) ∧
      t.resize = some (s.command q k sup) ∧ (t.prt q).rszStep = 1 ∧ (t.prt q).rszStatus = 13) := by
  have hx : exec i s = .next ((s.accepted q sup).beginResize (s.command q k sup)) := by
    rw [prtCommand_accepted hi hb hc, hz]
  have hp : ((s.accepted q sup).beginResize (s.command q k sup)).prt q =
      { (s.accepted q sup).prt q with rszStep := 1, rszStatus := 13 } :=
    (s.accepted q sup).beginResize_prt (s.command q k sup)
  refine completes_of_next hx ?_
  rw [hp, s.accepted_prt, State.beginResize_resize]
  exact ⟨⟨rfl, rfl⟩, rfl, rfl, rfl⟩

theorem prtCommand_queued {y : Resize} (hz : s.resize = some y) : Completes i s (fun t =>
    ((t.prt q).rszBusy = true ∧ (t.prt q).rszOrigin = (if sup then 2 else 1)) ∧
      t.resize = some y ∧ t.resizeQ = s.resizeQ ++ [s.command q k sup] ∧ (t.prt q).rszStatus = 12) := by
  have hx : exec i s = .next { s.accepted q sup with resizeQ := s.resizeQ ++ [s.command q k sup] } := by
    rw [prtCommand_accepted hi hb hc, hz]
  refine completes_of_next hx ?_
  have hp : ({ s.accepted q sup with resizeQ := s.resizeQ ++ [s.command q k sup] } : State).prt q = _ :=
    s.accepted_prt q sup
  rw [hp]
  exact ⟨⟨rfl, rfl⟩, hz, rfl, rfl⟩

end

/-! ## The PRT_ page's own writes (R106, R113) -/

theorem prtGrdClr_clears (s : State) (q : Nat) : Completes (.prtGrdClr q) s (fun t =>
    t.prt q = { s.prt q with grdCnt := 0, grdRec0 := (s.prt q).grdRec0 &&& 0x7FFFFFFFFFFFFFFF }) :=
  completes_of_next rfl (State.prt_setPrt _ _ _)

theorem prtQuotaWrite_writes (s : State) (q : Nat) (v : W64) : Completes (.prtQuotaWrite q v) s (fun t =>
    t.prt q = if 272 < fld v 8 0 ∨ 256 < fld v 24 16 ∨ 96 < fld v 31 25 ∨ 2048 < fld v 43 32 then s.prt q
      else { s.prt q with quota := v &&& 0x00000FFFFFFF01FF }) := by
  refine completes_of_next rfl ?_
  by_cases h : 272 < fld v 8 0 ∨ 256 < fld v 24 16 ∨ 96 < fld v 31 25 ∨ 2048 < fld v 43 32
  · rw [if_pos h, if_pos (by omega)]
  · rw [if_neg h, if_neg (by omega), State.prt_setPrt]

end Sys2Proof.Machine
end

section
open Sys2Proof Sys2Proof.Machine

/-- Settles O47: each of the three commands is a write of its code, which is refused, begins or is queued; the two
registers of the PRT_ page are their own writes. -/
theorem partitionCommands : Obligations.PartitionCommands := by
  intro s q sup v p refused asked busy
  have hasked (k : Nat) : asked k (s.command q k sup) := ⟨rfl, rfl, rfl, rfl, s.command_proposes q k sup⟩
  refine ⟨fun i k hi => ⟨prtCommand_refused hi, fun hb hc hz => ?_, fun hb hc y hz => ?_⟩,
    prtGrdClr_clears s q, prtQuotaWrite_writes s q v⟩
  · obtain ⟨t, ht, hbusy, hresize, hstep⟩ := prtCommand_starts hi hb hc hz
    exact ⟨t, ht, hbusy, ⟨_, hresize, hasked k⟩, hstep⟩
  · obtain ⟨t, ht, hbusy, hresize, hq, hstatus⟩ := prtCommand_queued hi hb hc hz
    exact ⟨t, ht, hbusy, hresize, ⟨_, hq, hasked k⟩, hstatus⟩

end

section
/-!
SUPPORT. The steps of the running resize (R87 to R90): which command a step works on, how it enters the next, and how
the command ends.
-/

namespace Sys2Proof.Machine

open Sys2Proof

/-! ## Steps that follow one another (R88, R89) -/

/-- The command of `z` is in step `k`. -/
def Entered (z : Resize) (k : Nat) (t : State) : Prop :=
  (t.prt z.prt).rszStep = k ∧ ∃ y, t.resize = some y ∧ y.step = k ∧ y.prt = z.prt ∧ y.cmd = z.cmd

section
variable {s : State} {z : Resize}

theorem State.inStep_eq_some {k : Nat} (h : s.resize = some z) (hr : s.prtRuns none = true) (hk : z.step = k) :
    s.inStep k = some z := by
  unfold State.inStep
  rw [h]
  exact if_pos ⟨hk, hr⟩

end

/-- The command enters a step, and nothing has looked at it yet. -/
def State.entering (s : State) (z : Resize) (k : Nat) : State :=
  { s with resize := some { z with step := k } }.setPrt z.prt { s.prt z.prt with rszStep := k }

section
variable (s : State) (z : Resize)

theorem State.enterStep_wakes (k : Nat) : WakesOnly (s.entering z k) (s.enterStep z k) := State.pokeResize_wakes _

theorem State.enterStep_resize (k : Nat) : (s.enterStep z k).resize = some { z with step := k } :=
  (s.enterStep_wakes z k).resize

theorem State.enterStep_prt (k : Nat) : (s.enterStep z k).prt z.prt = { s.prt z.prt with rszStep := k } := by
  have hp : (s.enterStep z k).prt = (s.entering z k).prt := by
    unfold State.prt
    rw [(s.enterStep_wakes z k).prts]
  rw [hp]
  exact State.prt_setPrt ..

theorem State.enterStep_entered {z y : Resize} (hp : y.prt = z.prt) (hc : y.cmd = z.cmd) (k : Nat) :
    Entered z k (s.enterStep y k) :=
  ⟨hp ▸ (congrArg Prt.rszStep (s.enterStep_prt y k)), _, s.enterStep_resize y k, rfl, hp, hc⟩

/-- The duration that a step takes (R88, log 2). -/
def State.stepLength (s : State) (work : Bool) (bound : Nat) : Nat := if work then s.draw.1.toNat % bound + 1 else 1

theorem State.stepTime_fst (work : Bool) (bound : Nat) :
    (s.stepTime z work bound).1 = { z with durs := z.durs ++ [s.stepLength work bound] } := rfl

theorem State.stepTime_unitsKept (work : Bool) (bound : Nat) : UnitsKept s (s.stepTime z work bound).2 :=
  .ite ⟨rfl⟩ (.refl s)

theorem State.stepDone_unitsKept (work : Bool) (bound : Nat) : UnitsKept s (s.stepDone z work bound).2 :=
  (s.stepTime_unitsKept z work bound).trans (State.report_unitsKept ..)

theorem State.stepDone_mem (work : Bool) (bound : Nat) : (s.stepDone z work bound).2.mem = s.mem := by
  cases work <;> rfl

end

/-! ## The end of a command (R86, R88, R103) -/

/-- `t` differs from `s` in the agenda and in what the context command of partition `q` shows of itself (R269). -/
structure ContextWoken (q : Nat) (s t : State) : Prop where
  rest : { t with prts := s.prts, agenda := s.agenda } = s
  prt : ∃ state status wait, t.prt q = { s.prt q with ctxState := state, ctxStatus := status, ctxWait := wait }

section
variable {q : Nat} {s t u : State}

theorem ContextWoken.refl (q : Nat) (s : State) : ContextWoken q s s := ⟨rfl, _, _, _, rfl⟩

theorem ContextWoken.trans (h : ContextWoken q s t) (k : ContextWoken q t u) : ContextWoken q s u := by
  obtain ⟨_, _, _, hp⟩ := h.prt
  obtain ⟨_, _, _, kp⟩ := k.prt
  refine ⟨by rw [← h.rest, ← k.rest], _, _, _, by rw [kp, hp]⟩

theorem ContextWoken.regions (h : ContextWoken q s t) : t.regions = s.regions := by
  rw [← h.rest]
theorem ContextWoken.blkOwn (h : ContextWoken q s t) : t.blkOwn = s.blkOwn := by
  rw [← h.rest]
theorem ContextWoken.cluOwn (h : ContextWoken q s t) : t.cluOwn = s.cluOwn := by
  rw [← h.rest]
theorem ContextWoken.hbmOwn (h : ContextWoken q s t) : t.hbmOwn = s.hbmOwn := by
  rw [← h.rest]
theorem ContextWoken.resize (h : ContextWoken q s t) : t.resize = s.resize := by
  rw [← h.rest]

theorem ContextWoken.post (h : ContextWoken q s t) (i : Instr) : ContextWoken q s (t.post i) := ⟨h.rest, h.prt⟩

variable (q s)

theorem State.setCtxState_woken (state status : Nat) : ContextWoken q s (s.setCtxState q state status) :=
  ⟨rfl, _, _, _, s.prt_setCtxState q state status⟩

theorem State.setCtxState_post_woken (state status : Nat) (i : Instr) :
    ContextWoken q s ((s.setCtxState q state status).post i) :=
  (s.setCtxState_woken q state status).post i

theorem State.ctxStart_woken (cmd : Nat) : ContextWoken q s (s.ctxStart q cmd) := by
  have hset := s.setCtxState_woken q
  have hpost := s.setCtxState_post_woken q
  unfold State.ctxStart
  extract_lets p x a
  split
  · exact hpost ..
  · split
    · exact hpost ..
    · exact hset ..
  · split
    · exact hset ..
    · split
      · exact hset ..
      · split
        · exact hset ..
        · split
          · exact hset ..
          · split
            · exact hset ..
            · exact hpost ..

theorem State.ctxWake_woken : ContextWoken q s (s.ctxWake q) := by
  unfold State.ctxWake
  extract_lets p
  split
  · exact .refl q s
  · have h : ContextWoken q s (s.setPrt q { p with ctxState := 0, ctxWait := 0 }) :=
      ⟨rfl, _, _, _, State.prt_setPrt ..⟩
    exact h.trans (State.ctxStart_woken q _ _)

end

/-- The partition shows that its command has ended. -/
def State.resizeEnded (s : State) (z : Resize) (status : Nat) : State :=
  s.setPrt z.prt { s.prt z.prt with rszBusy := false, rszStep := 0, rszStatus := status }

/-- A command has ended, and none was queued: what the partition shows, and who owns what. -/
structure ResizeEnds (s : State) (z : Resize) (status : Nat) (t : State) : Prop where
  resize : t.resize = none
  regions : t.regions = s.regions
  blkOwn : t.blkOwn = s.blkOwn
  cluOwn : t.cluOwn = s.cluOwn
  hbmOwn : t.hbmOwn = s.hbmOwn
  prt : ∃ state sta wait, t.prt z.prt = { s.prt z.prt with
    rszBusy := false, rszStep := 0, rszStatus := status, ctxState := state, ctxStatus := sta, ctxWait := wait }

theorem State.endResize_of_no_queue {s : State} (h : s.resizeQ = []) (z : Resize) (status last : Nat) :
    ∃ u, UnitsKept (s.resizeEnded z status) u ∧
      s.endResize z status last = { u with resize := none }.ctxWake z.prt := by
  let t := s.resizeEnded z status
  let u := (if status = 0 ∧ z.cmd = 3 then t else t.rszRecord z status last).report z.prt 3
  have hu : UnitsKept t u :=
    UnitsKept.trans (.ite (.refl t) (t.rszRecord_unitsKept z status last)) (State.report_unitsKept ..)
  have hq : u.resizeQ = [] := hu.resizeQ.trans h
  refine ⟨u, hu, ?_⟩
  have he : s.endResize z status last = State.ctxWake (match u.resizeQ with
      | [] => { u with resize := none }
      | n :: r => { u with resize := none, resizeQ := r }.beginResize n) z.prt := rfl
  rw [he, hq]

theorem State.endResize_ends {s : State} (h : s.resizeQ = []) (z : Resize) (status last : Nat) :
    ResizeEnds s z status (s.endResize z status last) := by
  obtain ⟨u, hu, he⟩ := State.endResize_of_no_queue h z status last
  have hw := State.ctxWake_woken z.prt { u with resize := none }
  obtain ⟨state, sta, wait, hp⟩ := hw.prt
  have hprt : ({ u with resize := none } : State).prt z.prt =
      { s.prt z.prt with rszBusy := false, rszStep := 0, rszStatus := status } :=
    (congrFun hu.prt z.prt).trans (State.prt_setPrt ..)
  rw [he]
  exact ⟨hw.resize, hw.regions.trans hu.regions, hw.blkOwn.trans hu.blkOwn, hw.cluOwn.trans hu.cluOwn,
    hw.hbmOwn.trans hu.hbmOwn, state, sta, wait, by rw [hp, hprt]⟩

/-! ## PROPOSE (R87) -/

/-- `y` is the command `z` with the group list, the moved regions and the departing cores of a plan. -/
def Plans (z y : Resize) : Prop := ∃ gs rs cs, y = { z with groups := gs, regions := rs, cores := cs }

theorem Plans.refl (z : Resize) : Plans z z := ⟨_, _, _, rfl⟩

theorem Plans.trans {z y x : Resize} (h : Plans z y) (k : Plans y x) : Plans z x := by
  obtain ⟨_, _, _, rfl⟩ := h
  obtain ⟨_, _, _, rfl⟩ := k
  exact ⟨_, _, _, rfl⟩

theorem Plans.prt {z y : Resize} (h : Plans z y) : y.prt = z.prt := by
  obtain ⟨_, _, _, rfl⟩ := h
  rfl
theorem Plans.cmd {z y : Resize} (h : Plans z y) : y.cmd = z.cmd := by
  obtain ⟨_, _, _, rfl⟩ := h
  rfl

theorem State.planMoves_plans {s : State} {z y : Resize} (h : s.planMoves z = some y) : Plans z y := by
  revert y
  unfold State.planMoves
  extract_lets lost cores
  split
  · intro y h
    exact nomatch h
  · refine List.foldlRecOn (motive := fun acc : Option Resize => ∀ {y}, acc = some y → Plans z y) _ _ ?_ ?_
    · intro y h
      cases h
      exact ⟨_, _, _, rfl⟩
    · intro acc hacc sl _ y h
      split at h
      · exact nomatch h
      · rename_i x
        have hx : Plans z x := hacc rfl
        dsimp only at h
        split at h
        · cases h
          exact hx.trans ⟨_, _, _, rfl⟩
        · exact nomatch h

theorem State.propose_plans (s : State) (z : Resize) : Plans z (s.propose z).2 := by
  have hz := Plans.refl z
  unfold State.propose
  extract_lets p
  split; · exact hz
  split; · exact hz
  split; · exact hz
  split; · exact hz
  split; · exact hz
  split
  · exact hz
  · rename_i gs _
    extract_lets y
    have hy : Plans z y := ⟨_, _, _, rfl⟩
    split; · exact hy
    split; · exact hy
    split
    · exact hy
    · rename_i x hx
      have h : Plans z x := hy.trans (State.planMoves_plans hx)
      split <;> exact h

/-- The state that PROPOSE judges: a DESTROY's with the jobs of its partition cancelled (R85). -/
def State.judged (s : State) (z : Resize) : State :=
  if z.cmd = 3 ∧ z.origin ≠ 2 ∧ (s.prt z.prt).exist = true then s.destroyJobs z.prt else s

/-- The planned command, with the shape that it replaces. -/
def Resize.replacing (y : Resize) (s : State) : Resize :=
  { y with oldBlk := bitmap 272 (s.blocksOf y.prt), oldClu := bitmap 256 (s.clustersOf y.prt) }

section
variable {s : State} {z y : Resize} {code : Nat}

theorem execResizePropose_judges (h : s.inStep 1 = some z) (hp : (s.judged z).propose z = (code, y)) :
    execResizePropose s = .next (
      if code ≠ 0 then (s.stepTime y true 2048).2.endResize (s.stepTime y true 2048).1 code 1
      else ((s.judged z).stepDone (y.replacing (s.judged z)) true 2048).2.enterStep
        ((s.judged z).stepDone (y.replacing (s.judged z)) true 2048).1 2) := by
  unfold State.judged at hp
  unfold execResizePropose
  rw [h]
  dsimp only
  rw [hp]
  rfl

theorem resizePropose_refuses (h : s.inStep 1 = some z) (hp : (s.judged z).propose z = (code, y)) (hc : code ≠ 0)
    (hq : s.resizeQ = []) : Completes .resizePropose s (ResizeEnds s z code) := by
  have hplan : Plans z y := by
    have hplan := State.propose_plans (s.judged z) z
    rwa [hp] at hplan
  have hk : UnitsKept s (s.stepTime y true 2048).2 := s.stepTime_unitsKept ..
  have he := State.endResize_ends (hk.resizeQ.trans hq) (s.stepTime y true 2048).1 code 1
  obtain ⟨state, sta, wait, hprt⟩ := he.prt
  refine completes_of_next ((execResizePropose_judges h hp).trans (congrArg Host.Outcome.next (if_pos hc)))
    ⟨he.resize, he.regions.trans hk.regions, he.blkOwn.trans hk.blkOwn, he.cluOwn.trans hk.cluOwn,
      he.hbmOwn.trans hk.hbmOwn, state, sta, wait, ?_⟩
  rw [s.stepTime_fst] at hprt ⊢
  rw [hk.prt] at hprt
  rw [← hplan.prt]
  exact hprt

theorem resizePropose_passes (h : s.inStep 1 = some z) (hp : (s.judged z).propose z = (0, y)) :
    Completes .resizePropose s (fun t => Entered z 2 t ∧ ∃ d, 0 < d ∧ d ≤ 2048 ∧
      t.resize = some { y.replacing (s.judged z) with durs := y.durs ++ [d], step := 2 }) := by
  have hplan : Plans z y := by
    have hplan := State.propose_plans (s.judged z) z
    rwa [hp] at hplan
  have hx : exec .resizePropose s = _ := execResizePropose_judges h hp
  generalize s.judged z = j at hx
  refine completes_of_next (hx.trans (congrArg Host.Outcome.next (if_neg (not_not.2 rfl))))
    ⟨State.enterStep_entered (y := (j.stepDone (y.replacing j) true 2048).1) _ hplan.prt hplan.cmd 2,
      j.stepLength true 2048, Nat.succ_pos _, Nat.succ_le_of_lt (Nat.mod_lt _ (by decide)), State.enterStep_resize ..⟩

end

theorem State.judged_of_not_destroy {s : State} {z : Resize} (h : z.cmd ≠ 3) : s.judged z = s :=
  if_neg (fun k => h k.1)

/-! ## GUARD and DRAIN (R89, R90) -/

section
variable {s : State} {z : Resize}

theorem resizeGuard_enters (h : s.inStep 2 = some z) :
    Completes .resizeGuard s (Entered z (if z.cmd = 1 then 7 else 3)) := by
  let u := s.stepDone z (z.blk != 0 || !(s.blocksOf z.prt).isEmpty) 512
  have hx : exec .resizeGuard s = .next (if z.cmd = 1 then
      u.2.enterStep { u.1 with durs := u.1.durs ++ [0, 0, 0, 0] } 7 else u.2.enterStep u.1 3) := by
    show execResizeGuard s = _
    unfold execResizeGuard
    rw [h]
    rfl
  refine completes_of_next hx ?_
  by_cases hc : z.cmd = 1
  · rw [if_pos hc, if_pos hc]
    exact State.enterStep_entered _ rfl rfl 7
  · rw [if_neg hc, if_neg hc]
    exact State.enterStep_entered _ rfl rfl 3

theorem UnitsKept.drains {t : State} (h : UnitsKept s t) (y : Resize) : t.drains y = s.drains y := by
  unfold State.drains State.goneBlocks State.goneCores State.goneClusters State.blocksOf State.clustersOf
  rw [h.prt, h.blkOwn, h.cluOwn]

theorem resizeDrain_drains (h : s.inStep 3 = some z) (hc : z.cmd ≠ 3) :
    Completes .resizeDrain s (fun t => Entered z 4 t ∧ (t.prt z.prt).drained = s.drains z) := by
  obtain ⟨u, hu⟩ : ∃ u, u = s.performPrt z.prt := ⟨_, rfl⟩
  have hk : UnitsKept s u := hu ▸ s.performPrt_unitsKept z.prt
  let v := u.setPrt z.prt { u.prt z.prt with drained := u.drains z }
  let d := v.stepDone z (!(u.drains z).isEmpty) 1024
  let grow := decide ((u.prt z.prt).groups.length < z.groups.length)
  have hx : exec .resizeDrain s = .next (d.2.enterStep
      { d.1 with grow := grow, w := if grow then 0 else hbmBytes (u.prt z.prt).groups / 4096 } 4) := by
    show execResizeDrain s = _
    unfold execResizeDrain
    rw [h]
    dsimp only
    rw [if_neg hc, ← hu]
    rfl
  have hv : v.prt z.prt = { u.prt z.prt with drained := u.drains z } := State.prt_setPrt ..
  have hd : UnitsKept v d.2 := v.stepDone_unitsKept ..
  have hp := d.2.enterStep_prt
    { d.1 with grow := grow, w := if grow then 0 else hbmBytes (u.prt z.prt).groups / 4096 } 4
  refine completes_of_next hx ⟨State.enterStep_entered _ rfl rfl 4, (congrArg Prt.drained hp).trans ?_⟩
  exact (congrArg Prt.drained ((congrFun hd.prt z.prt).trans hv)).trans (hk.drains z)

/-! ## The end of MIGRATE (R89) -/

theorem resizeMigrate_ends (h : s.inStep 4 = some z) (hr : z.regions = []) (hc : z.cores = [] ∨ z.cmd = 3)
    (hs : s.sweepDone z = true) : Completes .resizeMigrate s (Entered z 5) := by
  have hgo : ¬((!z.regions.isEmpty) = true ∨ ((!z.cores.isEmpty) = true ∧ z.cmd ≠ 3) ∨ (!s.sweepDone z) = true) := by
    rcases hc with hc | hc <;> simp [hr, hc, hs]
  let groups := (s.prt z.prt).groups
  let d := s.stepDone z (0 < z.nblk ∨ 0 < z.ncore ∨ z.groups ≠ groups)
    (if z.ncore = 0 ∧ z.groups = groups then 18432 * z.nblk else 0xFFFFFFFF)
  let y : Resize := if d.1.grow then { d.1 with w := hbmBytes d.1.groups / 4096 } else d.1
  have hx : exec .resizeMigrate s = .next (d.2.enterStep y 5) := by
    show execResizeMigrate s = _
    unfold execResizeMigrate
    rw [h]
    exact congrArg Host.Outcome.next (if_neg hgo)
  have hy : y.prt = z.prt ∧ y.cmd = z.cmd := by
    unfold y
    split <;> exact ⟨rfl, rfl⟩
  exact completes_of_next hx (State.enterStep_entered _ hy.1 hy.2 5)

end

end Sys2Proof.Machine
end

section
/-!
SUPPORT. What MIGRATE moves (R91 to R97): a region, a core's pool with what waits there, and a page of HBM4 memory.
-/

namespace Sys2Proof.Machine

open Sys2Proof

/-! ## A page that the sweep moves (R97) -/

theorem Memory.readList_length (m : List Host.Cell) (a n : Nat) : (readList m a n).length = n := by
  induction n generalizing a with
  | zero => rfl
  | succ n ih => exact congrArg Nat.succ (ih (a + 1))

theorem Memory.readList_getD (m : List Host.Cell) (a : Nat) {n i : Nat} (h : i < n) :
    (readList m a n).getD i 0 = get m (a + i) := by
  induction n generalizing a i with
  | zero => exact absurd h (Nat.not_lt_zero i)
  | succ n ih =>
    cases i with
    | zero => rfl
    | succ i =>
      rw [readList, List.getD_cons_succ, ih (a + 1) (Nat.lt_of_succ_lt_succ h), Nat.add_assoc, Nat.add_comm 1 i]

theorem State.moveBytes_mem (s : State) (src dst n : Nat) :
    (s.moveBytes src dst n).mem = Memory.writeList s.mem dst (Memory.readList s.mem src n) := by
  unfold State.moveBytes
  extract_lets l bad t u v
  have hv : v.mem = u.mem := by
    refine foldl_related (R := fun s t : State => t.mem = s.mem) (fun _ => rfl) (fun h k => k.trans h) (fun x w => ?_) _ u
    rfl
  exact hv

theorem State.moveBytes_byteAt (s : State) (src dst : Nat) {n i : Nat} (h : i < n) :
    (s.moveBytes src dst n).byteAt (dst + i) = s.byteAt (src + i) := by
  unfold State.byteAt
  rw [s.moveBytes_mem, Memory.get_writeList, Memory.readList_length,
    if_pos ⟨Nat.le_add_right .., Nat.add_lt_add_left h _⟩, Nat.add_sub_cancel_left, Memory.readList_getD _ _ h]

section
variable (s : State) (z : Resize) (page : Nat)

theorem State.sweepPage_fst : ∃ n, (s.sweepPage z page).1 = { z with nbytes := n } := by
  unfold State.sweepPage
  extract_lets a b
  split
  · exact ⟨_, rfl⟩
  · exact ⟨_, rfl⟩

theorem State.sweepPage_moves
    (h : hbmHome (s.prt z.prt).groups (4096 * page) ≠ hbmHome z.groups (4096 * page)) {i : Nat} (hi : i < 4096) :
    (s.sweepPage z page).2.byteAt (hbmHome z.groups (4096 * page) + i) =
      (s.performPrt z.prt).byteAt (hbmHome (s.prt z.prt).groups (4096 * page) + i) := by
  unfold State.sweepPage
  extract_lets a b
  rw [if_neg h]
  exact State.moveBytes_byteAt _ _ _ hi

end

section
variable {s : State} {z : Resize}

theorem State.pokes_resize (s : State) (l : List Instr) : (s.pokes l).resize = s.resize := (s.pokes_wakes l).resize

theorem hbmSweepPage_grows (h : s.inStep 4 = some z) (hs : s.sweepDone z = false) (hg : z.grow = true) :
    Completes .hbmSweepPage s (fun t => (∃ y, t.resize = some y ∧ y.w = z.w + 1) ∧
      (hbmHome (s.prt z.prt).groups (4096 * z.w) ≠ hbmHome z.groups (4096 * z.w) → ∀ i < 4096,
        t.byteAt (hbmHome z.groups (4096 * z.w) + i) =
          (s.performPrt z.prt).byteAt (hbmHome (s.prt z.prt).groups (4096 * z.w) + i))) := by
  obtain ⟨u, hu⟩ : ∃ u, u = s.sweepPage z z.w := ⟨_, rfl⟩
  obtain ⟨n, hn⟩ := s.sweepPage_fst z z.w
  rw [← hu] at hn
  have hx : exec .hbmSweepPage s = .next (State.pokes { u.2 with resize := some { u.1 with w := u.1.w + 1 } }
      [.hbmSweepPage, .resizeMigrate]) := by
    show execHbmSweepPage s = _
    unfold execHbmSweepPage
    rw [h]
    simp only [hs, hg, Bool.false_eq_true, if_false, if_true, ← hu]
  refine completes_of_next hx ⟨⟨_, State.pokes_resize _ _, by rw [hn]⟩, fun hab i hi => ?_⟩
  have hmem := (State.pokes_wakes { u.2 with resize := some { u.1 with w := u.1.w + 1 } }
    [.hbmSweepPage, .resizeMigrate]).mem
  rw [State.byteAt_of_mem hmem, ← s.sweepPage_moves z z.w hab hi, ← hu]
  rfl

theorem hbmSweepPage_shrinks (h : s.inStep 4 = some z) (hs : s.sweepDone z = false) (hg : z.grow = false)
    (hw : z.w ≤ (s.prt z.prt).sweepPages) :
    Completes .hbmSweepPage s (fun t => ∃ y, t.resize = some y ∧ y.w = z.w - 1) := by
  obtain ⟨u, hu⟩ : ∃ u, u = s.sweepPage z (z.w - 1) := ⟨_, rfl⟩
  obtain ⟨n, hn⟩ := s.sweepPage_fst z (z.w - 1)
  rw [← hu] at hn
  have hx : exec .hbmSweepPage s = .next (State.pokes { u.2 with resize := some { u.1 with w := u.1.w - 1 } }
      [.hbmSweepPage, .resizeMigrate]) := by
    show execHbmSweepPage s = _
    unfold execHbmSweepPage
    rw [h]
    simp only [hs, hg, Bool.false_eq_true, if_false, if_neg (Nat.not_lt.2 hw), ← hu]
  exact completes_of_next hx ⟨_, State.pokes_resize _ _, by rw [hn]⟩

end

/-! ## A region at its target (R83, R91, R94) -/

theorem State.putTiles_keepsRegions (s : State) (q : Nat) (r : Region) (cells : List Host.Cell) (full : Tbl FullBit) :
    KeepsRegions s (s.putTiles q r cells full) := by
  unfold State.putTiles
  extract_lets sh t addr
  have ht : KeepsRegions s t := by
    refine .foldl (fun u a => ?_) _ _
    rfl
  exact ht

/-- `t` differs from `s` in what the configuration ports work at only (R189). -/
structure PortsOnly (s t : State) : Prop where
  rest : { t with cfg := s.cfg } = s

section
variable {s t : State}

theorem PortsOnly.prt (h : PortsOnly s t) : t.prt = s.prt := by
  rw [← h.rest]
  rfl
theorem PortsOnly.pkg (h : PortsOnly s t) : t.pkg = s.pkg := by
  rw [← h.rest]
  rfl
theorem PortsOnly.regions (h : PortsOnly s t) : t.regions = s.regions := by
  rw [← h.rest]

end

theorem State.regionPorts_only (s : State) (q sl op : Nat) (r : Region) : PortsOnly s (s.regionPorts q sl op r) := by
  refine foldl_related (R := PortsOnly) (fun _ => ⟨rfl⟩) (fun h k => ⟨by rw [← h.rest, ← k.rest]⟩) (fun t p => ?_) _ s
  exact ⟨rfl⟩

theorem State.regionEntry_keepsRegions (s : State) (q sl : Nat) (r : Region) (w : W32) :
    KeepsRegions s (s.regionEntry q sl r w) := .ite rfl rfl

theorem KeepsRegions.region {s t : State} (h : KeepsRegions s t) (q sl : Nat) : t.region q sl = s.region q sl := by
  unfold KeepsRegions at h
  unfold State.region
  rw [h]

/-- A region that may act again has its extents filled again, and is the same for the rest. -/
theorem State.wakeRegion_region (s : State) (q sl : Nat) :
    (s.wakeRegion q sl).region q sl =
      if s.regionRuns q (s.region q sl) then s.restore q (s.region q sl) else s.region q sl := by
  unfold State.wakeRegion
  extract_lets r
  generalize hp :
    (if s.regionRuns q r then (s.restore q r, s.setRegion q sl (s.restore q r)) else (r, s)) = p
  obtain ⟨r', s0⟩ := p
  have h0 : s0.region q sl = if s.regionRuns q r then s.restore q r else r := by
    split at hp
    case isTrue hr =>
      cases hp
      rw [State.region_setRegion, if_pos hr]
    case isFalse hr =>
      cases hp
      rw [if_neg hr]
  dsimp -zeta only
  extract_lets s1 s2 s3 s4 s5 s6
  have h1 : KeepsRegions s0 s1 := .foldl (fun t _ => t.pokes_keepsRegions _) _ _
  have h2 : KeepsRegions s1 s2 := .foldl (fun t _ => t.pokes_keepsRegions _) _ _
  have h3 : KeepsRegions s2 s3 := .foldl (fun t _ =>
    have h : KeepsRegions t _ := .ite (t.poke_keepsRegions _) (.refl t)
    .ite (h.trans (State.poke_keepsRegions _ _)) h) _ _
  have h4 : KeepsRegions s3 s4 := .foldl (fun t _ => t.pokes_keepsRegions _) _ _
  have h5 : KeepsRegions s4 s5 := .foldl (fun t _ => .ite (t.poke_keepsRegions _) (.refl t)) _ _
  have h6 : KeepsRegions s5 s6 := .foldl (fun t _ => .ite (.refl t) (t.pokes_keepsRegions _)) _ _
  have hall := h1.trans (h2.trans (h3.trans (h4.trans (h5.trans (h6.trans (s6.pokes_keepsRegions
    [.hushSweep q sl, .regionClockStop q sl]))))))
  rw [hall.region, h0]

/-- The region has its origin at column `x` and row `y`. -/
def PlacedAt (q sl x y : Nat) (s : State) : Prop := (s.region q sl).x = x ∧ (s.region q sl).y = y

section
variable {q sl x y : Nat} {s t : State}

theorem PlacedAt.keeps (h : PlacedAt q sl x y s) (k : KeepsRegions s t) : PlacedAt q sl x y t := by
  unfold PlacedAt
  rw [k.region]
  exact h

theorem State.setRegion_placedAt {r : Region} (hx : r.x = x) (hy : r.y = y) :
    PlacedAt q sl x y (s.setRegion q sl r) := by
  unfold PlacedAt
  rw [State.region_setRegion]
  exact ⟨hx, hy⟩

theorem PlacedAt.wakes (h : PlacedAt q sl x y s) : PlacedAt q sl x y (s.wakeRegion q sl) := by
  unfold PlacedAt
  rw [s.wakeRegion_region]
  split
  · exact h
  · exact h

theorem PlacedAt.withResize (h : PlacedAt q sl x y s) (o : Option Resize) : PlacedAt q sl x y { s with resize := o } := h

theorem State.moveRegion_placedAt : PlacedAt q sl x y (s.moveRegion q sl x y) := by
  unfold State.moveRegion
  dsimp only
  exact PlacedAt.keeps (State.setRegion_placedAt rfl rfl) (State.putTiles_keepsRegions ..)

theorem State.relocateRegion_placedAt : PlacedAt q sl x y (s.relocateRegion q sl x y) := by
  unfold State.relocateRegion
  extract_lets r sh pairs f u
  split
  · exact State.setRegion_placedAt rfl rfl
  · have hu : PlacedAt q sl x y u := State.moveRegion_placedAt
    exact (hu.keeps (t := u.moveWaits f) rfl).wakes

end

/-- The region has moved to the origin that `w` names, with its relocation entry, and its ports show it (R94, R189). -/
def State.regionMoved (s : State) (q sl : Nat) (w : W32) : State :=
  let r := s.region q sl
  let u := ((s.regionPorts q sl 3 r).relocateRegion q sl (regionX w) (fld w 13 7)).regionEntry q sl r w
  u.regionPorts q sl 4 (u.region q sl)

theorem State.regionMoved_placedAt (s : State) (q sl : Nat) (w : W32) :
    PlacedAt q sl (regionX w) (fld w 13 7) (s.regionMoved q sl w) := by
  unfold State.regionMoved
  extract_lets r u
  have hu : PlacedAt q sl (regionX w) (fld w 13 7) u :=
    State.relocateRegion_placedAt.keeps (State.regionEntry_keepsRegions ..)
  exact hu.keeps (u.regionPorts_only ..).regions

theorem regionMove_moves {s : State} {z : Resize} {sl : Nat} {w : W32} (h : s.inStep 4 = some z)
    (hf : z.regions.find? (fun e => e.1 == sl) = some (sl, w)) (hl : (s.region z.prt sl).loaded = true)
    (hc : (s.region z.prt sl).clock ≠ 2 ∨ (s.region z.prt sl).savedAt ≠ none) :
    Completes (.regionMove sl) s (fun t => PlacedAt z.prt sl (regionX w) (fld w 13 7) t ∧
      ∃ y, t.resize = some y ∧ y.regions = z.regions.filter (fun e => e.1 != sl) ∧
        y.nreloc = z.nreloc + (if (s.prt z.prt).entryOf sl
          (fabSite s.pkg (siteAt (s.region z.prt sl).x (s.region z.prt sl).y) 0) = true then 0 else 1)) := by
  let r := s.region z.prt sl
  let u := s.regionPorts z.prt sl 3 r
  have hu : PortsOnly s u := s.regionPorts_only ..
  have hgo : ¬(r.clock = 2 ∧ r.savedAt.isNone = true) := by
    rintro ⟨hclock, hsaved⟩
    exact hc.elim (· hclock) (· (Option.isNone_iff_eq_none.1 hsaved))
  have hx : exec (.regionMove sl) s = .next (State.poke { s.regionMoved z.prt sl w with
      resize := some { z with
        regions := z.regions.filter (fun e => e.1 != sl), gone := if r.loaded then z.gone ++ [sl] else z.gone
        nblk := z.nblk + r.blocks.length
        nreloc := z.nreloc + b2n (!(u.prt z.prt).entryOf sl (fabSite u.pkg (siteAt r.x r.y) 0)) } } .resizeMigrate) := by
    show execRegionMove sl s = _
    unfold execRegionMove
    rw [h]
    dsimp only
    rw [hf]
    dsimp only
    rw [if_neg (by rw [hl]; decide), if_neg hgo]
    rfl
  refine completes_of_next hx ⟨?_, _, State.resize_poke _ _, rfl, ?_⟩
  · exact ((s.regionMoved_placedAt z.prt sl w).withResize _).keeps (State.poke_keepsRegions _ _)
  · rw [hu.prt, hu.pkg]
    cases (s.prt z.prt).entryOf sl (fabSite s.pkg (siteAt r.x r.y) 0) <;> rfl

end Sys2Proof.Machine
end

section
/-!
SUPPORT. A core that moves (R83, R95, R96): no step of the move renumbers the package, and the last makes the entry of
the relocation table.
-/

namespace Sys2Proof.Machine

open Sys2Proof

/-! ## The package's number stays (R36) -/

section
variable (s : State)

theorem WakesOnly.pkg {t : State} (h : WakesOnly s t) : t.pkg = s.pkg := by
  rw [← h]
  rfl

/-- A fold of steps that keep the package's number keeps it. -/
theorem foldl_pkg {β : Type} {f : State → β → State} (hf : ∀ s b, (f s b).pkg = s.pkg) (l : List β) :
    (l.foldl f s).pkg = s.pkg :=
  foldl_related (R := fun s t : State => t.pkg = s.pkg) (fun _ => rfl) (fun h k => k.trans h) hf l s

theorem State.rename_pkg (f : Nat → Nat) : (s.rename f).pkg = s.pkg := rfl

theorem State.setThread_pkg (t : Nat) (x : Thread) : (s.setThread t x).pkg = s.pkg := rfl

theorem State.setCore_pkg (c : Nat) (x : Core) : (s.setCore c x).pkg = s.pkg := rfl

theorem State.setClu_pkg (m : Nat) (x : Cluster) : (s.setClu m x).pkg = s.pkg := rfl

theorem State.lockLine_pkg (m q ctx line : Nat) : (s.lockLine m q ctx line).pkg = s.pkg := by
  unfold State.lockLine
  extract_lets cl
  split <;> rfl

theorem State.relock_pkg (m q ctx : Nat) : (s.relock m q ctx).pkg = s.pkg := by
  unfold State.relock
  extract_lets cl mine t
  refine (foldl_pkg t (fun u e => ?_) _).trans rfl
  extract_lets lines c
  split
  · refine foldl_pkg u (fun v l => ?_) _
    exact (State.lockLine_pkg _ m q ctx l).trans rfl
  · rfl

theorem State.moveQueues_pkg (q c t off : Nat) : (s.moveQueues q c t off).pkg = s.pkg := by
  unfold State.moveQueues
  extract_lets retarget mine core s1 core' s2 s3 p s4 cl cmds cl' s5 dl s6
  have h1 : s1.pkg = s.pkg := rfl
  have h2 : s2.pkg = s1.pkg := rfl
  have h3 : s3.pkg = s2.pkg := rfl
  have h4 : s4.pkg = s3.pkg := rfl
  have h5 : s5.pkg = s4.pkg := rfl
  have h6 : s6.pkg = s5.pkg := rfl
  rw [WakesOnly.pkg _ (State.pokes_wakes _ _), State.relock_pkg, h6, h5, h4, h3, h2, h1]

theorem State.copyPool_pkg (q c t off : Nat) : (s.copyPool q c t off).pkg = s.pkg := rfl

theorem State.withdraw_pkg (t : Nat) : (s.withdraw t).pkg = s.pkg := by
  unfold State.withdraw
  extract_lets c th u
  have hu : u.pkg = s.pkg := by
    unfold u
    split <;> rfl
  exact hu

theorem State.moveThread_pkg (c t off k : Nat) : (s.moveThread c t off k).pkg = s.pkg := by
  unfold State.moveThread
  extract_lets u th x cl v th' n core pk
  have hu : u.pkg = s.pkg := (State.withdraw_pkg _ k).trans (s.performN_unitsKept k _).pkg
  clear_value u
  have hv : v.pkg = s.pkg := (u.setClu_pkg ..).trans hu
  clear_value v
  split
  · extract_lets key keep w
    have hw : w.pkg = s.pkg := (v.setCore_pkg ..).trans hv
    clear_value w
    rw [State.rename_pkg, State.setThread_pkg, State.setThread_pkg, hw]
  · rw [State.setCore_pkg, State.setThread_pkg, hv]

end

/-! ## The entry (R83, R113) -/

/-- The new entry of the relocation table is found at some place of it. -/
theorem State.addReloc_entry (s : State) (q : Nat) (e : Reloc) : ∃ i n,
    ((s.addReloc q e).prt q).reloc.look {} i = { e with valid := true, live := true, seq := n } := by
  refine ⟨(s.newId.2.prt q).relocSlot, s.newId.1 + 1, ?_⟩
  unfold State.addReloc
  dsimp only
  rw [State.prt_setPrt]
  dsimp only
  rw [Tbl.look_put_self]

theorem State.renameCore_entry (s : State) (q c t off : Nat) : ∃ i,
    let e := ((s.renameCore q c t off).prt q).reloc.look {} i
    e.valid = true ∧ e.core = true ∧ e.live = true ∧ e.old = coreSite s.pkg c ∧ e.new = coreSite s.pkg t ∧
      e.poolOff = off := by
  unfold State.renameCore
  extract_lets spans p p' p''
  obtain ⟨i, n, h⟩ := (s.setPrt q p'').addReloc_entry q
    { core := true, width := 1, old := coreSite s.pkg c, new := coreSite s.pkg t, poolOff := off, spans := spans }
  refine ⟨i, ?_⟩
  rw [h]
  exact ⟨rfl, rfl, rfl, rfl, rfl, rfl⟩

/-! ## CORE_MOVE (R95, R96) -/

/-- What the core holds and what waits there has gone to core `t`, `k` KiB higher in its pool. -/
def State.coreEmptied (s : State) (q c t k : Nat) : State :=
  let u := ((s.performPrt q).copyPool q c t (1024 * k)).moveQueues q c t (1024 * k)
  let v := { u with acmds := u.acmds.map (fun (a : ACmd) => if (s.coreThreads c).contains a.tid then
    { a with lw := some ((a.lw.getD (u.win c a.ctx)).shift c t (1024 * k)) } else a) }
  (s.coreThreads c).foldl (fun s u => s.moveThread c t (1024 * k) u) v

theorem State.coreEmptied_pkg (s : State) (q c t k : Nat) : (s.coreEmptied q c t k).pkg = s.pkg := by
  unfold State.coreEmptied
  extract_lets u v
  have hu : u.pkg = s.pkg := by
    unfold u
    rw [State.moveQueues_pkg, State.copyPool_pkg, (s.performPrt_unitsKept q).pkg]
  clear_value u
  have hv : v.pkg = s.pkg := hu
  clear_value v
  exact (foldl_pkg v (fun w x => w.moveThread_pkg c t _ x) _).trans hv

theorem coreMove_moves {s : State} {z : Resize} {c t k : Nat} (h : s.inStep 4 = some z) (hc : c ∈ z.cores)
    (hq : s.coreQuiet c = true) (ht : s.targetCore z = some t) (hk : s.poolFit z.prt c t = some k) :
    Completes (.coreMove c) s (fun u =>
      (∃ y, u.resize = some y ∧ y.cores = z.cores.filter (fun d => d != c) ∧ y.ncore = z.ncore + 1) ∧
      ∃ i, let e := (u.prt z.prt).reloc.look {} i
        e.valid = true ∧ e.core = true ∧ e.live = true ∧ e.old = coreSite s.pkg c ∧ e.new = coreSite s.pkg t ∧
          e.poolOff = 1024 * k) := by
  have hgo : ¬((!z.cores.contains c) = true ∨ (!s.coreQuiet c) = true) := by
    simp [hc, hq]
  have hx : exec (.coreMove c) s = .next (State.poke
      { (s.coreEmptied z.prt c t k).renameCore z.prt c t (1024 * k) with
        resize := some { z with
          cores := z.cores.filter (fun d => d != c), ncore := z.ncore + 1
          nthread := z.nthread + (s.coreThreads c).length, nreloc := z.nreloc + 1 } } .resizeMigrate) := by
    show execCoreMove c s = _
    unfold execCoreMove
    rw [h]
    dsimp only
    rw [if_neg hgo, ht]
    dsimp only
    rw [hk]
    rfl
  obtain ⟨i, hi⟩ := (s.coreEmptied z.prt c t k).renameCore_entry z.prt c t (1024 * k)
  rw [s.coreEmptied_pkg] at hi
  refine completes_of_next hx ⟨⟨_, State.resize_poke _ _, rfl, rfl⟩, i, ?_⟩
  unfold State.prt
  rw [State.prts_poke]
  exact hi

end Sys2Proof.Machine
end

section
/-!
SUPPORT. REHASH, SCRUB and COMMIT (R97 to R102): where a block's lines lie, what is zeroed, and whose the resources are.
-/

namespace Sys2Proof.Machine

open Sys2Proof

/-! ## A block that goes to its new slice (R98, R99) -/

theorem WakesOnly.l2 {s t : State} (h : WakesOnly s t) : t.l2 = s.l2 := by
  rw [← h]

theorem State.makeRoom_mem (s : State) (slice blk : Nat) : (s.makeRoom slice blk).mem = s.mem := by
  unfold State.makeRoom
  dsimp only
  split
  · rfl
  · split <;> rfl

theorem State.findBlock_mem (s : State) (d blk : Nat) : (s.findBlock d blk).mem = s.mem := by
  unfold State.findBlock
  split
  · rfl
  · extract_lets sl t
    split
    · rfl
    · exact s.makeRoom_mem sl blk

section
variable {s : State} {x : Block} (hl : s.l2 = [x])
include hl

theorem State.findBlock_elsewhere {d blk : Nat} (h : x.die ≠ d) : s.findBlock d blk = s := by
  unfold State.findBlock
  rw [hl, List.find?_cons_of_neg (by simp [h])]
  rfl

theorem State.find_block : s.l2.find? (fun y => y.die == x.die && y.blk == x.blk) = some x := by
  rw [hl]
  exact List.find?_cons_of_pos (by simp)

/-- A block that is at its slice, or is pinned, stays (R98, R99). -/
theorem State.findBlock_stays (h : x.slice = s.sliceOf x.prt x.die x.blk ∨ s.pinned x.die x.blk = true) :
    s.findBlock x.die x.blk = s := by
  unfold State.findBlock
  rw [State.find_block hl]
  exact if_pos h

/-- No room has to be made for the only block. -/
theorem State.makeRoom_alone (slice : Nat) : s.makeRoom slice x.blk = s := by
  unfold State.makeRoom
  rw [hl]
  simp

theorem State.findBlock_moves (h : x.slice ≠ s.sliceOf x.prt x.die x.blk) (hp : s.pinned x.die x.blk = false) :
    (s.findBlock x.die x.blk).l2 = [{ x with slice := s.sliceOf x.prt x.die x.blk }] ∧
      (s.findBlock x.die x.blk).resize =
        s.resize.map (fun z => if z.prt = x.prt then { z with moved := z.moved + 1 } else z) := by
  unfold State.findBlock
  rw [State.find_block hl]
  dsimp only
  rw [if_neg (by simp [h, hp]), State.makeRoom_alone hl]
  dsimp only
  rw [hl]
  exact ⟨by simp, rfl⟩

/-- Looking for the only block on both dies is looking for it on its own. -/
theorem State.findBlock_both (hd : x.die < 2) :
    (s.findBlock 0 x.blk).findBlock 1 x.blk = s.findBlock x.die x.blk := by
  obtain ⟨y, hy, hdie⟩ : ∃ y, (s.findBlock x.die x.blk).l2 = [y] ∧ y.die = x.die := by
    by_cases h : x.slice = s.sliceOf x.prt x.die x.blk ∨ s.pinned x.die x.blk = true
    · exact ⟨x, by rw [State.findBlock_stays hl h, hl], rfl⟩
    · obtain ⟨hs, hp⟩ := not_or.1 h
      exact ⟨_, (State.findBlock_moves hl hs (by simpa using hp)).1, rfl⟩
  obtain h | h : x.die = 0 ∨ x.die = 1 := by omega
  · rw [h] at hy hdie ⊢
    exact State.findBlock_elsewhere hy (by omega)
  · rw [State.findBlock_elsewhere hl (by omega), h]

end

section
variable {s : State} {z : Resize} (h : s.inStep 5 = some z)
include h

theorem execRehashSweepLine_finds (line : Nat) : exec (.rehashSweepLine line) s = .next (
    if s.l2.any (fun y => y.prt == z.prt && y.blk == line) then
      ((s.findBlock 0 line).findBlock 1 line).poke .resizeRehash else s) := by
  show execRehashSweepLine line s = _
  unfold execRehashSweepLine
  rw [h]

theorem rehashSweepLine_sweeps (hz : s.resize = some z) (line : Nat) :
    Completes (.rehashSweepLine line) s (fun t => t.mem = s.mem ∧
      ∀ x, s.l2 = [x] → x.prt = z.prt → x.blk = line → x.die < 2 →
        (s.pinned x.die line = true ∨ x.slice = s.sliceOf x.prt x.die line → t.l2 = [x] ∧ t.resize = some z) ∧
        (s.pinned x.die line = false → x.slice ≠ s.sliceOf x.prt x.die line →
          t.l2 = [{ x with slice := s.sliceOf x.prt x.die line }] ∧
          t.resize = some { z with moved := z.moved + 1 })) := by
  refine completes_of_next (execRehashSweepLine_finds h line) ⟨?_, ?_⟩
  · split
    · rw [(State.poke_wakes _ _).mem, State.findBlock_mem, State.findBlock_mem]
    · rfl
  · rintro x hl hp rfl hd
    have hany : s.l2.any (fun y => y.prt == z.prt && y.blk == x.blk) = true := by simp [hl, hp]
    rw [if_pos hany, State.findBlock_both hl hd, State.resize_poke, (State.poke_wakes _ _).l2]
    refine ⟨fun hstay => ?_, fun hpin hslice => ?_⟩
    · rw [State.findBlock_stays hl hstay.symm]
      exact ⟨hl, hz⟩
    · obtain ⟨hl2, hres⟩ := State.findBlock_moves hl hslice hpin
      rw [hl2, hres, hz]
      exact ⟨rfl, congrArg some (if_pos hp.symm)⟩

theorem resizeRehash_waits (hs : s.strayBlocks z ≠ []) : Completes .resizeRehash s (fun t => t = s) := by
  refine completes_of_next (t := s) ?_ rfl
  show execResizeRehash s = _
  unfold execResizeRehash
  rw [h]
  exact congrArg Host.Outcome.next (if_pos hs)

end

/-! ## Owner tags (R79, R101, R102) -/

theorem retag_look (t : Tbl Owner) (l : List Nat) (o : Owner) (n : Nat) :
    (retag t l o).look {} n = if n ∈ l then o else t.look {} n := by
  induction l generalizing t with
  | nil => rfl
  | cons m r ih =>
    have hcons : retag t (m :: r) o = retag (t.put {} m o) r o := rfl
    rw [hcons, ih, Tbl.look_put]
    by_cases hr : n ∈ r
    · simp [hr]
    · simp [hr]

theorem retag_look_mem (t : Tbl Owner) {l : List Nat} (o : Owner) {n : Nat} (h : n ∈ l) : (retag t l o).look {} n = o := by
  rw [retag_look, if_pos h]

/-- The owner tags are replaced. -/
def State.withTags (s : State) (bs ms gs : List Nat) (o : Owner) : State :=
  { s with blkOwn := retag s.blkOwn bs o, cluOwn := retag s.cluOwn ms o, hbmOwn := retag s.hbmOwn gs o }

/-- `t` has the owner tag `o` at each of the blocks, clusters and groups. -/
def Tagged (bs ms gs : List Nat) (o : Owner) (t : State) : Prop :=
  (∀ b ∈ bs, t.blkOwn.look {} b = o) ∧ (∀ m ∈ ms, t.cluOwn.look {} m = o) ∧ ∀ g ∈ gs, t.hbmOwn.look {} g = o

section
variable {bs ms gs : List Nat} {o : Owner}

theorem State.withTags_tagged (s : State) : Tagged bs ms gs o (s.withTags bs ms gs o) :=
  ⟨fun _ h => retag_look_mem _ o h, fun _ h => retag_look_mem _ o h, fun _ h => retag_look_mem _ o h⟩

theorem Tagged.congr {s t : State} (h : Tagged bs ms gs o s) (hb : t.blkOwn = s.blkOwn) (hm : t.cluOwn = s.cluOwn)
    (hg : t.hbmOwn = s.hbmOwn) : Tagged bs ms gs o t := by
  unfold Tagged
  rw [hb, hm, hg]
  exact h

theorem WakesOnly.tagged {s t : State} (h : WakesOnly s t) (ht : Tagged bs ms gs o s) : Tagged bs ms gs o t := by
  rw [← h] at ht
  exact ht

end

section
variable {s : State} {z : Resize}

theorem resizeRehash_ends (h : s.inStep 5 = some z) (hs : s.strayBlocks z = []) :
    Completes .resizeRehash s (fun t => Entered z 6 t ∧
      Tagged (s.goneBlocks z) (s.goneClusters z) (s.goneGroups z) ⟨.scrubbing, z.prt⟩ t) := by
  let d := s.stepDone z (s.rehashes z) 0xFFFFFFFF
  let o : Owner := ⟨.scrubbing, z.prt⟩
  have hx : exec .resizeRehash s = .next (
      (d.2.withTags (d.2.goneBlocks d.1) (d.2.goneClusters d.1) (d.2.goneGroups d.1) o).enterStep d.1 6) := by
    show execResizeRehash s = _
    unfold execResizeRehash
    rw [h]
    exact congrArg Host.Outcome.next (if_neg (not_not.2 hs))
  have hd : UnitsKept s d.2 := s.stepDone_unitsKept ..
  have hblk : d.2.goneBlocks d.1 = s.goneBlocks z := by
    unfold State.goneBlocks State.blocksOf
    rw [hd.blkOwn]
    rfl
  have hclu : d.2.goneClusters d.1 = s.goneClusters z := by
    unfold State.goneClusters State.clustersOf
    rw [hd.cluOwn]
    rfl
  have hgrp : d.2.goneGroups d.1 = s.goneGroups z := by
    unfold State.goneGroups
    rw [hd.prt]
    rfl
  rw [hblk, hclu, hgrp] at hx
  refine completes_of_next hx ⟨State.enterStep_entered _ rfl rfl 6, ?_⟩
  exact (State.enterStep_wakes ..).tagged ((State.withTags_tagged d.2).congr rfl rfl rfl)

end

end Sys2Proof.Machine
end

section
/-!
SUPPORT. SCRUB and COMMIT (R101, R102): what is zeroed, and whose the resources are.
-/

namespace Sys2Proof.Machine

open Sys2Proof

/-! ## What SCRUB clears (R101) -/

section
variable (s : State)

theorem State.withdraw_mem (t : Nat) : (s.withdraw t).mem = s.mem := by
  unfold State.withdraw
  extract_lets c th u
  have hu : u.mem = s.mem := by
    unfold u
    split <;> rfl
  exact hu

theorem State.unwait_mem (lo hi : Nat) : (s.unwait lo hi).mem = s.mem := by
  refine foldl_related (R := fun s t : State => t.mem = s.mem) (fun _ => rfl) (fun h k => k.trans h) (fun t w => ?_)
    _ s
  exact t.withdraw_mem w.tid

end

section
variable {s : State} {y : Nat} (h : s.byteAt y = 0)
include h

theorem State.scrubTile_byteAt_zero (lo hi : Nat) : ((s.unwait lo hi).zeroRange lo hi).byteAt y = 0 :=
  State.zeroRange_byteAt_zero ((State.byteAt_of_mem (s.unwait_mem lo hi) y).trans h) lo hi

theorem State.scrubBlock_byteAt_zero (b : Nat) : (s.scrubBlock b).byteAt y = 0 :=
  List.foldlRecOn (motive := (State.byteAt · y = 0)) _ _ h (fun _ ht _ _ => State.scrubTile_byteAt_zero ht _ _)

theorem State.scrubCluster_byteAt_zero (m : Nat) : (s.scrubCluster m).byteAt y = 0 :=
  State.scrubTile_byteAt_zero h (poolBase (8 * m)) (poolBase (8 * m + 8))

theorem State.scrubMem_byteAt_zero (lo hi : Nat) : (s.scrubMem lo hi).byteAt y = 0 :=
  State.zeroRange_byteAt_zero (s := s.flushRange lo hi) h lo hi

end

/-- Every memory tile of a block that has been scrubbed reads zero. -/
theorem State.scrubBlock_tiles (s : State) (b : Nat) {k o : Nat} (hk : k < 16) (ho : o < 0x10000) :
    (s.scrubBlock b).byteAt (tileAddr (tileSite b k) + o) = 0 := by
  refine foldl_establishes (P := (State.byteAt · (tileAddr (tileSite b k) + o) = 0)) (List.mem_range.2 hk)
    (fun t => ?_) (fun t c ht => State.scrubTile_byteAt_zero ht _ _) s
  rw [State.byteAt_zeroRange, if_pos ⟨Nat.le_add_right _ _, Nat.add_lt_add_left ho _⟩]

/-- The departing blocks, clusters, groups and DDR-5 units are cleared. -/
def State.scrubbed (s : State) (bs ms gs us : List Nat) : State :=
  let t := ms.foldl State.scrubCluster (bs.foldl State.scrubBlock s)
  let t := gs.foldl (fun s g => s.scrubMem (hbmWin + hbmGroup * g) (hbmWin + hbmGroup * (g + 1))) t
  us.foldl (fun s u => s.scrubMem (ddrWin + 0x40000000 * u) (ddrWin + 0x40000000 * (u + 1))) t

theorem State.scrubbed_tiles (s : State) {bs : List Nat} (ms gs us : List Nat) {b k o : Nat} (hb : b ∈ bs)
    (hk : k < 16) (ho : o < 0x10000) : (s.scrubbed bs ms gs us).byteAt (tileAddr (tileSite b k) + o) = 0 := by
  let zero (t : State) : Prop := t.byteAt (tileAddr (tileSite b k) + o) = 0
  unfold State.scrubbed
  have h1 : zero (bs.foldl State.scrubBlock s) :=
    foldl_establishes (P := zero) hb (fun t => t.scrubBlock_tiles b hk ho)
      (fun t c ht => State.scrubBlock_byteAt_zero ht c) s
  have h2 := List.foldlRecOn (motive := zero) ms State.scrubCluster h1 (fun t ht m _ =>
    State.scrubCluster_byteAt_zero ht m)
  have h3 := List.foldlRecOn (motive := zero) gs _ h2 (fun t ht g _ =>
    State.scrubMem_byteAt_zero ht (hbmWin + hbmGroup * g) (hbmWin + hbmGroup * (g + 1)))
  exact List.foldlRecOn (motive := zero) us _ h3 (fun t ht u _ =>
    State.scrubMem_byteAt_zero ht (ddrWin + 0x40000000 * u) (ddrWin + 0x40000000 * (u + 1)))

theorem resizeScrub_clears {s : State} {z : Resize} (h : s.inStep 6 = some z) :
    Completes .resizeScrub s (fun t => Entered z 7 t ∧
      Tagged (scrubbing s.blkOwn z.prt) (scrubbing s.cluOwn z.prt) (scrubbing s.hbmOwn z.prt) {} t ∧
      ∀ b ∈ scrubbing s.blkOwn z.prt, ∀ k < 16, ∀ o < 0x10000, t.byteAt (tileAddr (tileSite b k) + o) = 0) := by
  let bs := scrubbing s.blkOwn z.prt
  let ms := scrubbing s.cluOwn z.prt
  let gs := scrubbing s.hbmOwn z.prt
  let us := (s.prt z.prt).ddrUnits.drop z.ddr
  let u := s.scrubbed bs ms gs us
  let d := u.stepDone z (!bs.isEmpty || !ms.isEmpty || !gs.isEmpty || !us.isEmpty)
    (if ms.isEmpty && gs.isEmpty && us.isEmpty then 1024 * bs.length else 0xFFFFFFFF)
  have hx : exec .resizeScrub s = .next ((d.2.withTags bs ms gs {}).enterStep d.1 7) := by
    show execResizeScrub s = _
    unfold execResizeScrub
    rw [h]
    rfl
  have hw := (d.2.withTags bs ms gs {}).enterStep_wakes d.1 7
  have hd : d.2.mem = u.mem := State.stepDone_mem ..
  have hmem : ((d.2.withTags bs ms gs {}).enterStep d.1 7).mem = u.mem := hw.mem.trans hd
  refine completes_of_next hx ⟨State.enterStep_entered _ rfl rfl 7, ?_, fun b hb k hk o ho => ?_⟩
  · exact hw.tagged ((State.withTags_tagged d.2).congr rfl rfl rfl)
  · rw [State.byteAt_of_mem hmem]
    exact s.scrubbed_tiles ms gs us hb hk ho

/-! ## COMMIT (R51, R85, R102) -/

/-- The partition after its command: created, destroyed, or as it was. -/
def Prt.committed (p : Prt) (cmd : Nat) : Prt := match cmd with | 1 => p.created | 3 => p.destroyed | _ => p

theorem Prt.committed_rszSeq (p : Prt) (cmd : Nat) : (p.committed cmd).rszSeq = p.rszSeq := by
  unfold Prt.committed
  split <;> rfl

theorem Prt.committed_exist (p : Prt) (cmd : Nat) :
    (p.committed cmd).exist = if cmd = 1 then true else if cmd = 3 then false else p.exist := by
  unfold Prt.committed
  split
  next => rfl
  next => rfl
  next h1 h3 => rw [if_neg h1, if_neg h3]

theorem State.pokeSites_wakes (s : State) (q : Nat) : WakesOnly s (s.pokeSites q) :=
  .trans (s.post_wakes .schedulerDecision) (.foldl (fun t _ => .ite (t.post_wakes _) (.refl t)) _ _)

/-- What follows a COMMIT touches the bindings of the host's functions and what may act again only. -/
theorem State.commitFollows_wakes (s : State) (q : Nat) (gone : Prop) [Decidable gone] :
    WakesOnly s { (if gone then s.clearBinds (fun v => v.prt == q) else (s.pokeSites q).wakePrt q) with hif := s.hif } := by
  split
  · rfl
  · exact congrArg (fun t : State => { t with hif := s.hif })
      ((s.pokeSites_wakes q).trans (State.wakePrt_wakes _ q))

/-- The cores of newly owned clusters get their pool partition word (R196, log 28). -/
def State.poolsOwned (s : State) (cs : List Nat) : State :=
  cs.foldl (fun s c => s.setCore c { s.core c with poolpw0 := poolpwOwned, poolpw1 := 0 }) s

/-- `t` differs from `s` in the cores only. -/
structure CoresOnly (s t : State) : Prop where
  rest : { t with cores := s.cores } = s

theorem State.poolsOwned_coresOnly (s : State) (cs : List Nat) : CoresOnly s (s.poolsOwned cs) := by
  refine foldl_related (R := CoresOnly) (fun _ => ⟨rfl⟩) (fun h k => ⟨by rw [← h.rest, ← k.rest]⟩) (fun t c => ?_)
    cs s
  exact ⟨rfl⟩

section
variable {s t : State} (h : CoresOnly s t)
include h

theorem CoresOnly.resizeQ : t.resizeQ = s.resizeQ := by
  rw [← h.rest]
theorem CoresOnly.tagged {bs ms gs : List Nat} {o : Owner} (ht : Tagged bs ms gs o s) : Tagged bs ms gs o t := by
  rw [← h.rest] at ht
  exact ht

end

/-- The command's record has been counted, and that of a DESTROY written (R110, log 54). -/
def State.commitRecorded (s : State) (z : Resize) : State :=
  let u := (s.stepTime z true 512).2
  let v := u.setPrt z.prt { u.prt z.prt with rszSeq := (u.prt z.prt).rszSeq + 1 }
  if z.cmd = 3 then v.rszRecord (s.stepTime z true 512).1 0 7 else v

theorem State.commitRecorded_spec (s : State) (z : Resize) : (s.commitRecorded z).resizeQ = s.resizeQ ∧
    (s.commitRecorded z).prt z.prt = { s.prt z.prt with rszSeq := (s.prt z.prt).rszSeq + 1 } := by
  unfold State.commitRecorded
  extract_lets u p v
  have hu : UnitsKept s u := s.stepTime_unitsKept ..
  have hv : UnitsKept v (if z.cmd = 3 then v.rszRecord (s.stepTime z true 512).1 0 7 else v) :=
    .ite (v.rszRecord_unitsKept ..) (.refl v)
  have hp : v.prt z.prt = { u.prt z.prt with rszSeq := (u.prt z.prt).rszSeq + 1 } := State.prt_setPrt ..
  rw [hv.resizeQ, hv.prt, hp, hu.prt]
  exact ⟨hu.resizeQ, rfl⟩

/-- DDR-5 units of the new quota: those held, then free ones (R82). -/
def State.newUnits (s : State) (z : Resize) : List Nat :=
  let units := (s.prt z.prt).ddrUnits.take z.ddr
  let more := z.ddr - units.length
  if more = 0 then units else units ++ s.ddrFree.take more

/-- The new shape is in force: owner tags, pool words, group list and quota (R102). -/
def State.commitShape (s : State) (z : Resize) : State :=
  let fresh := (bitList z.clu).filter (fun m => !s.ownsCluster z.prt m)
  let u := (s.withTags (bitList z.blk) (bitList z.clu) z.groups ⟨.owned, z.prt⟩).poolsOwned
    (fresh.flatMap (fun m => (List.range 8).map (8 * m + ·)))
  u.setPrt z.prt { (s.prt z.prt).committed z.cmd with groups := z.groups, ddrUnits := s.newUnits z, drained := [] }

theorem State.commitShape_spec (s : State) (z : Resize) : (s.commitShape z).resizeQ = s.resizeQ ∧
    Tagged (bitList z.blk) (bitList z.clu) z.groups ⟨.owned, z.prt⟩ (s.commitShape z) ∧
    (s.commitShape z).prt z.prt = { (s.prt z.prt).committed z.cmd with
      groups := z.groups, ddrUnits := s.newUnits z, drained := [] } := by
  unfold State.commitShape
  extract_lets fresh u
  have hu : CoresOnly _ u := State.poolsOwned_coresOnly ..
  exact ⟨hu.resizeQ, (hu.tagged s.withTags_tagged).congr rfl rfl rfl, State.prt_setPrt ..⟩

theorem mem_bitList {n : Nat} {x : BitVec n} {i : Nat} (hi : i < n) (h : bitAt x i = true) : i ∈ bitList x :=
  List.mem_filter.2 ⟨List.mem_range.2 hi, h⟩

theorem resizeCommit_commits {s : State} {z : Resize} (h : s.inStep 7 = some z) (hq : s.resizeQ = []) :
    Completes .resizeCommit s (fun t => t.resize = none ∧
      Tagged (bitList z.blk) (bitList z.clu) z.groups ⟨.owned, z.prt⟩ t ∧
      (t.prt z.prt).groups = z.groups ∧ (t.prt z.prt).rszSeq = (s.prt z.prt).rszSeq + 1 ∧
      (t.prt z.prt).rszStatus = 0 ∧ (t.prt z.prt).rszBusy = false ∧
      (t.prt z.prt).exist = if z.cmd = 1 then true else if z.cmd = 3 then false else (s.prt z.prt).exist) := by
  let u := s.commitRecorded z
  let v := u.commitShape z
  let x := v.endResize (s.stepTime z true 512).1 0 7
  have hx : exec .resizeCommit s = .next
      (if z.cmd = 3 then x.clearBinds (fun v => v.prt == z.prt) else (x.pokeSites z.prt).wakePrt z.prt) := by
    show execResizeCommit s = _
    unfold execResizeCommit
    rw [h]
    rfl
  obtain ⟨huq, hup⟩ := s.commitRecorded_spec z
  obtain ⟨hvq, hvtag, hvp⟩ := u.commitShape_spec z
  have he : ResizeEnds v (s.stepTime z true 512).1 0 x := State.endResize_ends (hvq.trans (huq.trans hq)) ..
  obtain ⟨state, sta, wait, hxp⟩ := he.prt
  have hw := x.commitFollows_wakes z.prt (z.cmd = 3)
  refine completes_of_next hx ⟨hw.resize.trans he.resize,
    (hw.tagged (hvtag.congr he.blkOwn he.cluOwn he.hbmOwn)).congr rfl rfl rfl, ?_⟩
  generalize (if z.cmd = 3 then x.clearBinds (fun v => v.prt == z.prt) else (x.pokeSites z.prt).wakePrt z.prt) = t at hw
  have hprt : t.prt z.prt = x.prt z.prt := by
    unfold State.prt
    rw [hw.prts]
  rw [s.stepTime_fst] at hxp
  rw [hprt, hxp, hvp, hup]
  exact ⟨rfl, Prt.committed_rszSeq .., rfl, rfl, Prt.committed_exist ..⟩

end Sys2Proof.Machine
end


section
open Sys2Proof Sys2Proof.Machine

/-- Settles O48: the package runs, so the running command is in the step that its state names, and each clause is the
theorem about that step's own event. -/
theorem resizeSteps : Obligations.ResizeSteps := by
  intro s z sl c line w hz hr p entered r judged plan
  have hin {k : Nat} (hk : z.step = k) : s.inStep k = some z := State.inStep_eq_some hz hr hk
  have hplan : (s.judged z).propose z = (plan.1, plan.2) := rfl
  have hpasses (hc : plan.1 = 0) : (s.judged z).propose z = (0, plan.2) := hc ▸ hplan
  refine ⟨fun hk hc hq _ => ?refused, fun hk hc hcmd => ?proposed, fun hk hc _ => ?destroys,
    fun hk => resizeGuard_enters (hin hk), fun hk => resizeDrain_drains (hin hk), fun hk hf hl hclock => ?region,
    fun hk hmem hquiet k o ht ho => coreMove_moves (hin hk) hmem hquiet ht ho,
    fun hk hs hg => hbmSweepPage_grows (hin hk) hs hg, fun hk hs hg hw => hbmSweepPage_shrinks (hin hk) hs hg hw,
    fun hk hrs hcs hs => resizeMigrate_ends (hin hk) hrs hcs hs,
    fun hk => rehashSweepLine_sweeps (hin hk) hz line, fun hk => resizeRehash_waits (hin hk),
    fun hk => resizeRehash_ends (hin hk), fun hk => ?scrub, fun hk hq => ?commit⟩
  case refused =>
    obtain ⟨t, ht, he⟩ := resizePropose_refuses (hin hk) hplan hc hq
    obtain ⟨state, sta, wait, hp⟩ := he.prt
    exact ⟨t, ht, he.resize, congrArg Prt.rszBusy hp, congrArg Prt.rszStep hp, congrArg Prt.rszStatus hp, he.regions,
      he.blkOwn, he.cluOwn, he.hbmOwn⟩
  case proposed =>
    obtain ⟨t, ht, hstep, d, hpos, hle, hy⟩ := resizePropose_passes (hin hk) (hpasses hc)
    have hprt : plan.2.prt = z.prt := (State.propose_plans judged z).prt
    rw [State.judged_of_not_destroy hcmd] at hy
    refine ⟨t, ht, hstep, d, hpos, hle, ?_⟩
    rw [← hprt]
    exact hy
  case destroys =>
    obtain ⟨t, ht, hstep, _⟩ := resizePropose_passes (hin hk) (hpasses hc)
    exact ⟨t, ht, hstep⟩
  case region =>
    obtain ⟨t, ht, ⟨hx, hy⟩, hrest⟩ := regionMove_moves (hin hk) hf hl hclock
    exact ⟨t, ht, hx, hy, hrest⟩
  case scrub =>
    obtain ⟨t, ht, hstep, ⟨hblk, hclu, hhbm⟩, hzero⟩ := resizeScrub_clears (hin hk)
    exact ⟨t, ht, hstep, fun b hb => ⟨hblk b hb, hzero b hb⟩, hclu, hhbm⟩
  case commit =>
    obtain ⟨t, ht, hres, ⟨hblk, hclu, hhbm⟩, hprt⟩ := resizeCommit_commits (hin hk) hq
    exact ⟨t, ht, hres, fun b hb hbit => hblk b (mem_bitList hb hbit), fun m hm hbit => hclu m (mem_bitList hm hbit),
      hhbm, hprt⟩

end

section
/-!
SUPPORT. Relaxed accesses that are performed at their homes (R232): what the loads, stores, atomics and full-empty
accesses outstanding read, write and leave alone.
-/

namespace Sys2Proof.Machine

open Sys2Proof

/-! ## Bytes of an access (R4) -/

theorem leNat_append (l r : List Byte) : leNat (l ++ r) = leNat l + 256 ^ l.length * leNat r := by
  induction l with
  | nil => simp [leNat]
  | cons b l ih => rw [List.cons_append, leNat, leNat, ih, List.length_cons, Nat.pow_succ']; ring

theorem leNat_lt (l : List Byte) : leNat l < 256 ^ l.length := by
  induction l with
  | nil => exact Nat.one_pos
  | cons b l ih =>
    have hb := b.isLt
    rw [leNat, List.length_cons, Nat.pow_succ']
    omega

theorem Memory.readList_eq_map (m : List Host.Cell) (a n : Nat) :
    Memory.readList m a n = (List.range' a n).map (Memory.get m) := by
  induction n generalizing a with
  | zero => rfl
  | succ n ih => rw [Memory.readList, ih, List.range'_succ, List.map_cons]

theorem homeBytes_cons (p : Part) (r : List Part) : homeBytes (p :: r) = List.range' p.pa p.n ++ homeBytes r := rfl

theorem homeBytes_singleton (p : Part) : homeBytes [p] = List.range' p.pa p.n := List.append_nil _

theorem State.valueAt_cons (s : State) (p : Part) (r : List Part) :
    s.valueAt (p :: r) = s.readHome p.pa p.n + 256 ^ p.n * s.valueAt r := by
  unfold State.valueAt State.readHome
  rw [homeBytes_cons, List.map_append, leNat_append, List.length_map, List.length_range', Memory.readList_eq_map]
  rfl

theorem State.valueAt_singleton (s : State) (p : Part) : s.valueAt [p] = s.readHome p.pa p.n := by
  rw [State.valueAt_cons]
  rfl

theorem State.valueAt_lt (s : State) (p : Part) : s.valueAt [p] < 256 ^ p.n := by
  have h := leNat_lt (Memory.readList s.mem p.pa p.n)
  rw [s.valueAt_singleton]
  rwa [Memory.readList_length] at h

/-! ## What stores leave at several homes -/

section
variable {s t u : State} {as bs : List Nat} {x : Nat}

/-- Memory that the low bytes of `x` were written to holds them there. -/
theorem Stored.of_leBytes {a n : Nat} (h : t.mem = Memory.writeList s.mem a (leBytes n x)) :
    Stored s t (List.range' a n) x := by
  refine Stored.of_byteAt (fun b => ?_)
  unfold State.byteAt
  rw [h, Memory.get_writeList, leBytes_length]
  split
  · exact leBytes_getD n x (b - a) (by omega)
  · rfl

/-- Bytes beyond the last home do not count. -/
theorem stored_mod_iff {n : Nat} (hn : as.length ≤ n) : Stored s t as (x % 256 ^ n) ↔ Stored s t as x := by
  have hbyte (i : Nat) (hi : i < as.length) : BitVec.ofNat 8 (x % 256 ^ n / 256 ^ i) = BitVec.ofNat 8 (x / 256 ^ i) := by
    apply BitVec.eq_of_toNat_eq
    simp only [BitVec.toNat_ofNat]
    have e : n = i + 1 + (n - i - 1) := by omega
    rw [e, Nat.pow_add, Nat.pow_succ, Nat.mul_assoc, Nat.mod_mul_right_div_self, Nat.mod_mul_right_mod]
  exact and_congr (forall₂_congr fun i hi => by rw [hbyte i hi]) Iff.rfl

/-- Two stores one after the other, to homes that are apart. -/
theorem Stored.append (h : Stored s t as x) (k : Stored t u bs (x / 256 ^ as.length)) (hd : as.Disjoint bs) :
    Stored s u (as ++ bs) x := by
  refine ⟨fun i hi => ?_, fun a ha => ?_⟩
  · by_cases hl : i < as.length
    · have hmem : as.getD i 0 ∈ as := by
        rw [List.getD_eq_getElem _ _ hl]
        exact List.getElem_mem hl
      rw [List.getD_append _ _ _ _ hl, k.2 _ (fun hb => hd hmem hb), h.1 i hl]
    · rw [List.getD_append_right _ _ _ _ (by omega), k.1 _ (by rw [List.length_append] at hi; omega),
        Nat.div_div_eq_div_mul, ← Nat.pow_add]
      congr 4
      omega
  · rw [List.mem_append, not_or] at ha
    rw [k.2 a ha.2, h.2 a ha.1]

end

/-! ## What an access leaves alone -/

/-- `t` differs from `s` in memory, its full bits and errors, and in the caches only. -/
def AccessOnly (s t : State) : Prop :=
  { t with mem := s.mem, full := s.full, poison := s.poison, copies := s.copies, l2 := s.l2, l2used := s.l2used
           resize := s.resize, fresh := s.fresh, hif := s.hif } = s

section
variable {s t u : State}

theorem AccessOnly.refl (s : State) : AccessOnly s s := rfl

theorem AccessOnly.trans (h : AccessOnly s t) (k : AccessOnly t u) : AccessOnly s u := by
  unfold AccessOnly at *
  rw [← h, ← k]

theorem CachesOnly.access (h : CachesOnly s t) : AccessOnly s t := by
  unfold AccessOnly
  rw [← h]

theorem AccessOnly.threads (h : AccessOnly s t) : t.threads = s.threads := by
  rw [← h]
theorem AccessOnly.waiters (h : AccessOnly s t) : t.waiters = s.waiters := by
  rw [← h]
theorem AccessOnly.dbg (h : AccessOnly s t) : t.dbg = s.dbg := by
  rw [← h]

theorem AccessOnly.thread (h : AccessOnly s t) (u : Nat) : t.thread u = s.thread u := by
  unfold State.thread
  rw [h.threads]

theorem AccessOnly.heldUp (h : AccessOnly s t) (u : Nat) : t.heldUp u = s.heldUp u := by
  unfold State.heldUp State.prtRuns
  rw [h.thread, h.dbg]

/-- A reply to a thread that is not halted writes the destination (R73, R198). -/
theorem AccessOnly.replyReg (h : AccessOnly s t) {u : Nat} (hu : s.heldUp u = false) (d : Dest) (x : V256) :
    (t.replyReg u d x).thread u = (s.thread u).setDest d x := by
  unfold State.replyReg
  rw [State.thread_setThread, h.heldUp, hu, h.thread]
  rfl

theorem State.writeHome_access (s : State) (a n x : Nat) : AccessOnly s (s.writeHome a n x) := rfl

/-! ## One part at its home -/

theorem State.homeAccess_caches (s : State) (m : Nat) (p : Part) : CachesOnly s (s.homeAccess m p) := by
  unfold State.homeAccess
  split
  · refine (s.behind_caches p).trans (CachesOnly.foldl _ (fun t w => ?_) _ _)
    exact (t.homeWrote_caches _ p w).trans ((CachesOnly.refl _).upd _ _ _ _ _ _)
  · exact .refl s

theorem State.readHome_of_mem (h : t.mem = s.mem) (a n : Nat) : t.readHome a n = s.readHome a n := by
  unfold State.readHome
  rw [h]

/-- A store through an L1 writes its bytes at their home; beside them the caches alone differ (R223, R231). -/
theorem State.storePart_spec (s : State) (m : Nat) (p : Part) (x : Nat) :
    AccessOnly s (s.storePart m p x) ∧ (s.storePart m p x).mem = Memory.writeList s.mem p.pa (leBytes p.n x) := by
  unfold State.storePart
  extract_lets t
  have hb : CachesOnly s ((s.behind p).behindDie (clusterDie m) p) :=
    (s.behind_caches p).trans (State.behindDie_caches ..)
  have ht : AccessOnly s t := hb.access.trans (State.writeHome_access ..)
  have hm : t.mem = Memory.writeList s.mem p.pa (leBytes p.n x) := by
    rw [← hb.mem]
    rfl
  split
  · have hc : CachesOnly t _ := CachesOnly.foldl _ (fun v w => v.l1Wrote_caches m p w) (wordsOf p.pa p.n) t
    exact ⟨ht.trans hc.access, hc.mem.trans hm⟩
  · exact ⟨ht, hm⟩

theorem State.fullAt_congr (hf : t.full = s.full) (hz : t.zeroed = s.zeroed) (a : Nat) : t.fullAt a = s.fullAt a := by
  unfold State.fullAt
  rw [hf, hz]

theorem CachesOnly.zeroed (h : CachesOnly s t) : t.zeroed = s.zeroed := by
  rw [← h]

theorem CachesOnly.sameMemory (h : CachesOnly s t) : SameMemory s t :=
  ⟨State.byteAt_of_mem h.mem, State.fullAt_congr h.full h.zeroed⟩

theorem State.fullAt_setFull (s : State) (a y : Nat) (f : Bool) :
    (s.setFull a f).fullAt y = if y / 8 = a / 8 then f else s.fullAt y := by
  unfold State.fullAt State.setFull
  dsimp only
  rw [Tbl.look_put]
  by_cases h : y / 8 = a / 8
  · rw [if_pos h, if_pos h]
    cases f <;> rfl
  · rw [if_neg h, if_neg h]

/-- The full bit of the word at `a` becomes `f`, and every other stays (R334). -/
def BitBecomes (s : State) (a : Nat) (f : Bool) (t : State) : Prop :=
  t.fullAt a = f ∧ ∀ y, y / 8 ≠ a / 8 → t.fullAt y = s.fullAt y

theorem State.setFull_becomes (h : ∀ y, t.fullAt y = s.fullAt y) (a : Nat) (f : Bool) :
    BitBecomes s a f (t.setFull a f) :=
  ⟨by rw [State.fullAt_setFull, if_pos rfl], fun y hy => by rw [State.fullAt_setFull, if_neg hy, h]⟩

/-! ## All the parts of a load or store -/

theorem State.storeParts_access (s : State) (m : Nat) (ps : List Part) (x : Nat) :
    AccessOnly s (s.storeParts m false ps x) := by
  induction ps generalizing s x with
  | nil => exact .refl s
  | cons p r ih => exact (s.storePart_spec m p _).1.trans (ih _ _)

/-- A store's parts lie apart, and each takes the next bytes of the value (R332). -/
theorem State.storeParts_stored (s : State) (m : Nat) {ps : List Part} (hn : (homeBytes ps).Nodup) (x : Nat) :
    Stored s (s.storeParts m false ps x) (homeBytes ps) x := by
  induction ps generalizing s x with
  | nil => exact ⟨fun i hi => absurd hi (Nat.not_lt_zero i), fun _ _ => rfl⟩
  | cons p r ih =>
    rw [homeBytes_cons] at hn ⊢
    obtain ⟨_, hr, hd⟩ := List.nodup_append'.1 hn
    have hp : Stored s (s.storePart m p (x % 256 ^ p.n)) (List.range' p.pa p.n) x :=
      (stored_mod_iff (List.length_range' ..).le).1 (Stored.of_leBytes (s.storePart_spec m p _).2)
    refine hp.append ?_ hd
    rw [List.length_range']
    exact ih _ hr _

theorem State.loadParts_uncached (s : State) (m : Nat) {ps : List Part} (h : ∀ p ∈ ps, p.cached = false) :
    s.loadParts m false ps = (s.valueAt ps, s) := by
  induction ps with
  | nil => rfl
  | cons p r ih =>
    obtain ⟨hp, hr⟩ := List.forall_mem_cons.1 h
    have hl : s.loadPart m p = (s.readHome p.pa p.n, s) := by
      unfold State.loadPart State.readPart
      rw [hp]
      rfl
    rw [s.valueAt_cons, State.loadParts]
    simp only [Bool.false_eq_true, if_false, hl, ih hr]

/-! ## Atomics (R342) -/

theorem sInt_toNat {w : Nat} (x : BitVec w) : sInt w x.toNat = x.toInt := by
  unfold sInt
  rw [Nat.mod_eq_of_lt x.isLt, BitVec.toInt_eq_toNat_cond]
  cases w with
  | zero => simp [BitVec.of_length_zero]
  | succ w =>
    rw [Nat.add_sub_cancel, Nat.pow_succ]
    push_cast
    split_ifs <;> omega

theorem satS_eq (v : Int) (w : Nat) : satS v w = max (-2 ^ (w - 1)) (min v (2 ^ (w - 1) - 1)) := by
  have h : (0 : Int) < 2 ^ (w - 1) := by positivity
  unfold satS
  generalize (2 : Int) ^ (w - 1) = k at *
  split_ifs <;> omega

/-- The effect of an atomic on numbers is that of R342 on words of its width. -/
theorem amoNew_toNat (fn : AmoFn) {n : Nat} (old x : BitVec (8 * n)) :
    amoNew fn n old.toNat x.toNat = (fn.new old x).toNat := by
  cases fn with
  | add => rfl
  | adds =>
    simp only [amoNew, AmoFn.new, sInt_toNat, satS_eq, BitVec.toNat_ofInt]
    push_cast
    rfl
  | and => exact (BitVec.toNat_and ..).symm
  | or => exact (BitVec.toNat_or ..).symm
  | xor => exact (BitVec.toNat_xor ..).symm
  | min =>
    simp only [amoNew, AmoFn.new, sInt_toNat]
    exact (apply_ite BitVec.toNat _ _ _).symm
  | max =>
    simp only [amoNew, AmoFn.new, sInt_toNat]
    exact (apply_ite BitVec.toNat _ _ _).symm
  | swap => rfl

theorem loadExt_toNat {n : Nat} (old : BitVec (8 * n)) :
    loadExt true n old.toNat = (old.signExtend 64).setWidth 256 := by
  unfold loadExt sext64
  rw [sInt_toNat]
  rfl

theorem pow_256 (n : Nat) : 256 ^ n = 2 ^ (8 * n) := by
  rw [Nat.pow_mul]

theorem mod_eq_setWidth (x : W64) (n : Nat) : x.toNat % 256 ^ n = (x.setWidth (8 * n)).toNat := by
  rw [pow_256, BitVec.toNat_setWidth]

end

/-! ## The reply to an outstanding access (R192, R232) -/

/-- Entry `n` of the outstanding accesses of thread `u` is taken out. -/
def State.taken (s : State) (u n : Nat) : State :=
  s.setThread u { s.thread u with rlxOut := (s.thread u).rlxOut.eraseIdx n }

section
variable {s : State} {u n : Nat}

theorem State.taken_thread : (s.taken u n).thread u = { s.thread u with rlxOut := (s.thread u).rlxOut.eraseIdx n } :=
  s.thread_setThread u _

theorem State.taken_heldUp : (s.taken u n).heldUp u = s.heldUp u := by
  unfold State.heldUp
  rw [State.taken_thread]
  rfl

theorem State.serveParts_of_no_waiters {s : State} (h : s.waiters = []) (ps : List Part) : s.serveParts ps = s :=
  foldl_unmoved (P := fun t : State => t.waiters = [])
    (fun _ p hw => State.serveRange_of_no_waiters hw p.pa p.n) ps h

theorem State.performAt_of_found {r : Rlx} (hr : (s.thread u).rlxOut[n]? = some r) :
    ∃ ps, s.performAt u n = ((s.taken u n).performRlx u r).serveParts ps := by
  unfold State.performAt
  dsimp only
  rw [hr]
  exact ⟨_, rfl⟩

theorem memoryReply_performs {r : Rlx} (hr : (s.thread u).rlxOut[n]? = some r)
    (hw : ((s.taken u n).performRlx u r).waiters = []) :
    exec (.memoryReply u n) s = .next ((s.taken u n).performRlx u r) := by
  obtain ⟨ps, h⟩ := State.performAt_of_found hr
  exact congrArg Host.Outcome.next (h.trans (State.serveParts_of_no_waiters hw ps))

/-- What an atomic of `b` bytes at `p` reads, as a word of that width. -/
def State.oldAt (s : State) (p : Part) (b : Nat) : BitVec (8 * b) := BitVec.ofNat (8 * b) (s.valueAt [p])

theorem State.readHome_homeAccess {p : Part} {b m : Nat} (hb : p.n = b) :
    ((s.taken u n).homeAccess m p).readHome p.pa b = (s.oldAt p b).toNat := by
  subst hb
  rw [State.readHome_of_mem ((s.taken u n).homeAccess_caches m p).mem, State.oldAt, BitVec.toNat_ofNat, ← pow_256,
    Nat.mod_eq_of_lt (s.valueAt_lt p), s.valueAt_singleton]
  rfl

/-- The low bytes of `x`, written after the access to the home, with the caches as they may be. -/
theorem State.homeAccess_write_stored {p : Part} {b m : Nat} (hb : p.n = b) (x : Nat) :
    Stored s (((s.taken u n).homeAccess m p).writeHome p.pa b x) (homeBytes [p]) x := by
  subst hb
  rw [homeBytes_singleton]
  refine Stored.of_leBytes ?_
  exact congrArg (Memory.writeList · p.pa (leBytes p.n x)) ((s.taken u n).homeAccess_caches m p).mem

theorem State.homeAccess_write_access (p : Part) (b m x : Nat) :
    AccessOnly (s.taken u n) (((s.taken u n).homeAccess m p).writeHome p.pa b x) :=
  ((s.taken u n).homeAccess_caches m p).access.trans (State.writeHome_access ..)

/-- The register that an atomic's reply writes (R343). -/
theorem AccessOnly.repliesOld {t : State} (h : AccessOnly (s.taken u n) t) (hu : s.heldUp u = false) (d : Dest)
    {b : Nat} (old : BitVec (8 * b)) : (t.replyReg u d (loadExt true b old.toNat)).thread u =
      ((s.taken u n).thread u).setDest d ((old.signExtend 64).setWidth 256) := by
  rw [h.replyReg (State.taken_heldUp.trans hu), loadExt_toNat]

section
variable (hw : s.waiters = [])
include hw

theorem memoryReply_store {d : V256} {ps : List Part} {b : Nat} (hn : (homeBytes ps).Nodup)
    (hr : (s.thread u).rlxOut[n]? = some ⟨.store d, ps, b⟩) :
    Completes (.memoryReply u n) s (fun t => Stored s t (homeBytes ps) d.toNat ∧
      t.thread u = (s.taken u n).thread u) := by
  have ha : AccessOnly (s.taken u n) ((s.taken u n).performRlx u ⟨.store d, ps, b⟩) := State.storeParts_access ..
  exact completes_of_next (memoryReply_performs hr (ha.waiters.trans hw))
    ⟨(s.taken u n).storeParts_stored (u / 128) hn d.toNat, ha.thread u⟩

theorem memoryReply_load {sx : Bool} {d : Dest} {ps : List Part} {b : Nat} (hu : s.heldUp u = false)
    (hc : ∀ p ∈ ps, p.cached = false) (hr : (s.thread u).rlxOut[n]? = some ⟨.load sx d, ps, b⟩) :
    Completes (.memoryReply u n) s (fun t => SameMemory s t ∧
      t.thread u = ((s.taken u n).thread u).setDest d (loadExt sx b (s.valueAt ps))) := by
  have hp : (s.taken u n).performRlx u ⟨.load sx d, ps, b⟩ =
      (s.taken u n).replyReg u d (loadExt sx b (s.valueAt ps)) := by
    unfold State.performRlx
    dsimp only
    rw [State.loadParts_uncached _ _ hc]
    rfl
  have hx := memoryReply_performs hr (by rw [hp]; exact hw)
  rw [hp] at hx
  exact completes_of_next hx ⟨⟨fun _ => rfl, fun _ => rfl⟩,
    (AccessOnly.refl _).replyReg (State.taken_heldUp.trans hu) d _⟩

theorem memoryReply_amo {fn : AmoFn} {x : W64} {d : Dest} {p : Part} {b : Nat} (hu : s.heldUp u = false)
    (hb : p.n = b) (hr : (s.thread u).rlxOut[n]? = some ⟨.amo fn x d, [p], b⟩) :
    Completes (.memoryReply u n) s (fun t =>
      t.thread u = ((s.taken u n).thread u).setDest d (((s.oldAt p b).signExtend 64).setWidth 256) ∧
      Stored s t (homeBytes [p]) (AmoFn.new fn (s.oldAt p b) (x.setWidth (8 * b))).toNat) := by
  have ha := State.homeAccess_write_access (s := s) (u := u) (n := n) p b (u / 128)
    (AmoFn.new fn (s.oldAt p b) (x.setWidth (8 * b))).toNat
  have hp : (s.taken u n).performRlx u ⟨.amo fn x d, [p], b⟩ =
      (((s.taken u n).homeAccess (u / 128) p).writeHome p.pa b
        (AmoFn.new fn (s.oldAt p b) (x.setWidth (8 * b))).toNat).replyReg u d
          (loadExt true b (s.oldAt p b).toNat) := by
    unfold State.performRlx
    dsimp only
    rw [State.readHome_homeAccess hb, mod_eq_setWidth, amoNew_toNat]
  have hx := memoryReply_performs hr (by rw [hp]; exact ha.waiters.trans hw)
  rw [hp] at hx
  exact completes_of_next hx ⟨ha.repliesOld hu d _, State.homeAccess_write_stored hb _⟩

theorem memoryReply_cas {cmp x : W64} {d : Dest} {p : Part} {b : Nat} (hu : s.heldUp u = false)
    (hb : p.n = b) (hr : (s.thread u).rlxOut[n]? = some ⟨.cas cmp x d, [p], b⟩) :
    Completes (.memoryReply u n) s (fun t =>
      t.thread u = ((s.taken u n).thread u).setDest d (((s.oldAt p b).signExtend 64).setWidth 256) ∧
      (s.oldAt p b = cmp.setWidth (8 * b) → Stored s t (homeBytes [p]) (x.setWidth (8 * b)).toNat) ∧
      (s.oldAt p b ≠ cmp.setWidth (8 * b) → SameMemory s t)) := by
  have hp : (s.taken u n).performRlx u ⟨.cas cmp x d, [p], b⟩ =
      (if s.oldAt p b = cmp.setWidth (8 * b)
        then ((s.taken u n).homeAccess (u / 128) p).writeHome p.pa b x.toNat
        else (s.taken u n).homeAccess (u / 128) p).replyReg u d (loadExt true b (s.oldAt p b).toNat) := by
    unfold State.performRlx
    dsimp only
    rw [State.readHome_homeAccess hb, mod_eq_setWidth]
    simp only [BitVec.toNat_inj]
  have hx := memoryReply_performs hr (u := u) (n := n)
  rw [hp] at hx
  split at hx
  case isTrue h =>
    have ha := State.homeAccess_write_access (s := s) (u := u) (n := n) p b (u / 128) x.toNat
    refine completes_of_next (hx (ha.waiters.trans hw)) ⟨ha.repliesOld hu d _, fun _ => ?_, fun h' => absurd h h'⟩
    rw [← mod_eq_setWidth, stored_mod_iff (by rw [homeBytes_singleton, List.length_range', hb])]
    exact State.homeAccess_write_stored hb _
  case isFalse h =>
    have hc := (s.taken u n).homeAccess_caches (u / 128) p
    refine completes_of_next (hx (hc.access.waiters.trans hw)) ⟨hc.access.repliesOld hu d _, fun h' => absurd h' h,
      fun _ => hc.sameMemory⟩

theorem memoryReply_ste {x : W64} {p : Part} (hb : p.n = 8)
    (hr : (s.thread u).rlxOut[n]? = some ⟨.ste x, [p], 8⟩) :
    Completes (.memoryReply u n) s (fun t => Stored s t (homeBytes [p]) x.toNat ∧ BitBecomes s p.pa false t ∧
      t.thread u = (s.taken u n).thread u) := by
  have ha := State.homeAccess_write_access (s := s) (u := u) (n := n) p 8 (u / 128) x.toNat
  have hsame : SameMemory s ((s.taken u n).homeAccess (u / 128) p) :=
    ((s.taken u n).homeAccess_caches (u / 128) p).sameMemory
  exact completes_of_next (memoryReply_performs hr (ha.waiters.trans hw))
    ⟨State.homeAccess_write_stored hb x.toNat, State.setFull_becomes hsame.2 p.pa false, ha.thread u⟩

theorem memoryReply_febit {f : Bool} {p : Part} (hr : (s.thread u).rlxOut[n]? = some ⟨.febit f, [p], 8⟩) :
    Completes (.memoryReply u n) s (fun t => (∀ a, t.byteAt a = s.byteAt a) ∧ BitBecomes s p.pa f t ∧
      t.thread u = (s.taken u n).thread u) := by
  have hc := (s.taken u n).homeAccess_caches (u / 128) p
  have hsame : SameMemory s ((s.taken u n).homeAccess (u / 128) p) := hc.sameMemory
  exact completes_of_next (memoryReply_performs hr (hc.access.waiters.trans hw))
    ⟨hsame.1, State.setFull_becomes hsame.2 p.pa f, hc.access.thread u⟩

end

end

end Sys2Proof.Machine
end

section
/-!
SUPPORT. Task queues (R132 to R134): what a free slot's dispatch leaves, the promotion of packets that have waited,
and the user-level interrupt that a turn takes (R200).
-/

namespace Sys2Proof.Machine

open Sys2Proof

/-! ## What placing packets leaves alone (R133) -/

/-- `t` differs from `s` in the agenda only. -/
def PostsOnly (s t : State) : Prop := { t with agenda := s.agenda } = s

/-- `t` differs from `s` in the task queues: the cores', the partitions' pending packets, and the agenda only. -/
def QueuesOnly (s t : State) : Prop := { t with cores := s.cores, prts := s.prts, agenda := s.agenda } = s

section
variable {s t u : State}

theorem PostsOnly.refl (s : State) : PostsOnly s s := rfl

theorem PostsOnly.trans (h : PostsOnly s t) (k : PostsOnly t u) : PostsOnly s u := by
  unfold PostsOnly at *
  rw [← h, ← k]

theorem PostsOnly.foldl {β : Type} {f : State → β → State} (hf : ∀ s b, PostsOnly s (f s b)) (l : List β)
    (s : State) : PostsOnly s (l.foldl f s) := foldl_related PostsOnly.refl PostsOnly.trans hf l s

theorem PostsOnly.ite {c : Prop} [Decidable c] (h : PostsOnly s t) (k : PostsOnly s u) :
    PostsOnly s (if c then t else u) := by
  split
  · exact h
  · exact k

theorem PostsOnly.queues (h : PostsOnly s t) : QueuesOnly s t := by
  unfold QueuesOnly
  rw [← h]

theorem QueuesOnly.refl (s : State) : QueuesOnly s s := rfl

theorem QueuesOnly.trans (h : QueuesOnly s t) (k : QueuesOnly t u) : QueuesOnly s u := by
  unfold QueuesOnly at *
  rw [← h, ← k]

theorem QueuesOnly.foldl {β : Type} {f : State → β → State} (hf : ∀ s b, QueuesOnly s (f s b)) (l : List β)
    (s : State) : QueuesOnly s (l.foldl f s) := foldl_related QueuesOnly.refl QueuesOnly.trans hf l s

theorem QueuesOnly.ite {c : Prop} [Decidable c] (h : QueuesOnly s t) (k : QueuesOnly s u) :
    QueuesOnly s (if c then t else u) := by
  split
  · exact h
  · exact k

theorem QueuesOnly.threads (h : QueuesOnly s t) : t.threads = s.threads := by
  rw [← h]
theorem QueuesOnly.pkg (h : QueuesOnly s t) : t.pkg = s.pkg := by
  rw [← h]
  rfl

theorem QueuesOnly.thread (h : QueuesOnly s t) (u : Nat) : t.thread u = s.thread u := by
  unfold State.thread
  rw [h.threads]

end

section
variable (s : State)

theorem State.post_posts (e : Instr) : PostsOnly s (s.post e) := rfl

theorem State.poke_posts (e : Instr) : PostsOnly s (s.poke e) := .ite (.refl s) (s.post_posts e)

theorem State.pokeEscapes_posts (q : Nat) : PostsOnly s (s.pokeEscapes q) := by
  refine .foldl (fun t e => ?_) _ _
  exact .ite (.foldl (fun t x => .ite (t.post_posts _) (.refl t)) _ _) (.refl t)

theorem State.setPrt_queues (q : Nat) (p : Prt) : QueuesOnly s (s.setPrt q p) := rfl

theorem State.setCore_queues (c : Nat) (k : Core) : QueuesOnly s (s.setCore c k) := rfl

theorem State.enqueue_queues (c : Nat) (pk : Packet) : QueuesOnly s (s.enqueue c pk) := rfl

theorem State.place_queues (pk : Packet) : QueuesOnly s (s.place pk) := by
  unfold State.place
  split
  · exact .ite (s.enqueue_queues _ pk) (s.setPrt_queues _ _)
  · exact s.setPrt_queues _ _

theorem State.placeTasks_queues (q sl : Nat) (l : List Packet) : QueuesOnly s (s.placeTasks q sl l) := by
  induction l generalizing s with
  | nil => exact s.setPrt_queues _ _
  | cons pk r ih => exact .ite ((s.place_queues pk).trans (ih _)) (s.setPrt_queues _ _)

theorem State.refill_queues (c : Nat) : QueuesOnly s (s.refill c) := by
  unfold State.refill
  split
  · exact .refl s
  · next q _ =>
    extract_lets t u
    have ht : QueuesOnly s t := .foldl (fun t pk =>
      .ite (QueuesOnly.trans (t.setPrt_queues q _) (State.enqueue_queues _ c pk)) (.refl t)) _ _
    have hu : QueuesOnly t u := .foldl (fun t (e : Nat × LaunchRun) =>
      .ite (.refl t) (t.placeTasks_queues q e.1 e.2.left)) _ _
    exact (ht.trans hu).trans (.foldl (fun t m => .ite (.refl t) (t.post_posts _).queues) _ _)

end

/-! ## TASK_DISPATCH (R132, R193) -/

section
variable {s t : State} (h : PostsOnly s t)
include h

theorem PostsOnly.nextPacket (c q : Nat) : t.nextPacket c q = s.nextPacket c q := by
  rw [← h]
  rfl

theorem PostsOnly.rowWaits (c : Nat) : t.rowWaits c = s.rowWaits c := by
  rw [← h]
  rfl

theorem PostsOnly.freeSlot (c : Nat) (kind : StartKind) : t.freeSlot c kind = s.freeSlot c kind := by
  rw [← h]
  rfl

end

section
variable {s : State} {c q i : Nat} {pk : Packet}

theorem State.beginThread_of_registers (hb : pk.scbase = 0) (hm : pk.moved = none) (t : Nat) :
    s.beginThread t pk = s.startThread t pk pk.sc := by
  unfold State.beginThread
  rw [if_pos hb, hm]

theorem startThread_thread (t : Nat) (sc : Tbl W64) : (s.startThread t pk sc).thread t =
    { life := s.idNext, st := .ready, kind := pk.kind
      g := if pk.kind = .escape then pk.regs else pk.regs.put 0 4 ((slotSite s.pkg t).setWidth 64)
      ft := pk.ft, sc := sc, pc := pk.pc, prt := pk.prt, ctx := pk.ctx, asid := pk.asid, root := pk.root
      lslot := pk.lslot, prio := pk.prio, held := pk.held, row := pk.row, lw := pk.lw } :=
  State.thread_setThread ..

/-- A packet that has waited long enough to rise (R132). -/
def Packet.due (y : Packet) : Bool := decide (4096 ≤ y.wait) && decide (y.prio < 3)

/-- The packets that stay when a slot takes `pk`: each has waited once more (R132). -/
def State.passedOver (s : State) (c : Nat) (pk : Packet) : List Packet :=
  ((s.core c).queue.erase pk).map (fun (x : Packet) => { x with wait := x.wait + 1 })

/-- The queue without the packet that a slot takes. -/
def State.dequeued (s : State) (c : Nat) (pk : Packet) : State :=
  s.setCore c { s.core c with queue := s.passedOver c pk }

/-- After a start the queue is refilled, and what it holds is looked at again. -/
def State.lookAgain (s : State) (c q : Nat) (rest : List Packet) : State :=
  let t := (s.refill c).pokeEscapes q
  let u := if rest.any Packet.due then t.poke (.taskPacketPromote c) else t
  if rest.isEmpty then u else u.poke (.taskDispatch c)

theorem State.lookAgain_queues (s : State) (c q : Nat) (rest : List Packet) : QueuesOnly s (s.lookAgain c q rest) := by
  unfold State.lookAgain
  extract_lets t u
  have ht : QueuesOnly s t := (s.refill_queues c).trans (State.pokeEscapes_posts _ q).queues
  have hu : PostsOnly t u := .ite (t.poke_posts _) (.refl t)
  exact ht.trans (hu.trans (.ite (.refl u) (u.poke_posts _))).queues

/-- The packet's thread starts between two looks at the queues (R132). -/
theorem taskDispatch_starts (ho : s.cluOwner (c / 8) = some q) (hr : s.schedRuns q = true)
    (hc : s.clockOn (clusterIsland (c / 8)) = true) (hp : (s.refill c).nextPacket c q = some pk)
    (hw : (s.refill c).rowWaits c = false) (hf : (s.refill c).freeSlot c pk.kind = some i)
    (hb : pk.scbase = 0) (hm : pk.moved = none) : ∃ v t, exec (.taskDispatch c) s = .next t ∧
      QueuesOnly s v ∧ QueuesOnly (v.startThread (16 * c + i) pk pk.sc) t := by
  have he := (s.refill c).pokeEscapes_posts q
  have hs : QueuesOnly s ((s.refill c).pokeEscapes q) := (s.refill_queues c).trans he.queues
  rw [← he.nextPacket] at hp
  rw [← he.rowWaits] at hw
  rw [← he.freeSlot] at hf
  generalize hu : (s.refill c).pokeEscapes q = u at *
  refine ⟨u.dequeued c pk, ((u.dequeued c pk).startThread (16 * c + i) pk pk.sc).lookAgain c q (u.passedOver c pk), ?_,
    hs.trans (u.setCore_queues ..), State.lookAgain_queues ..⟩
  rw [← State.beginThread_of_registers hb hm]
  refine congrArg Host.Outcome.next ?_
  simp only [ho, hr, hc, Bool.not_true, Bool.false_eq_true, or_self, if_false, hu, hp, hw, hf]
  rfl

theorem taskPacketPromote_raises (s : State) (c : Nat) : Completes (.taskPacketPromote c) s (fun t =>
    (t.core c).queue = (s.core c).queue.filter (fun y => !y.due) ++
      ((s.core c).queue.filter Packet.due).map (fun y => { y with prio := y.prio + 1, wait := 0 })) :=
  ⟨_, rfl, congrArg Core.queue (State.core_setCore ..)⟩

end

/-! ## UI_TAKE (R200) -/

theorem uiTake_enters {s : State} {tag : W64} {rest : List W64} (hr : s.thr.uiReady = true)
    (hs : s.thr.st = .ready ∨ s.thr.st = .blocked) (hp : s.thr.uiPend = tag :: rest) :
    Completes .uiTake s (fun t => t.mem = s.mem ∧ t.thr.uiPend = rest ∧ t.thr.uiepc = s.thr.pc &&& ~~~3 ∧
      t.thr.uicause = tag ∧ t.thr.uiin = true ∧ t.thr.rlx = 0 ∧ t.thr.st = .ready ∧ t.thr.sup = false ∧
      t.thr.pc = BitVec.ofNat 64 (s.thr.uivec.toNat / 4 * 4)) := by
  have hx : exec .uiTake s = .next s.takeUi := by
    refine if_pos ?_
    simpa only [hr, Bool.true_and, Bool.or_eq_true, decide_eq_true_eq] using hs
  refine completes_of_next hx ?_
  unfold State.takeUi
  simp only [hp, State.thr_setThr, State.setThr_mem, State.withdraw_mem, and_self]

end Sys2Proof.Machine
end

section
/-!
SUPPORT. Messages that arrive (R136, R193, R383): a receive-queue entry, a task, or the way back to the sender, who
traps (R136, R256).
-/

namespace Sys2Proof.Machine

open Sys2Proof

/-! ## The answer to a sender -/

/-- `t` differs from `s` in the messages, and in the threads, the agenda and the links through which a sender is
answered, only. -/
def AnswersOnly (s t : State) : Prop :=
  { t with threads := s.threads, agenda := s.agenda, lnk := s.lnk, msgs := s.msgs } = s

section
variable {s t : State} (h : AnswersOnly s t)
include h

theorem AnswersOnly.mem : t.mem = s.mem := by
  rw [← h]
theorem AnswersOnly.cores : t.cores = s.cores := by
  rw [← h]

theorem AnswersOnly.core (c : Nat) : t.core c = s.core c := by
  unfold State.core
  rw [h.cores]

end

theorem Routes.answers {s t : State} (h : Routes s t) : AnswersOnly s t := by
  unfold AnswersOnly
  rw [← h.only]

theorem Routes.msgs {s t : State} (h : Routes s t) : t.msgs = s.msgs := by
  rw [← h.only]

theorem State.sendFrom_routes (s : State) (q dst : Nat) (cls : FClass) (p : Payload) :
    Routes s (s.sendFrom q dst cls p) := by
  unfold State.sendFrom
  split
  · exact s.sendFlit_routes _ _
  · exact .refl s

theorem State.replyTo_answers (s : State) (u : Nat) : AnswersOnly s (s.replyTo u) ∧ (s.replyTo u).msgs = s.msgs := by
  unfold State.replyTo
  split <;> exact ⟨rfl, rfl⟩

/-- A thread that waits in MEMORY and is not halted goes on (R73, R192). -/
theorem State.replyTo_thread {s : State} {u : Nat} (hs : (s.thread u).st = .memory) (hu : s.heldUp u = false) :
    (s.replyTo u).thread u = (s.thread u).go := by
  unfold State.replyTo State.replyGo
  rw [if_pos hs, hu, State.thread_setThread]
  rfl

/-- The messages other than those of this identity. -/
def State.without (s : State) (id : Nat) : State := { s with msgs := s.msgs.filter (fun y => y.id != id) }

theorem State.delivered_of_sender {s : State} {m : Msg} {u : Nat} (hm : m.sender = some u) :
    s.delivered m = (s.without m.id).replyTo u := by
  unfold State.delivered
  rw [hm]
  rfl

/-- The message is gone, and its sender has been told (R136). -/
theorem State.delivered_answers (s : State) (m : Msg) :
    AnswersOnly (s.without m.id) (s.delivered m) ∧ (s.delivered m).msgs = (s.without m.id).msgs := by
  unfold State.delivered
  extract_lets t
  split
  · exact t.replyTo_answers _
  · exact ⟨(t.sendFrom_routes ..).answers, (t.sendFrom_routes ..).msgs⟩
  · exact ⟨rfl, rfl⟩

theorem State.delivered_mem (s : State) (m : Msg) : (s.delivered m).mem = s.mem := (s.delivered_answers m).1.mem

theorem State.delivered_core (s : State) (m : Msg) (c : Nat) : (s.delivered m).core c = s.core c :=
  (s.delivered_answers m).1.core c

theorem State.delivered_removes (s : State) (m : Msg) : ∀ y ∈ (s.delivered m).msgs, y.id ≠ m.id := by
  intro y hy
  rw [(s.delivered_answers m).2] at hy
  simpa using (List.mem_filter.1 hy).2

/-! ## MESSAGE_DELIVERY (R136) -/

/-- The die a message comes from; 9, where the bridge does not count, for one of the package's own (R20, R30). -/
def Msg.die (m : Msg) : Nat := match m.sender with | some t => clusterDie (slotOf t / 128) | none => 9

/-- Message `id` is under way to the core that `m` names, and reaches it. -/
structure Arrives (s : State) (id : Nat) (m : Msg) : Prop where
  found : s.msgs.find? (fun y => y.id == id && y.ret == 0) = some m
  bridged : s.bridged m.die (clusterDie (m.core / 8)) = true

/-- The core of a message holds its name (R80, R135). -/
structure Holds (s : State) (m : Msg) (w0 core pc : Nat) : Prop where
  named : s.epLook m.prt m.name = some (w0, core, pc)
  here : s.coreOf m.prt (BitVec.ofNat 32 core) = some m.core
  owned : s.cluOwner (m.core / 8) = some m.prt

section
variable {s : State} {id w0 core pc : Nat} {m : Msg}

theorem Arrives.clocked (ha : Arrives s id m) : ¬ (!s.bridged m.die (clusterDie (m.core / 8))) = true := by
  rw [ha.bridged]
  decide

theorem messageDelivery_held (ha : Arrives s id m) (h : Holds s m w0 core pc) :
    exec (.messageDelivery id) s = .next (s.deliver m w0 pc) := by
  refine congrArg Host.Outcome.next ?_
  simp only [ha.found, h.named, h.here, h.owned, and_self, if_true]
  exact if_neg ha.clocked

theorem messageDelivery_unnamed (ha : Arrives s id m) (hn : s.epLook m.prt m.name = none)
    (hs : (s.prt m.prt).stubs = []) : exec (.messageDelivery id) s = .next (s.returned m 1) := by
  refine congrArg Host.Outcome.next ?_
  simp only [ha.found, hn, hs, List.reverse_nil, List.find?_nil]
  exact if_neg ha.clocked

/-- The message is on its way back with code `ret`. -/
theorem State.returned_spec (s : State) (m : Msg) (ret : Nat) :
    (s.returned m ret).agenda = s.agenda ++ [.messageReturn m.id] ∧
      ∀ y ∈ (s.returned m ret).msgs, y.id = m.id → y.ret = ret := by
  refine ⟨rfl, fun y hy hid => ?_⟩
  obtain ⟨z, _, rfl⟩ := List.mem_map.1 (show y ∈ s.msgs.map _ from hy)
  by_cases hz : z.id = m.id
  · rw [if_pos hz]
  · rw [if_neg hz] at hid
    exact absurd hid hz

/-! ### A task (R136, R193) -/

theorem deliver_task (hk : nbit w0 33 = true) (hq : (s.core m.core).queue.length < 256) :
    ∃ y, ((s.deliver m w0 pc).core m.core).queue = (s.core m.core).queue ++ [y] ∧ y.kind = .message ∧
      y.pc = BitVec.ofNat 64 pc ∧ y.prt = m.prt ∧ y.target = some m.core := by
  unfold State.deliver
  extract_lets q ctx pk n k rq a t u v
  have hroom : 0 < s.room m.core := Nat.sub_pos_of_lt hq
  have hplace : s.hasPlace pk = true := Bool.or_eq_true_iff.2 (.inr (decide_eq_true hroom))
  have he : s.place pk = s.enqueue m.core pk := if_pos hroom
  rw [if_pos hk, if_pos hplace, he, State.delivered_core]
  exact ⟨pk, congrArg Core.queue (s.core_setCore ..), rfl, rfl, rfl, rfl⟩

/-! ### A receive-queue entry (R136, R383) -/

/-- The receive queue that a message of number `n` goes to (log 42). -/
def State.rqOf (s : State) (m : Msg) (n : Nat) : RecvQ := (s.core m.core).rq.look {} (rqIdx (s.prt m.prt).ctxActive n)

theorem deliver_full (hk : nbit w0 33 = false)
    (hf : (s.rqOf m (nfld w0 51 48)).enable = false ∨ (s.rqOf m (nfld w0 51 48)).full = true) :
    s.deliver m w0 pc = s.returned m 2 := by
  have hc : (!(s.rqOf m (nfld w0 51 48)).enable || (s.rqOf m (nfld w0 51 48)).full) = true := by
    simpa only [Bool.or_eq_true, Bool.not_eq_true'] using hf
  unfold State.deliver
  rw [if_neg (by rw [hk]; decide)]
  exact if_pos hc

/-- The entry at TAIL is written, TAIL advances, and the threads that wait for the queue are told. -/
def State.queued (s : State) (m : Msg) (n : Nat) : State :=
  let ctx := (s.prt m.prt).ctxActive
  let rq := s.rqOf m n
  let t := s.deviceWrite (s.rqEntry m.core ctx rq rq.tail) (leBytes 16 (m.w0.toNat + 2 ^ 64 * m.w1.toNat))
  (t.setCore m.core { s.core m.core with
    rq := (s.core m.core).rq.put {} (rqIdx ctx n) { rq with tail := (rq.tail + 1) % (rq.cap + 1) } }).waitiEvent 1
      (fun t th => slotOf t / 16 == m.core && th.ctx == ctx)

theorem deliver_queued (hk : nbit w0 33 = false) (he : (s.rqOf m (nfld w0 51 48)).enable = true)
    (hf : (s.rqOf m (nfld w0 51 48)).full = false) (hw : s.waiters = []) :
    s.deliver m w0 pc = (s.queued m (nfld w0 51 48)).delivered m := by
  have hc : ¬ (!(s.rqOf m (nfld w0 51 48)).enable || (s.rqOf m (nfld w0 51 48)).full) = true := by
    rw [he, hf]
    decide
  unfold State.deliver
  rw [if_neg (by rw [hk]; decide)]
  refine (if_neg hc).trans ?_
  dsimp only
  rw [State.deviceStore_of_no_waiters hw]
  rfl

theorem State.queued_spec (s : State) (m : Msg) (n : Nat) :
    Stored s (s.queued m n) (List.range' (s.rqEntry m.core (s.prt m.prt).ctxActive (s.rqOf m n) (s.rqOf m n).tail) 16)
      (m.w0.toNat + 2 ^ 64 * m.w1.toNat) ∧
    (((s.queued m n).core m.core).rq.look {} (rqIdx (s.prt m.prt).ctxActive n)).tail =
      ((s.rqOf m n).tail + 1) % ((s.rqOf m n).cap + 1) := by
  refine ⟨Stored.of_leBytes rfl, ?_⟩
  have hcore : (s.queued m n).core m.core = _ := State.core_setCore ..
  rw [hcore]
  exact congrArg RecvQ.tail (Tbl.look_put_self ..)

/-- Telling the threads that wait for the queue leaves every thread's state and place. -/
theorem State.queued_thread (s : State) (m : Msg) (n u : Nat) :
    ((s.queued m n).thread u).st = (s.thread u).st ∧ ((s.queued m n).thread u).pc = (s.thread u).pc ∧
      ((s.queued m n).thread u).prt = (s.thread u).prt := by
  have h : (fun t : Thread => (t.st, t.pc, t.prt)) ((s.queued m n).thread u) =
      (fun t : Thread => (t.st, t.pc, t.prt)) (s.thread u) := by
    refine Tbl.look_map_field (g := fun t : Thread => (t.st, t.pc, t.prt)) s.threads u (fun e => ?_)
    split <;> exact ⟨rfl, rfl⟩
  simpa only [Prod.mk.injEq] using h

theorem State.queued_heldUp (s : State) (m : Msg) (n u : Nat) : (s.queued m n).heldUp u = s.heldUp u := by
  unfold State.heldUp
  rw [(s.queued_thread m n u).2.2]
  rfl

theorem messageDelivery_queues {u : Nat} (ha : Arrives s id m) (hid : m.id = id) (h : Holds s m w0 core pc)
    (hk : nbit w0 33 = false) (he : (s.rqOf m (nfld w0 51 48)).enable = true)
    (hf : (s.rqOf m (nfld w0 51 48)).full = false) (hw : s.waiters = []) :
    let ctx := (s.prt m.prt).ctxActive
    let rq := s.rqOf m (nfld w0 51 48)
    Completes (.messageDelivery id) s (fun t =>
      Stored s t (List.range' (s.rqEntry m.core ctx rq rq.tail) 16) (m.w0.toNat + 2 ^ 64 * m.w1.toNat) ∧
      ((t.core m.core).rq.look {} (rqIdx ctx (nfld w0 51 48))).tail = (rq.tail + 1) % (rq.cap + 1) ∧
      (∀ y ∈ t.msgs, y.id ≠ id) ∧
      (m.sender = some u → (s.thread u).st = .memory → s.prtRuns (some (s.thread u).prt) = true →
        (t.thread u).st = .ready ∧ (t.thread u).pc = (s.thread u).pc + 4)) := by
  intro ctx rq
  have hx := messageDelivery_held ha h
  rw [deliver_queued hk he hf hw] at hx
  obtain ⟨hstored, htail⟩ := s.queued_spec m (nfld w0 51 48)
  obtain ⟨hst, hpc, _⟩ := s.queued_thread m (nfld w0 51 48) u
  have hheld := s.queued_heldUp m (nfld w0 51 48) u
  generalize s.queued m (nfld w0 51 48) = v at *
  refine completes_of_next hx ⟨?_, ?_, hid ▸ v.delivered_removes m, fun hm hs hr => ?_⟩
  · unfold Stored State.byteAt at hstored ⊢
    rwa [v.delivered_mem]
  · rwa [v.delivered_core]
  · have hu : s.heldUp u = false := by
      unfold State.heldUp
      rw [hr]
      rfl
    have hgo : (v.delivered m).thread u = (v.thread u).go := by
      rw [State.delivered_of_sender hm]
      exact State.replyTo_thread (s := v.without m.id) (hst.trans hs) (hheld.trans hu)
    rw [hgo, ← hpc]
    exact ⟨rfl, rfl⟩

end

/-! ## MESSAGE_RETURN (R136, R256) -/

/-- A comparator that an event meets only signals (R71). -/
theorem State.debugEvent_signals (s : State) (cls code : Nat) (site : Option W32) :
    SignalsOnly s (s.debugEvent cls code site) := by
  unfold State.debugEvent
  extract_lets hit act die t
  have ht : SignalsOnly s t := by
    unfold t
    split
    · exact (s.clapperAt_follows 2 die).only
    · exact .refl s
  split
  · exact ht.trans (t.tocsinAt_does 2 die).signals.only
  · exact ht

/-- What the entry of a handler saves, and where. -/
theorem State.takeTrap_saves {s : State} (h : Vectored s) (w : W32) (cause : Nat) (tval : W64) (detail : Nat) :
    let th := (s.takeTrap w cause tval detail).thread s.tid
    th.tval = tval ∧ th.tepc = trapPc s.thr cause ∧ th.intrap = true ∧
      th.tcause = BitVec.ofNat 64 (cause + detail % 16 * 2 ^ 8 + b2n (!s.thr.sup) * 2 ^ 16) := by
  obtain ⟨hin, hvec⟩ := h
  have ht := (s.debugEvent_signals 2 cause (some (slotSite s.pkg (s.tid % 65536)))).tid
  unfold State.takeTrap
  rw [if_neg (by rw [hin]; simp [hvec])]
  dsimp only
  generalize s.debugEvent 2 cause (some (slotSite s.pkg (s.tid % 65536))) = u at *
  rw [← ht, State.setThr, State.thread_setThread]
  exact ⟨rfl, rfl, rfl, rfl⟩

/-- The low byte of TCAUSE is the cause (R258). -/
theorem tcause_low {cause : Nat} (h : cause < 256) (detail : Nat) (b : Bool) :
    (BitVec.ofNat 64 (cause + detail % 16 * 2 ^ 8 + b2n b * 2 ^ 16)).toNat % 256 = cause := by
  have hb : b2n b ≤ 1 := by cases b <;> decide
  rw [BitVec.toNat_ofNat]
  omega

theorem State.forgetName_rest (s : State) (m q : Nat) (name : W32) :
    { s.forgetName m q name with clusters := s.clusters } = s := by
  unfold State.forgetName
  dsimp only
  split <;> rfl

/-- The SEND's trap, STALE or QOVF, with the name in TVAL (R136). -/
theorem State.sendTrap_saves {s : State} (h : Vectored s) (w name : W32) (cause : Nat) :
    let th := (s.sendTrap w cause name).thread s.tid
    th.tval = name.setWidth 64 ∧ th.tepc = trapPc s.thr cause ∧ th.intrap = true ∧
      th.tcause = BitVec.ofNat 64 (cause + 0 % 16 * 2 ^ 8 + b2n (!s.thr.sup) * 2 ^ 16) := by
  unfold State.sendTrap
  split
  · have hr := s.forgetName_rest (slotOf s.tid / 128) s.thr.prt name
    generalize s.forgetName (slotOf s.tid / 128) s.thr.prt name = v at *
    rw [← hr] at h ⊢
    exact State.takeTrap_saves (s := v) h w cause _ 0
  · exact State.takeTrap_saves h w cause _ 0

theorem State.sendFails_saves {s : State} {u : Nat} (h : Vectored { s with tid := u }) (hu : s.heldUp u = false)
    (name : W32) (cause : Nat) :
    let th := (s.sendFails u cause name).thread u
    th.tval = name.setWidth 64 ∧ th.tepc = trapPc (s.thread u) cause ∧ th.intrap = true ∧
      th.tcause = BitVec.ofNat 64 (cause + 0 % 16 * 2 ^ 8 + b2n (!(s.thread u).sup) * 2 ^ 16) := by
  unfold State.sendFails
  rw [hu]
  exact State.sendTrap_saves h (s.thread u).word name cause

theorem messageReturn_traps {s : State} {id u : Nat} {m : Msg}
    (hf : s.msgs.find? (fun y => y.id == id && y.ret != 0) = some m) (hm : m.sender = some u)
    (hv : Vectored { s with tid := u }) (hu : s.heldUp u = false) : Completes (.messageReturn id) s (fun t =>
      (t.thread u).tval = m.name.setWidth 64 ∧ (t.thread u).tepc = (s.thread u).pc ∧ (t.thread u).intrap = true ∧
      (t.thread u).tcause.toNat % 256 = if m.ret = 1 then cSTALE else cQOVF) := by
  have hx : exec (.messageReturn id) s =
      .next ((s.without id).sendFails u (if m.ret = 1 then cSTALE else cQOVF) m.name) := by
    refine congrArg Host.Outcome.next ?_
    simp only [hf, hm]
    rfl
  have hcause : (if m.ret = 1 then cSTALE else cQOVF) = cSTALE ∨ (if m.ret = 1 then cSTALE else cQOVF) = cQOVF := by
    split <;> simp
  generalize (if m.ret = 1 then cSTALE else cQOVF) = cause at *
  obtain ⟨htval, htepc, hin, htcause⟩ := State.sendFails_saves (s := s.without id) hv hu m.name cause
  refine completes_of_next hx ⟨htval, htepc.trans ?_, hin, ?_⟩
  · rcases hcause with rfl | rfl <;> rfl
  · rw [htcause]
    exact tcause_low (by rcases hcause with rfl | rfl <;> decide) 0 _

end Sys2Proof.Machine
end

section
open Sys2Proof Sys2Proof.Machine

/-- Settles O50: each clause is the theorem about its own event. -/
theorem taskAndMessageEvents : Obligations.TaskAndMessageEvents := by
  intro s c q i id u n core w0 pc pk m tag rest k u0 due x rq at' back arrives held relaxed fewer
  have harrives (h : arrives) : Arrives s id m := ⟨h.1, h.2.2⟩
  have hholds (h : held) : Holds s m w0 core pc := ⟨h.2.1, h.2.2.1, h.2.2.2⟩
  have hback (ret : Nat) (h : m.id = id) : back ret (s.returned m ret) := by
    subst h
    exact s.returned_spec m ret
  have hfewer : (s.taken u n).thread u = fewer := State.taken_thread
  refine ⟨fun ho hr hc hp hw hf hb hm => ?dispatch, taskPacketPromote_raises s c,
    fun h hk he hf hw => messageDelivery_queues (harrives h.1) h.1.2.1 (hholds h) hk he hf hw, fun h hk hf => ?returns,
    fun h hk hq => ?task, fun h hn hs => ?stale, fun hf hm hv hu => messageReturn_traps hf hm hv hu,
    fun hr hs hp => uiTake_enters hr hs hp, fun hw ps b hn d hr => ?store, fun hw hu sx d ps b hc hr => ?load,
    fun hw hu fn x cmp d p b hb _ => ⟨fun hr => ?amo, fun hr => ?cas⟩,
    fun hw x f p hb => ⟨fun hr => ?ste, fun hr => ?febit⟩⟩
  case dispatch =>
    obtain ⟨v, t, hx, hv, ht⟩ := taskDispatch_starts ho hr hc hp hw hf hb hm
    refine completes_of_next hx ?_
    dsimp only
    rw [ht.thread, startThread_thread, hv.pkg]
    refine ⟨rfl, rfl, rfl, rfl, rfl, rfl, rfl, rfl, rfl, rfl, fun r => ?_⟩
    by_cases he : pk.kind = .escape
    · simp [he]
    · simp [he, Tbl.look_put]
  case returns =>
    have hx := messageDelivery_held (harrives h.1) (hholds h)
    rw [deliver_full hk hf] at hx
    exact completes_of_next hx (hback 2 h.1.2.1)
  case task => exact completes_of_next (messageDelivery_held (harrives h.1) (hholds h)) (deliver_task hk hq)
  case stale => exact completes_of_next (messageDelivery_unnamed (harrives h) hn hs) (hback 1 h.2.1)
  case store => exact hfewer ▸ memoryReply_store hw hn hr
  case load => exact hfewer ▸ memoryReply_load hw hu hc hr
  case amo => exact hfewer ▸ memoryReply_amo hw hu hb hr
  case cas => exact hfewer ▸ memoryReply_cas hw hu hb hr
  case ste => exact hfewer ▸ memoryReply_ste hw hb hr
  case febit => exact hfewer ▸ memoryReply_febit hw hr

end

section
/-!
SUPPORT. A ring slot that the table of regions lists twice: the region at work at a site is searched for among all
entries (R469), the region of a ring slot is the slot's first entry.
-/

namespace Sys2Proof.Machine

open Sys2Proof

/-- A BUFFER tile with a read at port A behind an operation at ports B and C (R157). -/
def readBehindWrite : Site :=
  { cfg := { kind := 2, w0 := 0x40000000 }, a := [tokVal 0 8], b := [tokVal 0 8], c := [tokVal 0 3] }

/-- A running region with that tile at site 387. -/
def tileRegion : Region := { loaded := true, armed := true, w := 16, h := 16, sites := [(387, readBehindWrite)] }

/-- Ring slot 1 of partition 0 has two entries: the first holds no site, the second is the running region. -/
def doubledRegion : State := { State.reset with regions := [(1, { loaded := true }), (1, tileRegion)] }

theorem doubledRegion_unitAt : doubledRegion.unitAt 387 = some (0, 1, tileRegion, readBehindWrite) := by decide

/-- TILE_READ waits for port B, and the ring slot's first entry has no tile at the site. -/
theorem tileRead_doubledRegion {t : State} (h : exec (.tileRead 387) doubledRegion = .next t) :
    (t.region 0 1).site 387 ≠ readBehindWrite := by
  have hrun : ((nextOr (execTileRead 387 doubledRegion) doubledRegion).region 0 1).site 387 ≠ readBehindWrite := by
    decide
  have ht : execTileRead 387 doubledRegion = .next t := h
  rwa [ht] at hrun

end Sys2Proof.Machine
end

section
open Sys2Proof Sys2Proof.Machine

/-- Refutes O53: in doubledRegion, whose table lists ring slot 1 twice, TILE_READ finds the region at work by searching
all entries and leaves its tile alone, but the ring slot's region, its first entry, has no such tile. The statement has
no premise that a table lists each key once. -/
theorem not_fabricUnits : ¬ Obligations.FabricUnits := by
  intro h
  obtain ⟨-, -, -, -, -, -, hwaits, -⟩ := h doubledRegion 387 0 1 tileRegion readBehindWrite doubledRegion_unitAt
  obtain ⟨t, ht, hsite, -⟩ := hwaits (by decide) (by decide) (by decide) (by decide) (by decide) (by decide)
  exact tileRead_doubledRegion ht hsite

end

section
/-!
SUPPORT. A region's record as the events of its units find and leave it: what waking, reports and records keep of it,
its sites behind a change of the whole table, and the buffers that a token enters (R151).
-/

namespace Sys2Proof.Machine

open Sys2Proof

/-! ## Tables whose every entry changes -/

/-- A property that a map of the entries keeps holds at every key where it held. -/
theorem Tbl.look_map_keeps {α : Type} {d : α} {P : α → Prop} {f : Nat × α → Nat × α}
    (hf : ∀ e, (f e).1 = e.1 ∧ (P e.2 → P (f e).2)) {t : Tbl α} {k : Nat} (h : P (t.look d k)) :
    P (Tbl.look d (t.map f) k) := by
  induction t with
  | nil => exact h
  | cons e r ih =>
    obtain ⟨hkey, hval⟩ := hf e
    by_cases hk : e.1 = k
    · simp only [Tbl.look, if_pos hk] at h
      simpa only [List.map_cons, Tbl.look, hkey, if_pos hk] using hval h
    · simp only [Tbl.look, if_neg hk] at h
      simpa only [List.map_cons, Tbl.look, hkey, if_neg hk] using ih h

/-! ## The buffers of a site (R151) -/

section
variable (x : Site) (t : Token)

theorem swDests_sublist (c : SiteCfg) (src : Nat) : (swDests c src).Sublist (List.range 7) := by
  have houts : (if swValid c then [0, 1, 2, 3].filter (fun d => swOut c d == src) else []).Sublist [0, 1, 2, 3] := by
    split
    · exact List.filter_sublist
    · exact List.nil_sublist _
  have hins : (if swValid c then ([0, 1, 2].filter (fun p => swIn c p == src)).map (· + 4) else []).Sublist
      ([0, 1, 2].map (· + 4)) := by
    split
    · exact List.filter_sublist.map _
    · exact List.nil_sublist _
  exact houts.append hins

theorem Site.buf_setBuf {p k : Nat} (hp : p < 7) (hk : k < 7) (l : List Token) :
    (x.setBuf p l).buf k = if k = p then l else x.buf k := by
  interval_cases p <;> interval_cases k <;> rfl

theorem Site.buf_fail (code port idx k : Nat) : (x.fail code port idx).buf k = x.buf k := by
  unfold Site.fail
  split <;> rfl

theorem Site.buf_setLast (p l k : Nat) : (x.setLast p l).buf k = x.buf k := by
  unfold Site.setLast
  split
  · rfl
  · split <;> rfl

/-- The check of a port's token changes no buffer (R146, R147). -/
theorem Site.buf_push (p k : Nat) : (x.push p t).buf k = (x.setBuf p (x.buf p ++ [t])).buf k := by
  unfold Site.push
  dsimp only
  split
  · rfl
  · split
    · split
      · rfl
      · exact Site.buf_fail ..
    · split
      · exact Site.buf_setLast ..
      · exact Site.buf_fail ..

theorem Site.buf_foldl_push {l : List Nat} (hn : l.Nodup) (hl : ∀ p ∈ l, p < 7) {k : Nat} (hk : k < 7) :
    (l.foldl (fun y p => y.push p t) x).buf k = if k ∈ l then x.buf k ++ [t] else x.buf k := by
  induction l generalizing x with
  | nil => rfl
  | cons p r ih =>
    obtain ⟨hp, hr⟩ := List.nodup_cons.1 hn
    obtain ⟨hlt, hlts⟩ := List.forall_mem_cons.1 hl
    rw [List.foldl_cons, ih (x.push p t) hr hlts, Site.buf_push, Site.buf_setBuf x hlt hk]
    by_cases he : k = p
    · subst he
      simp [hp]
    · simp [he]

/-- A token delivered has entered every place that selects its source, and no other (R151). -/
theorem Site.deliver_gets (src : Nat) : x.Gets (x.deliver src t) src t := by
  have hs := swDests_sublist x.cfg src
  exact fun p hp => Site.buf_foldl_push x t (hs.nodup List.nodup_range) (fun q hq => List.mem_range.1 (hs.subset hq)) hp

end

/-! ## Regions read back -/

section
variable (s : State) (q sl : Nat) (r : Region)

theorem Region.site_setSite (i : Nat) (x : Site) : (r.setSite i x).site i = x := Tbl.look_put_self ..

theorem State.wakeSite_keepsRegions (i : Nat) : KeepsRegions s (s.wakeSite q sl r i) := s.pokes_keepsRegions _

/-- Writing a region back marks what has changed (R175, R176); its units are those written. -/
theorem State.putRegion_sites : ((s.putRegion q sl r).region q sl).sites = r.sites := by
  unfold State.putRegion
  rw [(State.poke_keepsRegions ..).region, State.region_setRegion]

theorem State.putRegion_wakes : WakesOnly s (s.putRegion q sl r) := (s.setRegion_wakes ..).trans (State.poke_wakes _ _)

theorem State.putSite_wakes (i : Nat) (x : Site) : WakesOnly s (s.putSite q sl i r x) := by
  have hput : WakesOnly s ((s.putRegion q sl (r.setSite i x)).wakeSite q sl (r.setSite i x) i) :=
    (s.putRegion_wakes ..).trans (State.wakeSite_wakes ..)
  exact hput.trans (.ite (State.poke_wakes _ _) (.refl _))

theorem State.putGen_wakes (key : Nat) (g : Gen) : WakesOnly s (s.putGen q sl key r g) := by
  unfold State.putGen
  extract_lets r' t u
  have ht : WakesOnly s t := (s.putRegion_wakes ..).trans (State.wakeSite_wakes ..)
  have hu : WakesOnly t u := .ite (t.poke_wakes _) (.refl t)
  exact (ht.trans hu).trans (.ite (u.poke_wakes _) (.refl u))

theorem State.putSite_site (i : Nat) (x : Site) : ((s.putSite q sl i r x).region q sl).site i = x := by
  have hkeep : KeepsRegions (s.putRegion q sl (r.setSite i x)) (s.putSite q sl i r x) :=
    (State.wakeSite_keepsRegions ..).trans (.ite (State.poke_keepsRegions ..) (.refl _))
  unfold Region.site
  rw [hkeep.region, State.putRegion_sites]
  exact r.site_setSite i x

end

/-! ## The agenda -/

theorem State.mem_agenda_poke (s : State) (e : Instr) : e ∈ (s.poke e).agenda := by
  unfold State.poke
  split
  · next h => simpa using h
  · exact List.mem_append_right _ List.mem_cons_self

/-! ## Waking a region (R249) -/

section
variable (s : State) (q sl : Nat) (r : Region)

/-- What a site keeps when its extents are filled again: everything but them. -/
theorem State.restore_site {P : Site → Prop} (hP : ∀ x l m, P x → P { x with extents := l, shadowExt := m }) {i : Nat}
    (h : P (r.site i)) : P ((s.restore q r).site i) := by
  unfold State.restore Region.mapExtents Region.site
  refine Tbl.look_map_keeps (t := r.sites) ?_ h
  exact fun e => ⟨rfl, hP e.2 _ _⟩

theorem State.restore_started (h : ∀ e ∈ r.sites, e.2.started = true) :
    ∀ e ∈ (s.restore q r).sites, e.2.started = true := by
  intro e he
  obtain ⟨x, hx, rfl⟩ := List.mem_map.1 he
  exact h x hx

/-- What a region that may act again keeps: everything but its units. -/
theorem State.wakeRegion_keeps {β : Type} (f : Region → β)
    (hf : ∀ z sites gens, f { z with sites := sites, gens := gens } = f z) :
    f ((s.wakeRegion q sl).region q sl) = f (s.region q sl) := by
  rw [s.wakeRegion_region]
  split
  · exact hf ..
  · rfl

/-- What a site keeps when its region may act again: everything but its extents. -/
theorem State.wakeRegion_site {P : Site → Prop} (hP : ∀ x l m, P x → P { x with extents := l, shadowExt := m }) {i : Nat}
    (h : P ((s.region q sl).site i)) : P (((s.wakeRegion q sl).region q sl).site i) := by
  rw [s.wakeRegion_region]
  split
  · exact s.restore_site q _ hP h
  · exact h

end

/-! ## Reports and records (R71, R261 to R263) -/

theorem SignalsOnly.regions {s t : State} (h : SignalsOnly s t) : t.regions = s.regions := by
  rw [← h]
theorem SignalsOnly.prts {s t : State} (h : SignalsOnly s t) : t.prts = s.prts := by
  rw [← h]

/-- `t` has the regions of `s`, and its save areas hold the same regions. -/
structure KeepsSaved (s t : State) : Prop where
  regions : KeepsRegions s t
  saved : ∀ q, (t.prt q).saved = (s.prt q).saved

namespace KeepsSaved

theorem refl (s : State) : KeepsSaved s s := ⟨.refl s, fun _ => rfl⟩

theorem trans {s t u : State} (h : KeepsSaved s t) (k : KeepsSaved t u) : KeepsSaved s u :=
  ⟨h.regions.trans k.regions, fun q => (k.saved q).trans (h.saved q)⟩

theorem foldl {β : Type} {f : State → β → State} (hf : ∀ s b, KeepsSaved s (f s b)) (l : List β) (s : State) :
    KeepsSaved s (l.foldl f s) := foldl_related refl trans hf l s

theorem ite {s t u : State} {c : Prop} [Decidable c] (h : KeepsSaved s t) (k : KeepsSaved s u) :
    KeepsSaved s (if c then t else u) := by
  split
  · exact h
  · exact k

theorem of_prts {s t : State} (hr : t.regions = s.regions) (hp : t.prts = s.prts) : KeepsSaved s t := by
  refine ⟨hr, fun q => ?_⟩
  unfold State.prt
  rw [hp]

end KeepsSaved

section
variable (s : State)

theorem State.post_keepsSaved (e : Instr) : KeepsSaved s (s.post e) := .of_prts rfl rfl

theorem State.setPrt_keepsSaved {q : Nat} {p : Prt} (h : p.saved = (s.prt q).saved) : KeepsSaved s (s.setPrt q p) := by
  refine ⟨rfl, fun u => ?_⟩
  by_cases hu : u = q
  · subst hu
    rw [State.prt_setPrt, h]
  · rw [State.prt_setPrt_ne s q u p hu]

theorem UnitsKept.keepsSaved {s t : State} (h : UnitsKept s t) : KeepsSaved s t := .of_prts h.regions h.prts

theorem SignalsOnly.keepsSaved {s t : State} (h : SignalsOnly s t) : KeepsSaved s t := .of_prts h.regions h.prts

theorem State.managerMsg_keepsSaved (q : Nat) (name : W32) (w0 w1 : W64) : KeepsSaved s (s.managerMsg q name w0 w1) := by
  unfold State.managerMsg
  split
  · exact .refl s
  · split
    · exact .refl s
    · exact .of_prts rfl rfl

theorem State.faultRecord_keepsSaved (q : Nat) (site : W32) (l : List Byte) : KeepsSaved s (s.faultRecord q site l) := by
  unfold State.faultRecord
  extract_lets p lg used a
  split
  next => exact s.setPrt_keepsSaved rfl
  next h _ =>
    extract_lets t u v
    have ht : KeepsSaved s t := by
      have hd := (s.deviceStore_unitsKept h l).keepsSaved
      exact hd.trans (State.setPrt_keepsSaved _ (hd.saved q).symm)
    have hu : KeepsSaved t u := .of_prts rfl rfl
    have hv : KeepsSaved u v := .ite (.of_prts rfl rfl) (.refl u)
    exact (ht.trans (hu.trans hv)).trans (.ite (v.managerMsg_keepsSaved ..) (.refl v))

theorem State.writeFaults_keepsSaved (q sl : Nat) (r : Region) (flags : Nat → Nat) :
    KeepsSaved s (s.writeFaults q sl r flags) := by
  refine .foldl (fun t e => ?_) _ s
  have hdraw : KeepsSaved t t.draw.2 := .of_prts rfl rfl
  exact (hdraw.trans (State.faultRecord_keepsSaved ..)).trans (State.debugEvent_signals ..).keepsSaved

theorem State.pokeCtx_keepsSaved (q : Nat) : KeepsSaved s (s.pokeCtx q) := by
  unfold State.pokeCtx
  split
  case h_5 => exact .refl s
  all_goals exact s.post_keepsSaved _

theorem State.pokeSites_keepsSaved (q : Nat) : KeepsSaved s (s.pokeSites q) :=
  (s.post_keepsSaved _).trans (.foldl (fun t _ => .ite (t.post_keepsSaved _) (.refl t)) _ _)

theorem PortsOnly.keepsSaved {s t : State} (h : PortsOnly s t) : KeepsSaved s t :=
  ⟨h.regions, fun q => by rw [h.prt]⟩

theorem State.prtStore_keepsSaved (q pa n : Nat) (l : List Byte) : KeepsSaved s (s.prtStore q pa n l) := by
  induction n generalizing s pa l with
  | zero => exact .refl s
  | succ n ih =>
    unfold State.prtStore
    extract_lets t
    have ht : KeepsSaved s t := by
      unfold t
      split
      · exact (s.deviceStore_unitsKept ..).keepsSaved
      · exact .refl s
    exact ht.trans (ih t _ _)

theorem State.writeSaved_keepsSaved (q off n : Nat) : KeepsSaved s (s.writeSaved q off n) := by
  have hdraw : KeepsSaved s (s.freeBytes n).2 := .of_prts rfl rfl
  exact hdraw.trans (State.prtStore_keepsSaved ..)

end

end Sys2Proof.Machine
end

section
/-!
SUPPORT. A region at work: the publication of a window (R173), the sweep and the stall (R175 to R178), and the tokens of
a fabric-mode matrix tile (R212).
-/

namespace Sys2Proof.Machine

open Sys2Proof

/-! ## Windows (R173) -/

section
variable {s : State} {q sl w : Nat}

theorem windowPublish_ignored (h : ((s.region q sl).wins.look {} w).due = 0) : Completes (.windowPublish q sl w) s (· = s) :=
  completes_of_next (congrArg Host.Outcome.next (if_pos h)) rfl

theorem State.publish_mem : (s.publish q sl w).mem = s.mem := (State.releaseAt_caches ..).mem

theorem State.publish_region : (s.publish q sl w).region q sl = { s.region q sl with
    wins := (s.region q sl).wins.put {} w
      { (s.region q sl).wins.look {} w with count := ((s.region q sl).wins.look {} w).count + 1 } } := by
  have hkeep : KeepsRegions _ (s.publish q sl w) := (State.releaseAt_caches ..).regions
  rw [hkeep.region, State.region_setRegion]

theorem windowPublish_counts (h : ((s.region q sl).wins.look {} w).due ≠ 0) : Completes (.windowPublish q sl w) s (fun t =>
    t.mem = s.mem ∧ (t.region q sl).wins.look {} w = { (s.region q sl).wins.look {} w with
      due := ((s.region q sl).wins.look {} w).due - 1, count := ((s.region q sl).wins.look {} w).count + 1 }) := by
  refine completes_of_next (congrArg Host.Outcome.next (if_neg h)) ⟨?_, ?_⟩
  · rw [(State.poke_wakes _ _).mem, State.publish_mem]
    rfl
  · rw [(State.poke_keepsRegions ..).region, State.publish_region, Tbl.look_put_self, State.region_setRegion,
      Tbl.look_put_self]

end

/-! ## Hush (R175 to R178) -/

/-- The region once a sweep has looked at it. -/
def Region.swept (r : Region) : Region := { r with touched := [], acted := false }

/-- The region ends DONE, its stores visible to both dies (R176, R237). -/
def State.endsDone (s : State) (q sl : Nat) (r : Region) : State :=
  (((s.setRegion q sl r).releaseAt 0 4).releaseAt 1 4).regionUnitEnd q sl .done 0

section
variable {s : State} {q sl : Nat} (hr : s.regionRuns q (s.region q sl) = true)
include hr

theorem hushSweep_runs : exec (.hushSweep q sl) s = .next (
    let r := s.region q sl
    if r.tokens = 0 ∧ r.memReqs = 0 ∧ !r.selfFiring then
      let z := { r.swept with quiescent := true }
      if z.endq then s.endsDone q sl z.publishAll
      else if z.finished ∧ z.wins.all (fun e => e.2.due == 0) then s.endsDone q sl z
      else s.setRegion q sl z
    else if r.acted ∨ r.touched ≠ [] then (s.setRegion q sl r.swept).poke (.hushSweep q sl)
    else if 0 < r.tokens then s.poke (.hushStall q sl)
    else s) :=
  congrArg Host.Outcome.next (if_neg (by simp [hr]))

section
variable (ht : (s.region q sl).tokens = 0) (hm : (s.region q sl).memReqs = 0) (hs : (s.region q sl).selfFiring = false)
include ht hm hs

theorem hushSweep_quiet : exec (.hushSweep q sl) s = .next (
    let z := { (s.region q sl).swept with quiescent := true }
    if z.endq then s.endsDone q sl z.publishAll
    else if z.finished ∧ z.wins.all (fun e => e.2.due == 0) then s.endsDone q sl z
    else s.setRegion q sl z) :=
  (hushSweep_runs hr).trans (congrArg Host.Outcome.next (if_pos ⟨ht, hm, by rw [hs]; rfl⟩))

theorem hushSweep_endq (he : (s.region q sl).endq = true) :
    exec (.hushSweep q sl) s = .next (s.endsDone q sl (Region.publishAll { (s.region q sl).swept with quiescent := true })) :=
  (hushSweep_quiet hr ht hm hs).trans (congrArg Host.Outcome.next (if_pos he))

variable (he : (s.region q sl).endq = false)
include he

theorem hushSweep_quiescent (hf : (s.region q sl).finished = false) : Completes (.hushSweep q sl) s (fun t =>
    t.region q sl = { (s.region q sl).swept with quiescent := true }) := by
  have hgo : ¬((s.region q sl).finished = true ∧ (s.region q sl).wins.all (fun e => e.2.due == 0) = true) := by
    rw [hf]
    exact fun h => Bool.false_ne_true h.1
  exact completes_of_next ((hushSweep_quiet hr ht hm hs).trans (congrArg Host.Outcome.next
    ((if_neg (Bool.eq_false_iff.1 he)).trans (if_neg hgo)))) (State.region_setRegion ..)

theorem hushSweep_done (hf : (s.region q sl).finished = true) (hw : ∀ e ∈ (s.region q sl).wins, e.2.due = 0) :
    exec (.hushSweep q sl) s = .next (s.endsDone q sl { (s.region q sl).swept with quiescent := true }) :=
  (hushSweep_quiet hr ht hm hs).trans (congrArg Host.Outcome.next
    ((if_neg (Bool.eq_false_iff.1 he)).trans
      (if_pos ⟨hf, List.all_eq_true.2 fun e h => beq_iff_eq.2 (hw e h)⟩)))

end

section
variable (ht : 0 < (s.region q sl).tokens)
include ht

theorem hushSweep_active (ha : (s.region q sl).acted = true ∨ (s.region q sl).touched ≠ []) :
    Completes (.hushSweep q sl) s (fun t => t.region q sl = (s.region q sl).swept ∧ .hushSweep q sl ∈ t.agenda) := by
  refine completes_of_next ((hushSweep_runs hr).trans (congrArg Host.Outcome.next
    ((if_neg fun h => Nat.ne_of_gt ht h.1).trans (if_pos ha)))) ⟨?_, State.mem_agenda_poke ..⟩
  rw [(State.poke_keepsRegions ..).region, State.region_setRegion]

variable (ha : (s.region q sl).acted = false) (hd : (s.region q sl).touched = [])
include ha hd

theorem hushSweep_idle : Completes (.hushSweep q sl) s (fun t => .hushStall q sl ∈ t.agenda) := by
  have hidle : ¬((s.region q sl).acted = true ∨ (s.region q sl).touched ≠ []) := by simp [ha, hd]
  exact completes_of_next ((hushSweep_runs hr).trans (congrArg Host.Outcome.next
    ((if_neg fun h => Nat.ne_of_gt ht h.1).trans ((if_neg hidle).trans (if_pos ht))))) (State.mem_agenda_poke ..)

theorem hushStall_stalls (hk : (s.region q sl).ticketHeld = false) (hs : (s.region q sl).stall = false) :
    Completes (.hushStall q sl) s (fun t => t.region q sl = { s.region q sl with
      stall := true, stalls := Nat.min 255 ((s.region q sl).stalls + 1) }) := by
  refine completes_of_next (congrArg Host.Outcome.next (if_neg ?_)) ?_
  · simp [hr, ha, hd, hk, hs, Nat.ne_of_gt ht]
  · have hkeep : KeepsRegions _ _ := (State.debugEvent_signals (s.setRegion q sl { s.region q sl with
      stall := true, stalls := Nat.min 255 ((s.region q sl).stalls + 1) }) 6 0
      (some (fabSite s.pkg (siteAt (s.region q sl).x (s.region q sl).y) 0))).regions
    exact (hkeep.region q sl).trans (State.region_setRegion ..)

end

end

theorem hushStall_ignored {s : State} {q sl : Nat} (h : (s.region q sl).acted = true ∨ (s.region q sl).touched ≠ [] ∨
    (s.region q sl).ticketHeld = true ∨ (s.region q sl).stall = true) : Completes (.hushStall q sl) s (· = s) :=
  completes_of_next (congrArg Host.Outcome.next (if_pos (.inr (.inr h)))) rfl

/-! ## Fabric-mode matrix tiles (R212) -/

/-- A fabric-mode tile's token enters the edge switch of generator 3, and the tile becomes `f` (R212). -/
def State.tileEmits (s : State) (q sl m : Nat) (r : Region) (f : MxFab) (tok : Token) : State :=
  ((s.putSite q sl (genEdge (tileGen m)).1 (r.setMx f)
    ((r.site (genEdge (tileGen m)).1).deliver (srcOf (genEdge (tileGen m)).2) tok)).poke (.matrixTileEmit m)).poke
      (.kStepGrant m)

theorem State.tileEmits_gets (s : State) (q sl m : Nat) (r : Region) (f : MxFab) (tok : Token) :
    (r.site (genEdge (tileGen m)).1).Gets (((s.tileEmits q sl m r f tok).region q sl).site (genEdge (tileGen m)).1)
      (srcOf (genEdge (tileGen m)).2) tok := by
  unfold State.tileEmits
  rw [(State.poke_keepsRegions ..).region, (State.poke_keepsRegions ..).region, State.putSite_site]
  exact Site.deliver_gets _ _ _

section
variable {s : State} {q sl m : Nat} {r : Region} {f : MxFab} (h : s.fabTile m = some (q, sl, r, f)) (hf : f.flt.code = 0)
  (hr : f.rolled = false) (he : r.edgeRoom (tileGen m) = true)
include h hf hr he

/-- The tile that may emit does: D after its last tile, the stop that is due, or the next token of the row (R445). -/
theorem matrixTileEmit_emits : exec (.matrixTileEmit m) s = .next (
    match f.stop, f.emit with
    | some 4, _ => s.tileEmits q sl m r { f with stop := none, dSent := true } tokDone
    | some j, some (i, _) =>
      if j = 0 then s.tileEmits q sl m r { f with stop := none, emit := some (i + 1, 0) } (tokStop 0)
      else s.tileEmits q sl m r { f with
        emit := none, tile := f.tile + 1, stop := if f.tiles ≤ f.tile + 1 then some 4 else none } (tokStop 1)
    | none, some (i, j) =>
      (match mxFmt f.fmt with
       | none => s
       | some g =>
         if j + fmtLanes f.outFmt < f.n then
           s.tileEmits q sl m r { f with emit := some (i, j + fmtLanes f.outFmt) } (s.fabToken r f g i j)
         else s.tileEmits q sl m r { f with stop := some (if i + 1 < f.m then 0 else 1) } (s.fabToken r f g i j))
    | _, none => s) := by
  have hgo : ¬(f.flt.code ≠ 0 ∨ f.rolled = true ∨ (!r.edgeRoom (tileGen m)) = true) := by simp [hf, hr, he]
  show execMatrixTileEmit m s = _
  unfold execMatrixTileEmit
  rw [h]
  dsimp only
  rw [if_neg hgo]
  rfl

theorem matrixTileEmit_done (hs : f.stop = some 4) : ∃ f', exec (.matrixTileEmit m) s = .next (s.tileEmits q sl m r f' tokDone) :=
  ⟨{ f with stop := none, dSent := true }, (matrixTileEmit_emits h hf hr he).trans (by rw [hs]; cases f.emit <;> rfl)⟩

variable {i j : Nat} (hi : f.emit = some (i, j))
include hi

theorem matrixTileEmit_rowStop (hs : f.stop = some 0) :
    ∃ f', exec (.matrixTileEmit m) s = .next (s.tileEmits q sl m r f' (tokStop 0)) :=
  ⟨_, (matrixTileEmit_emits h hf hr he).trans (by rw [hs, hi]; rfl)⟩

theorem matrixTileEmit_tileStop (hs : f.stop = some 1) :
    ∃ f', exec (.matrixTileEmit m) s = .next (s.tileEmits q sl m r f' (tokStop 1)) :=
  ⟨_, (matrixTileEmit_emits h hf hr he).trans (by rw [hs, hi]; rfl)⟩

theorem matrixTileEmit_value {g : Fmt} (hs : f.stop = none) (hg : mxFmt f.fmt = some g) :
    ∃ f', exec (.matrixTileEmit m) s = .next (s.tileEmits q sl m r f' (s.fabToken r f g i j)) := by
  rw [matrixTileEmit_emits h hf hr he, hs, hi, hg]
  dsimp only
  split
  · exact ⟨_, rfl⟩
  · exact ⟨_, rfl⟩

end

end Sys2Proof.Machine
end

section
/-!
SUPPORT. A region's life: the end of a load (R179), START (R182) and a site's swap at the roll (R185).
-/

namespace Sys2Proof.Machine

open Sys2Proof

/-! ## A thread that an event answers -/

section
variable (s : State)

theorem State.finT_thread (t : Nat) (d : GReg) (x : W64) : ((s.finT t d x).thread t).st = .ready ∧
    ((s.finT t d x).thread t).pc = (s.thread t).pc + 4 ∧ (d ≠ 0 → ((s.finT t d x).thread t).readG d = x) := by
  unfold State.finT
  rw [State.thread_setThread]
  refine ⟨rfl, ?_, fun hd => ?_⟩
  · rw [Thread.writeG_eq]
  · exact ((s.thread t).readG_writeG d d x).trans (if_pos ⟨rfl, hd⟩)

theorem State.finT_keepsSaved (t : Nat) (d : GReg) (x : W64) : KeepsSaved s (s.finT t d x) := .of_prts rfl rfl

theorem State.thread_of_threads {s t : State} (h : t.threads = s.threads) (u : Nat) : t.thread u = s.thread u := by
  unfold State.thread
  rw [h]

theorem WakesOnly.thread {s t : State} (h : WakesOnly s t) (u : Nat) : t.thread u = s.thread u := by
  refine State.thread_of_threads ?_ u
  rw [← h]

theorem State.unitAdd_threads (q sl : Nat) : (s.unitAdd q sl).threads = s.threads := by
  unfold State.unitAdd State.childAdded
  split
  · dsimp only
    split <;> rfl
  · rfl

end

/-! ## The end of a load (R179, R398) -/

section
variable {s : State} {p tt d : Nat} {l : CfgLoad} (hl : s.loads.find? (fun e => e.port == p) = some l)
  (hs : l.sched = false) (hh : s.loadHeld l = false) (hr : s.prtRuns (some l.prt) = true)
  (hc : s.clockOn (20 * (p / 256) + 18) = true) (hw : l.waiter = some (tt, d))

/-- The load done, with its status: what its checks have left. -/
def State.loadDone (s : State) (l : CfgLoad) : (Nat × Nat) × State :=
  (State.loadPortsDone { s with loads := s.loads.erase l } l).doLoadImage l

/-- The launch's unit is counted once its image is loaded. -/
def State.loadCounted (s : State) (l : CfgLoad) : State :=
  if (s.loadDone l).1.1 = 0 ∧ !l.shadow then (s.loadDone l).2.unitAdd l.prt l.slot else (s.loadDone l).2

theorem State.loadCounted_threads : (s.loadCounted l).threads = (s.loadDone l).2.threads := by
  unfold State.loadCounted
  split
  · exact State.unitAdd_threads ..
  · rfl

include hl hs hh hr hc hw

theorem configLoadComplete_answers : exec (.configLoadComplete p) s = .next
    ((((s.loadCounted l).finT tt (BitVec.ofNat 6 d) (loadWord (s.loadDone l).1.2 (s.loadDone l).1.1 0 l.slot)).pokeCtx
      l.prt).poke .schedulerDecision) := by
  have hgo : ¬(s.loadHeld l = true ∨ (!s.prtRuns (some l.prt)) = true ∨ (!s.clockOn (20 * (p / 256) + 18)) = true) := by
    simp [hh, hr, hc]
  show execConfigLoadComplete p s = _
  unfold execConfigLoadComplete
  rw [hl]
  dsimp only
  rw [if_neg hgo, if_neg (Bool.eq_false_iff.1 hs), hw]
  rfl

theorem configLoadComplete_status (hd : 0 < d) (hd' : d < 56) : Completes (.configLoadComplete p) s (fun t =>
    (t.thread tt).st = .ready ∧ (t.thread tt).pc = ((s.loadDone l).2.thread tt).pc + 4 ∧
      (t.thread tt).readG (BitVec.ofNat 6 d) = loadWord (s.loadDone l).1.2 (s.loadDone l).1.1 0 l.slot) := by
  refine completes_of_next (configLoadComplete_answers hl hs hh hr hc hw) ?_
  have hne : BitVec.ofNat 6 d ≠ 0 := by
    intro h
    have hnat := congrArg BitVec.toNat h
    simp only [BitVec.toNat_ofNat, BitVec.ofNat_eq_ofNat, Nat.zero_mod] at hnat
    omega
  rw [WakesOnly.thread ((State.pokeCtx_wakes ..).trans (State.poke_wakes ..))]
  obtain ⟨hst, hpc, hreg⟩ := (s.loadCounted l).finT_thread tt (BitVec.ofNat 6 d)
    (loadWord (s.loadDone l).1.2 (s.loadDone l).1.1 0 l.slot)
  exact ⟨hst, hpc.trans (by rw [State.thread_of_threads State.loadCounted_threads]), hreg hne⟩

end

/-! ## START (R164, R182) -/

section
variable {s : State} {q sl : Nat} (ho : (s.region q sl).onFab = true) (ha : (s.region q sl).arming = true)
  (hi : s.tilesIdle (s.region q sl) = true) (hc : s.active q (s.region q sl).ctx = true) (hr : s.prtRuns (some q) = true)

/-- START has reached every unit, and each may act. -/
def State.regionStarted (s : State) (q sl : Nat) : State := (s.setRegion q sl (s.region q sl).start).wakeRegion q sl

theorem State.regionStarted_wakes : WakesOnly s (s.regionStarted q sl) :=
  (s.setRegion_wakes q sl (s.region q sl).start).trans (State.wakeRegion_wakes _ q sl)

/-- A fact of the started region that does not speak of its units. -/
theorem State.regionStarted_keeps {β : Type} (f : Region → β)
    (hf : ∀ z sites gens, f { z with sites := sites, gens := gens } = f z) :
    f ((s.regionStarted q sl).region q sl) = f (s.region q sl).start := by
  unfold State.regionStarted
  rw [State.wakeRegion_keeps _ q sl f hf, State.region_setRegion]

theorem State.regionStarted_armed : ((s.regionStarted q sl).region q sl).armed = true := by
  rw [State.regionStarted_keeps Region.armed fun _ _ _ => rfl]
  rfl

theorem State.regionStarted_flags : ((s.regionStarted q sl).region q sl).flags = 0 := by
  rw [State.regionStarted_keeps Region.flags fun _ _ _ => rfl]
  rfl

theorem State.regionStarted_stalls : ((s.regionStarted q sl).region q sl).stalls = 0 := by
  rw [State.regionStarted_keeps Region.stalls fun _ _ _ => rfl]
  rfl

theorem State.regionStarted_sites : ∀ e ∈ ((s.regionStarted q sl).region q sl).sites, e.2.started = true := by
  have hstart : ∀ e ∈ (s.region q sl).start.sites, e.2.started = true := by
    intro e he
    obtain ⟨x, -, rfl⟩ := List.mem_map.1 he
    rfl
  unfold State.regionStarted
  rw [State.wakeRegion_region, State.region_setRegion]
  split
  · exact State.restore_started _ _ _ hstart
  · exact hstart

theorem State.regionStarted_wins : ∀ e ∈ ((s.regionStarted q sl).region q sl).wins, e.2.count = 0 := by
  intro e he
  rw [State.regionStarted_keeps Region.wins fun _ _ _ => rfl] at he
  obtain ⟨x, -, rfl⟩ := List.mem_map.1 he
  rfl

include ho ha hi hc hr

theorem regionArm_starts : exec (.regionArm q sl) s = .next (
    match (s.region q sl).armWait with
    | some (t, d) => (s.regionStarted q sl).finT t (BitVec.ofNat 6 d) 0
    | none => (s.regionStarted q sl).startTasks q sl) := by
  refine congrArg Host.Outcome.next (if_neg ?_)
  simp [ho, ha, hi, hc, hr]

theorem regionArm_scheduled (hw : (s.region q sl).armWait = none)
    (hn : ((s.prt q).launchRun.look {} sl).ntask = 0) : Completes (.regionArm q sl) s (fun t =>
      (t.region q sl).armed = true ∧ (t.region q sl).flags = 0 ∧ (t.region q sl).stalls = 0 ∧
        (∀ e ∈ (t.region q sl).sites, e.2.started = true) ∧ ∀ e ∈ (t.region q sl).wins, e.2.count = 0) := by
  have hnone : (((s.regionStarted q sl).prt q).launchRun.look {} sl).ntask = 0 := by
    unfold State.prt
    rw [State.regionStarted_wakes.prts]
    exact hn
  have hx : exec (.regionArm q sl) s = .next (s.regionStarted q sl) := by
    rw [regionArm_starts ho ha hi hc hr, hw]
    dsimp only [State.startTasks]
    rw [if_pos hnone]
  exact completes_of_next hx ⟨State.regionStarted_armed, State.regionStarted_flags, State.regionStarted_stalls, State.regionStarted_sites,
    State.regionStarted_wins⟩

theorem regionArm_answers {tt d : Nat} (hw : (s.region q sl).armWait = some (tt, d)) : Completes (.regionArm q sl) s
    (fun t => (t.region q sl).armed = true ∧ (t.thread tt).st = .ready ∧ (t.thread tt).pc = (s.thread tt).pc + 4) := by
  have hx : exec (.regionArm q sl) s = .next ((s.regionStarted q sl).finT tt (BitVec.ofNat 6 d) 0) := by
    rw [regionArm_starts ho ha hi hc hr, hw]
  obtain ⟨hst, hpc, -⟩ := (s.regionStarted q sl).finT_thread tt (BitVec.ofNat 6 d) 0
  have hkeep : KeepsRegions (s.regionStarted q sl) ((s.regionStarted q sl).finT tt (BitVec.ofNat 6 d) 0) :=
    (State.finT_keepsSaved ..).regions
  refine completes_of_next hx ?_
  rw [hkeep.region]
  exact ⟨State.regionStarted_armed, hst, hpc.trans (by rw [State.regionStarted_wakes.thread])⟩

end

/-! ## A site's swap (R185) -/

/-- The site runs configuration `c` and holds no shadow. -/
def Site.Runs (c : SiteCfg) (x : Site) : Prop := x.cfg = c ∧ x.shadow = none

theorem Site.Runs.fail {c : SiteCfg} {x : Site} (h : x.Runs c) (code port idx : Nat) : (x.fail code port idx).Runs c := by
  unfold Site.fail
  split
  · exact h
  · exact h

/-- A site takes its shadow, also where a ROLL already waits at one of its ports (R186). -/
theorem swapSite_runs {x : Site} {c : SiteCfg} (h : x.shadow = some c) (start : Bool) : (swapSite x start).Runs c := by
  unfold swapSite
  rw [h]
  dsimp only
  split
  · exact Site.Runs.fail ⟨rfl, rfl⟩ ..
  · exact ⟨rfl, rfl⟩

section
variable {c : SiteCfg} {i : Nat} {r : Region} (h : (r.site i).Runs c)
include h

theorem Region.swapCopies_runs (k : Nat) : ((r.swapCopies k).site i).Runs c := by
  refine Tbl.look_map_keeps (fun e => ?_) h
  split
  next hs => exact ⟨rfl, fun hx => by simp [hx.2] at hs⟩
  next => exact ⟨rfl, id⟩

theorem Region.swapIdleTiles_runs : (r.swapIdleTiles.site i).Runs c := by
  refine Tbl.look_map_keeps (fun e => ?_) h
  split
  next hs => exact ⟨rfl, fun hx => by simp [hx.2] at hs⟩
  next => exact ⟨rfl, id⟩

theorem Region.rollEnd_runs : (r.rollEnd.site i).Runs c := by
  unfold Region.rollEnd
  extract_lets z
  have hz : (z.site i).Runs c := by
    unfold z
    split
    · refine Tbl.look_map_keeps (t := r.sites) ?_ h
      exact fun e => ⟨rfl, id⟩
    · exact h
  split
  · exact hz
  · exact hz

theorem State.afterSwap_runs (s : State) (q sl : Nat) : (((s.afterSwap q sl r).region q sl).site i).Runs c := by
  have hput (u : State) (z : Region) (hz : (z.site i).Runs c) :
      ((((u.putRegion q sl z).wakeRegion q sl).region q sl).site i).Runs c := by
    refine State.wakeRegion_site _ q sl (fun _ _ _ hx => hx) ?_
    unfold Region.site
    rw [State.putRegion_sites]
    exact hz
  have hend := Region.rollEnd_runs (Region.swapIdleTiles_runs h)
  unfold State.afterSwap
  extract_lets z
  split
  next t d _ =>
    have hkeep : KeepsRegions ((s.putRegion q sl { z with rollWait := none }).wakeRegion q sl)
        ((((s.putRegion q sl { z with rollWait := none }).wakeRegion q sl).finT t (BitVec.ofNat 6 d) 0).pokeCtx q) :=
      (State.finT_keepsSaved ..).regions.trans (State.pokeCtx_keepsSaved _ q).regions
    rw [hkeep.region]
    exact hput s { z with rollWait := none } hend
  next => exact hput s z hend

end

theorem State.site_of_unitAt {s : State} {i q sl : Nat} {r : Region} {x : Site} (h : s.unitAt i = some (q, sl, r, x)) :
    r.site i = x := by
  unfold State.unitAt at h
  split at h
  · exact absurd h nofun
  · dsimp only at h
    split at h
    · cases h
      rfl
    · exact absurd h nofun

/-- The region once site `i` and its generators that are due have swapped (R185). -/
def Region.swapped (r : Region) (i : Nat) : Region :=
  let due (k : Nat) : Bool := (r.gen k).rolled && (r.gen k).shadow.isSome && (r.gen k).inbox.isEmpty
  (((List.range 4).map (4 * i + ·)).filter due).foldl (fun (z : Region) k => (z.setGen k (z.gen k).swap).swapWins k)
    ((r.setSite i (swapSite (r.site i) true)).swapCopies i)

theorem Region.swapped_runs {r : Region} {i : Nat} {c : SiteCfg} (h : (r.site i).shadow = some c) :
    ((r.swapped i).site i).Runs c := by
  have hswap : (((r.setSite i (swapSite (r.site i) true)).swapCopies i).site i).Runs c := by
    refine Region.swapCopies_runs ?_ i
    rw [Region.site_setSite]
    exact swapSite_runs h true
  exact List.foldlRecOn (motive := fun z : Region => (z.site i).Runs c) _ _ hswap fun _ hz _ _ => hz

theorem siteSwap_swaps {s : State} {i q sl : Nat} {r : Region} {x : Site} {c : SiteCfg}
    (h : s.unitAt i = some (q, sl, r, x)) (hr : x.rolled = true) (hc : x.shadow = some c) (he : x.res = []) :
    Completes (.siteSwap i) s (fun t =>
      ((t.region q sl).site i).cfg = c ∧ ((t.region q sl).site i).shadow = none) := by
  have hsite := State.site_of_unitAt h
  have hdue : (x.rolled && x.shadow.isSome && x.res.isEmpty) = true := by rw [hr, hc, he]; rfl
  have hx : exec (.siteSwap i) s = .next (s.afterSwap q sl (r.swapped i)) := by
    show execSiteSwap i s = _
    unfold execSiteSwap Region.swapped
    rw [h, hsite]
    simp only [hdue, Bool.not_true, Bool.false_and, Bool.false_eq_true, if_false, if_true]
  exact completes_of_next hx (State.afterSwap_runs (Region.swapped_runs (by rw [hsite, hc])) s q sl)

end Sys2Proof.Machine
end

section
/-!
SUPPORT. A region that a fault stops: the fault is told (R147), the clock stops (R261, R264), a PAGE fault's region is
scanned out and placed again (R265).
-/

namespace Sys2Proof.Machine

open Sys2Proof

/-! ## A fault (R147) -/

theorem fabricFault_marks {s : State} {i q sl code : Nat} (h : s.regionAt i = some (q, sl, s.region q sl))
    (hc : ((s.region q sl).site i).flt.code = code) (ht : ((s.region q sl).site i).flt.told = false) :
    Completes (.fabricFault i code) s (fun t => (t.region q sl).faulted = true ∧
      (t.region q sl).fcode = (if (s.region q sl).fcode = 0 then code else (s.region q sl).fcode) ∧
        .regionClockStop q sl ∈ t.agenda) := by
  have hx : exec (.fabricFault i code) s = .next ((s.setRegion q sl { s.region q sl with
      faulted := true, fcode := if (s.region q sl).fcode = 0 then code else (s.region q sl).fcode }).poke
        (.regionClockStop q sl)) := by
    show execFabricFault i code s = _
    unfold execFabricFault
    rw [h]
    simp only [hc, ht, beq_self_eq_true, Bool.not_false, Bool.and_self, Bool.true_or, if_true]
  refine completes_of_next hx ⟨?_, ?_, State.mem_agenda_poke ..⟩
  · rw [(State.poke_keepsRegions ..).region, State.region_setRegion]
  · rw [(State.poke_keepsRegions ..).region, State.region_setRegion]

/-! ## The clock's stop (R261, R264) -/

/-- The region as its fault stops it: its first code is kept. -/
def Region.stoppedBy (r : Region) (first : Nat) : Region :=
  { r with clock := if r.clock = 0 then 1 else r.clock, faulted := true, fcode := if r.fcode = 0 then first else r.fcode }

/-- The first code among the faults that are due. -/
def State.firstDue (s : State) (r : Region) : Nat := ((s.dueFaults r).head?.map (fun e => e.2.2.1.code)).getD 0

/-- Every fault that is due is PAGE, and one is. -/
def State.pageDue (s : State) (r : Region) : Bool :=
  (s.dueFaults r).any (fun e => e.2.2.1.code == 10) && (s.dueFaults r).all (fun e => e.2.2.1.code == 10)

/-- The clock has stopped. -/
def State.clockStopped (s : State) (q sl : Nat) : State :=
  s.setRegion q sl ((s.region q sl).stoppedBy (s.firstDue (s.region q sl)))

/-- The region's due records are written, and its units have told their faults. -/
def State.faultsTold (s : State) (q sl : Nat) (r : Region) (flags : Nat → Nat) : State :=
  (s.writeFaults q sl r flags).setRegion q sl ((s.writeFaults q sl r flags).region q sl).tellAll

theorem State.faultsTold_region (s : State) (q sl : Nat) (r : Region) (flags : Nat → Nat) :
    (s.faultsTold q sl r flags).region q sl = (s.region q sl).tellAll := by
  unfold State.faultsTold
  rw [State.region_setRegion, (s.writeFaults_keepsSaved q sl r flags).regions.region]

section
variable {s : State} {q sl : Nat} (hd : s.dueFaults (s.region q sl) ≠ []) (ho : (s.region q sl).onFab = true)

theorem State.pageDue_iff (hd : s.dueFaults (s.region q sl) ≠ []) :
    s.pageDue (s.region q sl) = true ↔ ∀ e ∈ s.dueFaults (s.region q sl), e.2.2.1.code = 10 := by
  obtain ⟨e, r, her⟩ := List.exists_cons_of_ne_nil hd
  simp only [State.pageDue, her, List.any_cons, List.all_cons, Bool.and_eq_true, Bool.or_eq_true, beq_iff_eq,
    List.all_eq_true, List.forall_mem_cons]
  exact ⟨fun h => h.2, fun h => ⟨.inl h.1, h⟩⟩

include hd ho

theorem regionClockStop_stops : exec (.regionClockStop q sl) s = .next (
    let r := s.region q sl
    let t := s.clockStopped q sl
    let room := (t.saveRoom q r).isSome
    if s.pageDue r && room && r.clock == 0 then
      (t.setRegion q sl { t.region q sl with clock := 2 }).post (.fabricPageFaultScanout q sl)
    else t.faultsTold q sl r (fun c => if c = 10 ∧ !room then 4 else 0)) := by
  show execRegionClockStop q sl s = _
  unfold execRegionClockStop State.clockStopped State.firstDue State.pageDue
  dsimp only
  split
  next h => exact absurd h hd
  next =>
    rw [if_neg (by rw [ho]; decide)]
    rfl

/-- Where no scan-out follows, the clock is stopped and the records are written. -/
theorem regionClockStop_freezes
    (hs : (s.pageDue (s.region q sl) && (s.saveRoom q (s.region q sl)).isSome && (s.region q sl).clock == 0) = false) :
    Completes (.regionClockStop q sl) s (fun t =>
      (t.region q sl).clock = (if (s.region q sl).clock = 0 then 1 else (s.region q sl).clock)) := by
  refine completes_of_next ((regionClockStop_stops hd ho).trans (congrArg Host.Outcome.next
    (if_neg (Bool.eq_false_iff.1 hs)))) ?_
  rw [State.faultsTold_region]
  unfold State.clockStopped
  rw [State.region_setRegion]
  rfl

/-- A PAGE fault with room in the save area is scanned out (R264). -/
theorem regionClockStop_scansOut
    (hs : (s.pageDue (s.region q sl) && (s.saveRoom q (s.region q sl)).isSome && (s.region q sl).clock == 0) = true) :
    Completes (.regionClockStop q sl) s (fun t =>
      (t.region q sl).clock = 2 ∧ .fabricPageFaultScanout q sl ∈ t.agenda) := by
  refine completes_of_next ((regionClockStop_stops hd ho).trans (congrArg Host.Outcome.next (if_pos hs))) ⟨?_, ?_⟩
  · exact congrArg Region.clock (State.region_setRegion ..)
  · exact List.mem_append_right _ List.mem_cons_self

end

/-! ## Requests that land before a scan-out (R265) -/

section
variable (s : State) (q sl i : Nat)

theorem State.putSite_prts (r : Region) (x : Site) : (s.putSite q sl i r x).prts = s.prts := (s.putSite_wakes ..).prts

theorem State.putGen_prts (key : Nat) (r : Region) (g : Gen) : (s.putGen q sl key r g).prts = s.prts :=
  (s.putGen_wakes ..).prts

theorem State.fillLine_wakes (k : Nat) : WakesOnly s (s.fillLine q sl i k) := by
  unfold State.fillLine
  dsimp only
  split
  · exact .refl s
  · split
    · split
      · exact s.putSite_wakes ..
      · exact (s.putSite_wakes ..).trans (State.wakeRegion_wakes ..)
    · exact s.putSite_wakes ..

theorem State.fillLines_wakes (p : Nat → Bool) (n : Nat) : WakesOnly s (s.fillLines q sl i p n) := by
  induction n generalizing s with
  | zero => exact .refl s
  | succ n ih =>
    unfold State.fillLines
    split
    · exact .refl s
    · exact (s.fillLine_wakes q sl i _).trans (ih _)

theorem State.refillAt_prts (n : Nat) : (s.refillAt q sl i n).prts = s.prts := by
  have hports (t : State) : t.refillPorts.prts = t.prts := rfl
  unfold State.refillAt
  extract_lets r x g
  rcases hdraw : s.draw with ⟨w, t⟩
  have ht : t.prts = s.prts := by
    rw [State.draw, Prod.mk.injEq] at hdraw
    rw [← hdraw.2]
  dsimp -zeta only
  extract_lets u v c v'
  have hv : v.prts = s.prts := ht
  rw [hports]
  split
  · split
    · split
      · exact (v'.putSite_prts ..).trans hv
      · exact (v'.putSite_prts ..).trans hv
    · exact ht
  · split
    · split
      · exact (v'.putGen_prts ..).trans hv
      · exact (v'.putGen_prts ..).trans hv
    · exact ht

theorem State.landRequests_prts : (s.landRequests q sl).prts = s.prts := by
  unfold State.landRequests
  extract_lets r t
  have htrans {a b c : State} (h : b.prts = a.prts) (k : c.prts = b.prts) : c.prts = a.prts := k.trans h
  have ht : t.prts = s.prts := by
    refine foldl_related (R := fun a b : State => b.prts = a.prts) (fun _ => rfl) htrans (fun a e => ?_) _ s
    have hfill := (a.fillLines_wakes q sl e.1 (fun _ => true) e.2.miss.length).prts
    dsimp only
    split
    · exact (State.refillAt_prts ..).trans hfill
    · exact hfill
  refine Eq.trans (foldl_related (R := fun a b : State => b.prts = a.prts) (fun _ => rfl) htrans (fun a e => ?_) _ t) ht
  split
  · exact State.refillAt_prts ..
  · rfl

end

/-! ## The scan-out and the reload (R265) -/

section
variable {s : State} {q sl : Nat}

/-- Every request of the region has replied: it goes to the save area at `off`, its records written with SAVED. -/
def State.scanOut (s : State) (q sl off : Nat) : State :=
  let r := s.region q sl
  let s := s.writeFaults q sl r (fun _ => 2)
  let s := s.setPrt q { s.prt q with saved := (s.prt q).saved ++ [(sl, off, r.blocks.length * saveBlock)] }
  let (cells, full) := s.tileCells q r
  (s.setRegion q sl { (s.region q sl).tellAll with savedAt := some off, tileMem := cells, tileFull := full }).pokeSites q
    |>.pokeCtx q |>.regionPorts q sl 3 r |>.writeSaved q off (r.blocks.length * saveBlock)

/-- The last to change the region and the save area's list is the region's own record. -/
theorem State.scanOut_keepsSaved (s : State) (q sl off : Nat) : ∃ (t : State) (r : Region),
    KeepsSaved (t.setRegion q sl { r with savedAt := some off }) (s.scanOut q sl off) ∧
      (t.prt q).saved = (s.prt q).saved ++ [(sl, off, (s.region q sl).blocks.length * saveBlock)] := by
  have hsaved := (s.writeFaults_keepsSaved q sl (s.region q sl) (fun _ => 2)).saved q
  unfold State.scanOut
  extract_lets r t p u
  split
  next cells full _ =>
    refine ⟨u, { (u.region q sl).tellAll with tileMem := cells, tileFull := full }, ?_, ?_⟩
    · exact (((State.pokeSites_keepsSaved _ q).trans (State.pokeCtx_keepsSaved _ q)).trans
        (State.regionPorts_only _ q sl 3 r).keepsSaved).trans (State.writeSaved_keepsSaved _ q off _)
    · rw [← hsaved]
      exact congrArg Prt.saved (State.prt_setPrt ..)

theorem fabricPageFaultScanout_saves {off : Nat} (hc : (s.region q sl).clock = 2) (hn : (s.region q sl).savedAt = none)
    (hr : (s.landRequests q sl).saveRoom q ((s.landRequests q sl).region q sl) = some off) :
    Completes (.fabricPageFaultScanout q sl) s (fun t => (t.region q sl).savedAt = some off ∧
      (t.prt q).saved = (s.prt q).saved ++
        [(sl, off, ((s.landRequests q sl).region q sl).blocks.length * saveBlock)]) := by
  have hgo : ¬((s.region q sl).clock ≠ 2 ∨ (s.region q sl).savedAt.isSome = true) := by simp [hc, hn]
  have hx : exec (.fabricPageFaultScanout q sl) s = .next ((s.landRequests q sl).scanOut q sl off) := by
    refine congrArg Host.Outcome.next ((if_neg hgo).trans ?_)
    simp only [hr, State.scanOut]
  obtain ⟨t, r, hkeep, hsaved⟩ := (s.landRequests q sl).scanOut_keepsSaved q sl off
  refine completes_of_next hx ⟨?_, ?_⟩
  · rw [hkeep.regions.region, State.region_setRegion]
  · refine (hkeep.saved q).trans (Eq.trans hsaved ?_)
    unfold State.prt
    rw [State.landRequests_prts]

end

end Sys2Proof.Machine
end

section
/-!
SUPPORT. A region that was scanned out is placed again where it was (R265).
-/

namespace Sys2Proof.Machine

open Sys2Proof

section
variable (s : State) (q sl : Nat)

theorem State.moveNames_keepsSaved (r : Region) (x y : Nat) : KeepsSaved s (s.moveNames q sl r x y) :=
  ⟨rfl, fun u => Tbl.look_map_field (g := Prt.saved) s.prts u fun _ => ⟨rfl, rfl⟩⟩

theorem State.putTiles_keepsSaved (r : Region) (cells : List Host.Cell) (full : Tbl FullBit) :
    KeepsSaved s (s.putTiles q r cells full) := by
  unfold State.putTiles
  extract_lets sh t addr
  have ht : KeepsSaved s t := by
    refine .foldl (fun u a => ?_) _ _
    exact .of_prts rfl rfl
  exact ht.trans (.of_prts rfl rfl)

/-- The region that is placed at its old rectangle: its units retry, and nothing of it is saved. -/
def State.replaced (r : Region) : Region :=
  { s.repatch q ((r.movedTo r.x r.y).retry) with savedAt := none, reload := false, tileMem := [], tileFull := [] }

/-- The region is placed at its old rectangle, its save space is free, and its ports show it. -/
def State.replacedAt : State :=
  let r := s.region q sl
  let n := s.replaced q r
  let t := s.moveNames q sl r r.x r.y
  let t := t.setPrt q { t.prt q with saved := (t.prt q).saved.filter (fun e => e.1 != sl) }
  ((t.setRegion q sl n).putTiles q n r.tileMem r.tileFull).regionPorts q sl 4 n

theorem State.replacedAt_region : (s.replacedAt q sl).region q sl = s.replaced q (s.region q sl) := by
  unfold State.replacedAt
  extract_lets r n t u
  rw [((State.putTiles_keepsSaved ..).trans (State.regionPorts_only ..).keepsSaved).regions.region,
    State.region_setRegion]

theorem State.replacedAt_saved :
    ((s.replacedAt q sl).prt q).saved = (s.prt q).saved.filter (fun e => e.1 != sl) := by
  unfold State.replacedAt
  extract_lets r n t u
  rw [((State.putTiles_keepsSaved ..).trans (State.regionPorts_only ..).keepsSaved).saved q]
  refine (congrArg Prt.saved (State.prt_setPrt ..)).trans ?_
  dsimp only
  rw [(s.moveNames_keepsSaved ..).saved]

end

section
variable {s : State} {q sl : Nat}

theorem regionReload_places (hr : (s.region q sl).reload = true) (hs : (s.region q sl).savedAt.isSome = true)
    (ha : s.active q (s.region q sl).ctx = true) (hp : s.prtRuns (some q) = true)
    (hl : ((s.prt q).launchRun.look {} sl).anyplace = false)
    (hf : s.targetFree q sl (s.region q sl).ctx (s.region q sl).rect = true) :
    Completes (.regionReload q sl) s (fun t => (t.region q sl).savedAt = none ∧ (t.region q sl).clock = 0 ∧
      (t.region q sl).faulted = false ∧ (t.prt q).saved = (s.prt q).saved.filter (fun e => e.1 != sl)) := by
  have hgo : ¬((!(s.region q sl).reload) = true ∨ (s.region q sl).savedAt.isNone = true ∨
      (!s.active q (s.region q sl).ctx) = true ∨ (!s.prtRuns (some q)) = true) := by
    simp [hr, ha, hp, Option.isSome_iff_ne_none.1 hs]
  have hx : exec (.regionReload q sl) s = .next ((s.replacedAt q sl).wakeRegion q sl) := by
    refine congrArg Host.Outcome.next ((if_neg hgo).trans ?_)
    simp only [hl, hf, Bool.false_eq_true, false_and, and_self, if_false, if_true, State.replacedAt, State.replaced]
  have hkeep {β : Type} (f : Region → β) (h : ∀ z sites gens, f { z with sites := sites, gens := gens } = f z) :
      f (((s.replacedAt q sl).wakeRegion q sl).region q sl) = f (s.replaced q (s.region q sl)) := by
    rw [State.wakeRegion_keeps _ q sl f h, State.replacedAt_region]
  refine completes_of_next hx ⟨hkeep Region.savedAt fun _ _ _ => rfl, hkeep Region.clock fun _ _ _ => rfl,
    hkeep Region.faulted fun _ _ _ => rfl, ?_⟩
  unfold State.prt
  rw [(State.wakeRegion_wakes ..).prts]
  exact s.replacedAt_saved q sl

end

end Sys2Proof.Machine
end

section
open Sys2Proof Sys2Proof.Machine

/-- Settles O54: each clause is the theorem about its own event. -/
theorem fabricRegions : Obligations.FabricRegions := by
  intro s q sl r after ends landed
  refine ⟨fun w => ⟨windowPublish_counts, windowPublish_ignored⟩, fun hruns => ?sweep, fun p l tt d hl => ?load,
    fun hfab harm hidle hact hrun => ⟨?scheduled, fun tt d => ?started⟩, fun i x c => siteSwap_swaps,
    fun m f hm hflt hroll hroom => ?tile, fun i code => fabricFault_marks, fun hdue hfab => ?clock,
    fun off => fabricPageFaultScanout_saves, regionReload_places⟩
  case sweep =>
    intro quiet swept
    refine ⟨?_, ?_, hushSweep_endq hruns, hushSweep_active hruns, hushSweep_idle hruns, hushStall_stalls hruns,
      hushStall_ignored⟩
    · rintro ⟨htok, hreq, hself, hend⟩
      exact hushSweep_quiescent hruns htok hreq hself hend
    · rintro ⟨htok, hreq, hself, hend⟩
      exact hushSweep_done hruns htok hreq hself hend
  case load => exact configLoadComplete_status hl
  case scheduled => exact regionArm_scheduled hfab harm hidle hact hrun
  case started => exact regionArm_answers hfab harm hidle hact hrun
  case tile =>
    intro e emits
    have hemits {tok : Token} (h : ∃ f', exec (.matrixTileEmit m) s = .next (s.tileEmits q sl m r f' tok)) : emits tok := by
      obtain ⟨f', hx⟩ := h
      exact completes_of_next hx (s.tileEmits_gets q sl m r f' tok)
    refine ⟨fun hs => hemits (matrixTileEmit_done hm hflt hroll hroom hs), fun i j hi => ⟨fun hs => ?_, fun hs => ?_,
      fun g hs hg => ?_⟩⟩
    · exact hemits (matrixTileEmit_rowStop hm hflt hroll hroom hi hs)
    · exact hemits (matrixTileEmit_tileStop hm hflt hroll hroom hi hs)
    · exact hemits (matrixTileEmit_value hm hflt hroll hroom hi hs hg)
  case clock =>
    intro pages
    have hpages : s.pageDue r = true ↔ pages := State.pageDue_iff hdue
    refine ⟨fun hp => regionClockStop_freezes hdue hfab ?_, fun hp hc hroom => regionClockStop_scansOut hdue hfab ?_,
      fun hp hc hroom => ?_⟩
    · rw [Bool.eq_false_iff.2 (mt hpages.1 hp), Bool.false_and, Bool.false_and]
    · rw [hpages.2 hp, hroom, hc]
      rfl
    · have hfrozen := regionClockStop_freezes hdue hfab (by rw [hroom, Option.isSome_none, Bool.and_false, Bool.false_and])
      rwa [if_pos hc] at hfrozen

end

section
/-!
SUPPORT. A core's turn (R190 to R192, R202): what a fetch leaves alone, and the word that a line's homes hold.
-/

namespace Sys2Proof.Machine

open Sys2Proof

theorem State.clu_of_clusters {s t : State} (h : t.clusters = s.clusters) (m : Nat) : t.clu m = s.clu m := by
  unfold State.clu
  rw [h]

/-! ## The order of a core's TLB (R245) -/

/-- `t` differs from `s` in the TLB of core `c` only. -/
structure TlbOnly (c : Nat) (s t : State) : Prop where
  rest : { t with cores := s.cores } = s
  others : ∀ k, k ≠ c → t.core k = s.core k
  tlb : { t.core c with tlb := (s.core c).tlb } = s.core c

namespace TlbOnly

theorem refl (c : Nat) (s : State) : TlbOnly c s s := ⟨rfl, fun _ _ => rfl, rfl⟩

theorem trans {c : Nat} {s t u : State} (h : TlbOnly c s t) (k : TlbOnly c t u) : TlbOnly c s u where
  rest := by rw [← h.rest, ← k.rest]
  others i hi := (k.others i hi).trans (h.others i hi)
  tlb := by rw [← h.tlb, ← k.tlb]

section
variable {c : Nat} {s t : State} (h : TlbOnly c s t)
include h

theorem tid : t.tid = s.tid := by
  rw [← h.rest]
theorem clusters : t.clusters = s.clusters := by
  rw [← h.rest]
theorem copies : t.copies = s.copies := by
  rw [← h.rest]
theorem mem : t.mem = s.mem := by
  rw [← h.rest]
theorem l2 : t.l2 = s.l2 := by
  rw [← h.rest]
theorem prts : t.prts = s.prts := by
  rw [← h.rest]
theorem resize : t.resize = s.resize := by
  rw [← h.rest]

theorem clu (m : Nat) : t.clu m = s.clu m := State.clu_of_clusters h.clusters m

theorem readHome (a n : Nat) : t.readHome a n = s.readHome a n := State.readHome_of_mem h.mem a n

theorem lineHomes (p : Part) : t.lineHomes p = s.lineHomes p := by
  unfold State.lineHomes
  rw [State.memHome_congr h.prts h.resize]

end

end TlbOnly

theorem Core.tlbTouch_tlb (k : Core) (slot : Nat) (asid : W16) (va : Nat) :
    { k.tlbTouch slot asid va with tlb := k.tlb } = k := by
  unfold Core.tlbTouch
  split <;> rfl

theorem State.touch_tlbOnly (s : State) (t va n : Nat) : TlbOnly (t / 16) s (s.touch t va n) := by
  unfold State.touch
  refine foldl_related (.refl _) .trans (fun s p => ⟨rfl, fun k hk => s.core_setCore_ne _ _ _ hk, ?_⟩) _ s
  rw [s.core_setCore]
  exact Core.tlbTouch_tlb ..

/-! ## Grain units that a home of one die takes (R224) -/

/-- `t` differs from `s` in the L2, which has lost blocks and copies and gained blocks of die `d` that `B` admits,
in the count of lines moved in a rehash and in the counter of free choices only. -/
structure Takes (d : Nat) (B : Nat → Prop) (s t : State) : Prop where
  rest : { t with copies := s.copies, l2 := s.l2, l2used := s.l2used, fresh := s.fresh, resize := s.resize } = s
  copies : ∀ c ∈ t.copies, c ∈ s.copies
  blocks : ∀ y ∈ t.l2, (∃ x ∈ s.l2, y.die = x.die ∧ y.blk = x.blk) ∨ (y.die = d ∧ B y.blk)
  moves : ∃ n, t.resize = s.resize.map (fun z => { z with moved := n })

/-- The count of lines a running rehash has moved. -/
def State.moved (s : State) : Nat := (s.resize.map (·.moved)).getD 0

theorem State.resize_moved (s : State) : s.resize = s.resize.map (fun z => { z with moved := s.moved }) := by
  unfold State.moved
  cases s.resize <;> rfl

section
variable {d : Nat} {B : Nat → Prop} {s t u : State}

namespace Takes

theorem refl (s : State) : Takes d B s s :=
  ⟨rfl, fun _ h => h, fun y hy => .inl ⟨y, hy, rfl, rfl⟩, s.moved, s.resize_moved⟩

theorem trans (h : Takes d B s t) (k : Takes d B t u) : Takes d B s u where
  rest := by rw [← h.rest, ← k.rest]
  copies c hc := h.copies c (k.copies c hc)
  blocks y hy := by
    obtain ⟨x, hx, hdie, hblk⟩ | hnew := k.blocks y hy
    · rw [hdie, hblk]
      exact h.blocks x hx
    · exact .inr hnew
  moves := by
    obtain ⟨n, hn⟩ := h.moves
    obtain ⟨i, hi⟩ := k.moves
    refine ⟨i, ?_⟩
    rw [hi, hn, Option.map_map]
    rfl

theorem clusters (h : Takes d B s t) : t.clusters = s.clusters := by
  rw [← h.rest]

theorem foldl {β : Type} {f : State → β → State} {l : List β} (hf : ∀ s, ∀ b ∈ l, Takes d B s (f s b)) (s : State) :
    Takes d B s (l.foldl f s) :=
  l.foldlRecOn f (refl s) (fun t h b hb => h.trans (hf t b hb))

end Takes

theorem State.makeRoom_takes (s : State) (slice blk : Nat) : Takes d B s (s.makeRoom slice blk) := by
  unfold State.makeRoom
  dsimp only
  split
  · exact .refl s
  · split
    · exact .refl s
    · exact ⟨rfl, fun c hc => (List.mem_filter.1 hc).1, fun y hy => .inl ⟨y, (List.mem_filter.1 hy).1, rfl, rfl⟩,
        s.moved, s.resize_moved⟩

theorem State.findBlock_takes (s : State) (d' blk : Nat) : Takes d B s (s.findBlock d' blk) := by
  unfold State.findBlock
  split
  · exact .refl s
  · next x hx =>
    extract_lets sl t
    split
    · exact .refl s
    · refine (s.makeRoom_takes sl blk).trans ⟨rfl, fun _ h => h, fun y hy => ?_, ?_⟩
      · obtain ⟨z, hz, rfl⟩ := List.mem_map.1 hy
        refine .inl ⟨z, hz, ?_⟩
        split
        · next h => exact h ▸ ⟨rfl, rfl⟩
        · exact ⟨rfl, rfl⟩
      · cases hr : t.resize with
        | none => exact ⟨0, rfl⟩
        | some z =>
          refine ⟨if z.prt = x.prt then z.moved + 1 else z.moved, ?_⟩
          simp only [Option.map_some]
          split <;> rfl

theorem State.takeUnit_takes (s : State) {d q grain a : Nat} {hc : Bool} (hB : B (a / 512)) :
    Takes d B s (s.takeUnit d q grain hc false a) := by
  unfold State.takeUnit
  extract_lets blk u t sl t' t''
  have ht : Takes d B s t := s.findBlock_takes ..
  have hroom : Takes d B t t' := t.makeRoom_takes ..
  have ht'' : Takes d B t t'' := by
    unfold t''
    split
    · exact .refl t
    · refine hroom.trans ⟨rfl, fun _ h => h, fun y hy => ?_, t'.moved, t'.resize_moved⟩
      rcases List.mem_append.1 hy with hy | hy
      · exact .inl ⟨y, hy, rfl, rfl⟩
      · obtain rfl := List.mem_singleton.1 hy
        exact .inr ⟨rfl, hB⟩
  refine (ht.trans ht'').trans ⟨rfl, fun _ h => h, fun y hy => ?_, t''.moved, t''.resize_moved⟩
  obtain ⟨z, hz, rfl⟩ := List.mem_map.1 hy
  refine .inl ⟨z, hz, ?_⟩
  split
  · exact ⟨rfl, rfl⟩
  · split <;> exact ⟨rfl, rfl⟩

end

/-- The blocks that the line of a part may bring. -/
def State.lineBlocks (s : State) (p : Part) (b : Nat) : Prop := ∃ h ∈ s.lineHomes p, b = h / 512 ∨ b = (h + 32) / 512

theorem State.lineTook_takes (s : State) (m : Nat) (p : Part) :
    Takes (clusterDie m) (s.lineBlocks p) s (s.lineTook m p) := by
  unfold State.lineTook
  split
  · refine .foldl (fun t h hh => .foldl (fun t k hk => t.takeUnit_takes ⟨h, hh, ?_⟩) t) s
    simp only [List.mem_cons, List.not_mem_nil, or_false] at hk
    rcases hk with rfl | rfl
    · exact .inl rfl
    · exact .inr rfl
  · exact .refl s

/-! ## What a fetch leaves alone -/

/-- `t` differs from `s` in the instruction cache of cluster `m` only. -/
structure IcacheOnly (m : Nat) (s t : State) : Prop where
  rest : { t with clusters := s.clusters } = s
  others : ∀ k, k ≠ m → t.clu k = s.clu k
  icache : { t.clu m with icache := (s.clu m).icache } = s.clu m

theorem IcacheOnly.refl (m : Nat) (s : State) : IcacheOnly m s s := ⟨rfl, fun _ _ => rfl, rfl⟩

theorem State.icFill_icacheOnly {s : State} {m : Nat} {c : Cluster} (h : s.clu m = c) (l : IcLine) :
    IcacheOnly m s (s.setClu m (c.icFill l)) := by
  refine ⟨rfl, fun k hk => s.clu_setClu_ne _ _ _ hk, ?_⟩
  rw [s.clu_setClu, h]
  rfl

/-- The three parts of a fetch: the order of the TLB, the grain units that the home takes, the line that the
instruction cache gains. -/
theorem Fetches.of_parts {s t u v : State} {p : Part} (h : TlbOnly (s.tid / 16) s t)
    (k : Takes (clusterDie (s.tid / 128)) (s.lineBlocks p) t u) (l : IcacheOnly (s.tid / 128) u v) : Fetches s v p := by
  have hcores : v.cores = t.cores := by rw [← k.rest, ← l.rest]
  have hclu : u.clusters = s.clusters := by rw [← h.rest, ← k.rest]
  have hcore (c : Nat) : v.core c = t.core c := by unfold State.core; rw [hcores]
  have hc := State.clu_of_clusters hclu
  have hresize : v.resize = u.resize := by rw [← l.rest]
  have hcopies : v.copies = u.copies := by rw [← l.rest]
  have hl2 : v.l2 = u.l2 := by rw [← l.rest]
  refine { rest := ?_, cores := fun c => ?_, core := fun c hne => ?_, clusters := fun m => ?_, cluster := fun m hne => ?_,
           copies := fun c hv => ?_, blocks := fun y hy => ?_, moves := ?_ }
  · rw [← h.rest, ← k.rest, ← l.rest]
  · rw [hcore]
    by_cases hne : c = s.tid / 16
    · exact hne ▸ h.tlb
    · rw [h.others c hne]
  · rw [hcore, h.others c hne]
  · rw [← hc m]
    by_cases hne : m = s.tid / 128
    · exact hne ▸ l.icache
    · rw [l.others m hne]
  · rw [l.others m hne, hc]
  · rw [← h.copies]
    exact k.copies c (hcopies ▸ hv)
  · rw [← h.l2]
    exact k.blocks y (hl2 ▸ hy)
  · obtain ⟨n, hn⟩ := k.moves
    refine ⟨n, ?_⟩
    rw [hresize, hn, h.resize]

/-! ## A word of a line (R4, R202) -/

theorem lane_ofLanes (w : Nat) (l : List Nat) (i : Nat) : lane w (ofLanes w l) i = l.getD i 0 % 2 ^ w := by
  have hw : 0 < 2 ^ w := Nat.two_pow_pos w
  unfold lane
  induction l generalizing i with
  | nil => simp [ofLanes]
  | cons x r ih =>
    cases i with
    | zero => simp [ofLanes]
    | succ i =>
      have hdiv : (x % 2 ^ w + 2 ^ w * ofLanes w r) / 2 ^ w = ofLanes w r := by
        rw [Nat.add_mul_div_left _ _ hw, Nat.div_eq_of_lt (Nat.mod_lt _ hw), Nat.zero_add]
      rw [ofLanes, Nat.mul_succ, Nat.add_comm (w * i), Nat.pow_add, ← Nat.div_div_eq_div_mul, hdiv, ih, List.getD_cons_succ]

/-- A lane of a wider lane. -/
theorem lane_lane {w v k : Nat} (x i : Nat) {j : Nat} (hw : w = v * k) (hj : j < k) :
    lane v (lane w x i) j = lane v x (k * i + j) := by
  subst hw
  unfold lane
  obtain ⟨r, rfl⟩ : ∃ r, k = j + 1 + r := ⟨k - (j + 1), by omega⟩
  have e : v * (j + 1 + r) = v * j + v * (1 + r) := by ring
  have e' : v * ((j + 1 + r) * i + j) = v * (j + 1 + r) * i + v * j := by ring
  rw [e', Nat.pow_add 2 (v * (j + 1 + r) * i), ← Nat.div_div_eq_div_mul]
  generalize x / 2 ^ (v * (j + 1 + r) * i) = y
  rw [e, Nat.pow_add, Nat.mod_mul_right_div_self, show v * (1 + r) = v + v * r by ring, Nat.pow_add,
    Nat.mod_mul_right_mod]

theorem ofNat_lane (w x i : Nat) : BitVec.ofNat w (x / 2 ^ (w * i)) = BitVec.ofNat w (lane w x i) := by
  apply BitVec.eq_of_toNat_eq
  simp only [lane, BitVec.toNat_ofNat, Nat.mod_mod]

/-- The low bits alone, of `k` lanes, count for the first `k` lanes. -/
theorem lane_mod {w v k : Nat} (x : Nat) {j : Nat} (hw : w = v * k) (hj : j < k) : lane v (x % 2 ^ w) j = lane v x j := by
  have h0 : lane w x 0 = x % 2 ^ w := by simp [lane]
  rw [← h0, lane_lane x 0 hw hj, Nat.mul_zero, Nat.zero_add]

section
variable {s : State}

theorem State.readHome_add (a m n : Nat) : s.readHome a (m + n) = s.readHome a m + 256 ^ m * s.readHome (a + m) n := by
  unfold State.readHome
  rw [Memory.readList_eq_map, ← List.range'_append_1, List.map_append, leNat_append, List.length_map, List.length_range',
    Memory.readList_eq_map, Memory.readList_eq_map]

theorem State.readHome_lt (a n : Nat) : s.readHome a n < 256 ^ n := by
  have h := leNat_lt (Memory.readList s.mem a n)
  rwa [Memory.readList_length] at h

/-- The half of a word. -/
theorem State.lane_readHome (a : Nat) {c : Nat} (hc : c < 2) : lane 32 (s.readHome a 8) c = s.readHome (a + 4 * c) 4 := by
  have hlow : s.readHome a 4 < 2 ^ 32 := s.readHome_lt a 4
  have hhigh : s.readHome (a + 4) 4 < 2 ^ 32 := s.readHome_lt (a + 4) 4
  have e : s.readHome a 8 = s.readHome a 4 + 2 ^ 32 * s.readHome (a + 4) 4 := s.readHome_add a 4 4
  unfold lane
  interval_cases c
  · rw [e]; simp only [Nat.mul_zero, Nat.pow_zero, Nat.div_one, Nat.add_zero]; omega
  · rw [e]; simp only [Nat.mul_one]; omega

/-- A die whose home has no other copy of the word serves what memory holds (R224). -/
theorem State.dieWord_of_current {d w : Nat}
    (h : ∀ x ∈ s.copies, x.addr = w → x.level = dieLevel d → x.val.toNat = s.readHome x.addr 8) :
    (s.dieWord d w).toNat = s.readHome w 8 := by
  unfold State.dieWord
  split
  · next c hc =>
    have hat := List.find?_some hc
    simp only [Bool.and_eq_true, beq_iff_eq] at hat
    rw [h c (List.mem_of_find?_eq_some hc) hat.2 hat.1, hat.2]
  · have hlt : s.readHome w 8 < 2 ^ 64 := s.readHome_lt w 8
    rw [BitVec.toNat_ofNat, Nat.mod_eq_of_lt hlt]

theorem State.lane_readWords {a i : Nat} (m : Nat) (ha : a % 8 = 0) (hi : i < 8) :
    lane 64 (s.readWords m false a 64) i = (s.dieWord (clusterDie m) (a + 8 * i)).toNat := by
  have hw : wordsOf a 64 = (List.range 8).map (fun i => 8 * (a / 8 + i)) := by
    unfold wordsOf
    rw [ha]
  have e : 8 * (a / 8 + i) = a + 8 * i := by omega
  have hbytes : (256 : Nat) ^ 64 = 2 ^ (64 * 8) := (Nat.pow_mul 2 8 64).symm
  unfold State.readWords
  dsimp only
  rw [hw, ha, Nat.pow_zero, Nat.div_one, hbytes, lane_mod _ rfl hi, lane_ofLanes, List.map_map, List.getD_eq_getElem _ _ (by simpa using hi), List.getElem_map, List.getElem_range]
  simp only [Function.comp_apply, Bool.false_eq_true, if_false, e]
  exact Nat.mod_eq_of_lt (BitVec.isLt _)

/-- The word of a part that its line holds is the one at its home, unless the die's home has a stale copy of it. -/
theorem State.word_lineData {m : Nat} {p : Part} (hal : p.pa % 4 = 0)
    (hh : s.lineHomes p = [p.pa / 128 * 128, p.pa / 128 * 128 + 64])
    (hcur : ∀ x ∈ s.copies, x.addr = p.pa / 8 * 8 → x.level = dieLevel (clusterDie m) → x.val.toNat = s.readHome x.addr 8) :
    BitVec.ofNat 32 ((s.lineData m p).toNat / 2 ^ (8 * (p.pa % 128))) = BitVec.ofNat 32 (s.readHome p.pa 4) := by
  obtain ⟨a, ha⟩ : ∃ a, a = p.pa % 128 / 64 := ⟨_, rfl⟩
  obtain ⟨b, hb⟩ : ∃ b, b = p.pa % 64 / 8 := ⟨_, rfl⟩
  obtain ⟨c, hc⟩ : ∃ c, c = p.pa % 8 / 4 := ⟨_, rfl⟩
  have hpos : 8 * (p.pa % 128) = 32 * (2 * (8 * a + b) + c) := by omega
  have hword : p.pa / 128 * 128 + 64 * a + 8 * b = p.pa / 8 * 8 := by omega
  have hhalf : p.pa / 8 * 8 + 4 * c = p.pa := by omega
  obtain ⟨x, hx⟩ : ∃ x, x = ofLanes 512 ((s.lineHomes p).map (fun h => s.readWords m false h 64)) := ⟨_, rfl⟩
  have hline : lane 512 x a = s.readWords m false (p.pa / 128 * 128 + 64 * a) 64 % 2 ^ 512 := by
    rw [hx, lane_ofLanes, hh]
    have ha2 : a < 2 := by omega
    interval_cases a <;> rfl
  have hw : lane 64 x (8 * a + b) = s.readHome (p.pa / 8 * 8) 8 := by
    rw [← lane_lane x a (by norm_num : 512 = 64 * 8) (by omega), hline, lane_mod _ (by norm_num : 512 = 64 * 8) (by omega),
      State.lane_readWords m (by omega) (by omega), hword, State.dieWord_of_current hcur]
  have hd : (s.lineData m p).toNat = x % 2 ^ 1024 := by
    unfold State.lineData
    rw [BitVec.toNat_ofNat, hx]
  rw [hpos, ofNat_lane, hd, lane_mod x (by norm_num : 1024 = 32 * 32) (by omega),
    ← lane_lane x _ (by norm_num : 64 = 32 * 2) (by omega), hw, s.lane_readHome _ (by omega), hhalf]

/-! ## What a fetch answers (R202, R255) -/

theorem State.fetchWord_hit {m q ctx : Nat} {p : Part} {l : IcLine}
    (h : (s.clu m).icache.find? (fun x => x.line == p.pa / 128) = some l) :
    s.fetchWord m q ctx p = (BitVec.ofNat 32 (l.data.toNat / 2 ^ (8 * (p.pa % 128))), s) := by
  unfold State.fetchWord
  dsimp only
  rw [h]

/-- The state after a line has been read at its homes: the instruction cache holds it. -/
def State.lineRead (s : State) (m q ctx : Nat) (p : Part) : State :=
  (s.lineTook m p).setClu m ((s.clu m).icFill ⟨p.pa / 128, s.lineData m p, false, q, ctx⟩)

theorem State.fetchWord_miss {m : Nat} {p : Part} (h : ∀ l ∈ (s.clu m).icache, l.line ≠ p.pa / 128) (q ctx : Nat) :
    s.fetchWord m q ctx p =
      (BitVec.ofNat 32 ((s.lineData m p).toNat / 2 ^ (8 * (p.pa % 128))), s.lineRead m q ctx p) := by
  have hnone : (s.clu m).icache.find? (fun x => x.line == p.pa / 128) = none := by
    simpa [List.find?_eq_none] using h
  unfold State.fetchWord
  dsimp only
  rw [hnone]
  rfl

end

section
variable {s : State} {p : Part} {ps : List Part}
  (hx : s.xlate s.tid .fetch (fetchAddr s.thr.pc) 4 = .ok (p :: ps))
include hx

theorem State.fetch_of_ok : s.fetch =
    if !s.lineThere (s.tid / 128) p then .wait
    else if s.poisoned p.pa 4 then .fault cMEMERR (BitVec.ofNat 64 (fetchAddr s.thr.pc)) AccKind.fetch.detail
    else
      let r := (s.touch s.tid (fetchAddr s.thr.pc) 4).fetchWord (s.tid / 128) s.thr.prt s.thr.ctx p
      .word r.1 r.2 := by
  have ht : (s.touch s.tid (fetchAddr s.thr.pc) 4).tid = s.tid := (s.touch_tlbOnly ..).tid
  unfold State.fetch
  dsimp only
  rw [hx, ht]

theorem State.fetch_unclocked (hl : s.lineThere (s.tid / 128) p = false) : s.fetch = .wait := by
  rw [State.fetch_of_ok hx, hl]
  rfl

theorem State.fetch_poisoned (hl : s.lineThere (s.tid / 128) p = true) (hp : s.poisoned p.pa 4 = true) :
    s.fetch = .fault cMEMERR (BitVec.ofNat 64 (fetchAddr s.thr.pc)) AccKind.fetch.detail := by
  rw [State.fetch_of_ok hx, hl, hp]
  rfl

theorem State.fetch_reads (hl : s.lineThere (s.tid / 128) p = true) (hp : s.poisoned p.pa 4 = false) {w : W32} {v : State}
    (h : (s.touch s.tid (fetchAddr s.thr.pc) 4).fetchWord (s.tid / 128) s.thr.prt s.thr.ctx p = (w, v)) :
    s.fetch = .word w v := by
  rw [State.fetch_of_ok hx, hl, hp, h]
  rfl

end

section
variable {s : State}

theorem State.fetch_miss {va : Nat} (hx : s.xlate s.tid .fetch (fetchAddr s.thr.pc) 4 = .miss va) :
    s.fetch = .miss va := by
  unfold State.fetch
  dsimp only
  rw [hx]

theorem State.fetch_fault {cause det : Nat} {tv : W64}
    (hx : s.xlate s.tid .fetch (fetchAddr s.thr.pc) 4 = .fault cause det tv) : s.fetch = .fault cause tv det := by
  unfold State.fetch
  dsimp only
  rw [hx]

section
variable {w : W32} {v : State} (h : s.fetch = .word w v)
include h

theorem issue_decoded {i : Instr} (hd : decode w = .ok i) (hp : v.thr.pendReg i = false) :
    issue s = onNext (holdWord v.tid w) (exec i v) := by
  unfold issue
  rw [h]
  dsimp only
  rw [hd]
  dsimp only
  rw [hp]
  rfl

theorem issue_pending {i : Instr} (hd : decode w = .ok i) (hp : v.thr.pendReg i = true) :
    issue s = .next (v.waitIn .pendreg true) := by
  unfold issue
  rw [h]
  dsimp only
  rw [hd]
  dsimp only
  rw [hp]
  rfl

theorem issue_undecoded {e : DecodeError} (hd : decode w = .error e) : issue s = exec (.unassignedEncoding w) v := by
  unfold issue
  rw [h]
  dsimp only
  rw [hd]

end

theorem issue_of_fault {cause det : Nat} {tv : W64} (h : s.fetch = .fault cause tv det) :
    issue s = exec .instructionFetchFault s := by
  unfold issue
  rw [h]

theorem issue_of_miss {va : Nat} (h : s.fetch = .miss va) : issue s = .next (s.startWalk va true false) := by
  unfold issue
  rw [h]

theorem issue_of_wait (h : s.fetch = .wait) : issue s = .next s := by
  unfold issue
  rw [h]

/-! ## The two ways to read the word (R202) -/

section
variable {p : Part} {ps : List Part} (hx : s.xlate s.tid .fetch (fetchAddr s.thr.pc) 4 = .ok (p :: ps))
  (hl : s.lineThere (s.tid / 128) p = true) (hp : s.poisoned p.pa 4 = false)
include hx hl hp

theorem State.fetch_hit {l : IcLine} (h : (s.clu (s.tid / 128)).icache.find? (fun x => x.line == p.pa / 128) = some l) :
    ∃ v, s.fetch = .word (BitVec.ofNat 32 (l.data.toNat / 2 ^ (8 * (p.pa % 128)))) v ∧ Fetches s v p := by
  have ht := s.touch_tlbOnly s.tid (fetchAddr s.thr.pc) 4
  exact ⟨_, State.fetch_reads hx hl hp (State.fetchWord_hit ((ht.clu _).symm ▸ h)), .of_parts ht (.refl _) (.refl _ _)⟩

theorem State.fetch_line (hno : ∀ l ∈ (s.clu (s.tid / 128)).icache, l.line ≠ p.pa / 128) (hal : p.pa % 4 = 0)
    (hh : s.lineHomes p = [p.pa / 128 * 128, p.pa / 128 * 128 + 64])
    (hcur : ∀ x ∈ s.copies, x.addr = p.pa / 8 * 8 → x.level = dieLevel (clusterDie (s.tid / 128)) →
      x.val.toNat = s.readHome x.addr 8) :
    ∃ v, s.fetch = .word (BitVec.ofNat 32 (s.readHome p.pa 4)) v ∧ Fetches s v p := by
  have ht := s.touch_tlbOnly s.tid (fetchAddr s.thr.pc) 4
  have hB : (s.touch s.tid (fetchAddr s.thr.pc) 4).lineBlocks p = s.lineBlocks p := by
    unfold State.lineBlocks
    rw [ht.lineHomes]
  have hf := State.fetch_reads hx hl hp (State.fetchWord_miss (by rwa [ht.clu]) s.thr.prt s.thr.ctx)
  generalize s.touch s.tid (fetchAddr s.thr.pc) 4 = t at ht hB hf
  have hword := State.word_lineData (m := s.tid / 128) hal ((ht.lineHomes p).trans hh)
    (fun x hx ha hd => (hcur x (ht.copies ▸ hx) ha hd).trans (ht.readHome ..).symm)
  rw [hword, ht.readHome] at hf
  have htook := t.lineTook_takes (s.tid / 128) p
  rw [hB] at htook
  exact ⟨_, hf, .of_parts ht htook (State.icFill_icacheOnly (State.clu_of_clusters htook.clusters _) _)⟩

end

/-! ## A turn (R190, R200) -/

/-- A READY thread with no user-level interrupt to take issues its next instruction. -/
theorem threadTurn_ready (h : s.thr.st = .ready) (hu : s.thr.uiReady = false) :
    threadTurn s = onNext (forgetWalk s.tid) (issue s) := by
  unfold threadTurn
  dsimp only
  rw [h, hu]
  rfl

/-- The state in which the thread of `slot` has the turn of core `cur`, `d` positions on. -/
def State.turnOf (s : State) (slot d : Nat) : State :=
  { (s.setCore s.cur { s.core s.cur with
      rot := (slot + 1) % 16, cycle := (s.core s.cur).cycle + BitVec.ofNat 64 (d + 1) }) with
    cur := (s.cur + 1) % 2048, due := if s.cur = 2047 then s.agenda.length else 0, tid := 16 * s.cur + slot }

theorem State.nextSlot_congr {t : State} (h : t.threads = s.threads) (c rot n k : Nat) :
    t.nextSlot c rot n k = s.nextSlot c rot n k := by
  induction n generalizing k with
  | zero => rfl
  | succ n ih =>
    unfold State.nextSlot State.thread
    rw [h, ih]

theorem step_of_no_event (h : s.agenda = [] ∨ s.due = 0) : step s = turn s := by
  unfold step
  split
  · next e rest n ha hd => rcases h with h | h <;> simp_all
  · rfl

/-- With no event due, a step is the turn of the thread that the rotation of core `cur` has reached (R190). -/
theorem step_runs_thread {slot d : Nat} (ha : s.agenda = [] ∨ s.due = 0) (hz : s.cur = 0 → s.resize = none)
    (hr : s.coreRuns (s.cur / 8) = true) (hn : s.nextSlot s.cur (s.core s.cur).rot 16 0 = some (slot, d)) :
    step s = threadTurn (s.turnOf slot d) := by
  have hquiet : ¬(s.cur = 0 ∧ s.resize.isSome = true) := fun ⟨hc, hs⟩ => by simp [hz hc] at hs
  obtain ⟨t, ht⟩ : ∃ t : State, t = { s with
    cur := (s.cur + 1) % 2048, due := if s.cur = 2047 then s.agenda.length else 0 } := ⟨_, rfl⟩
  have hturn : turn s = coreTurn s.cur t := by
    unfold turn
    dsimp only
    rw [if_neg hquiet, ht]
  have hrt : t.coreRuns (s.cur / 8) = true := ht ▸ hr
  have hclock : t.coreClock (s.cur / 8) = true := (Bool.and_eq_true_iff.1 hrt).1
  have hnt : t.nextSlot s.cur (t.core s.cur).rot 16 0 = some (slot, d) := by
    rw [ht]
    exact (State.nextSlot_congr rfl ..).trans hn
  rw [step_of_no_event ha, hturn]
  unfold coreTurn
  dsimp only
  rw [hclock, hrt, hnt, ht]
  rfl

/-- An event that is due acts (log 1). -/
theorem step_runs_event {e : Instr} {rest : List Instr} {n : Nat} (ha : s.agenda = e :: rest) (hd : s.due = n + 1)
    (hw : WellFormed e = true) (he : isEvent e = true) : step s = exec e { s with agenda := rest, due := n } := by
  unfold step
  rw [ha, hd]
  dsimp only
  rw [hw, he]
  rfl

end

/-- The word that a fetch has read is the one that the thread's turn runs (R190, R192, R314). -/
theorem step_runs_word {s u v : State} {p : Part} {w : W32} (hs : step s = onNext (forgetWalk u.tid) (issue u))
    (hf : u.fetch = .word w v) (hv : Fetches u v p) :
    (∀ i, decode w = .ok i → u.thr.pendReg i = false →
      step s = onNext (forgetWalk u.tid) (onNext (holdWord u.tid w) (exec i v))) ∧
    (∀ i, decode w = .ok i → u.thr.pendReg i = true →
      step s = onNext (forgetWalk u.tid) (.next (v.waitIn .pendreg true))) ∧
    (∀ e, decode w = .error e → step s = onNext (forgetWalk u.tid) (exec (.unassignedEncoding w) v)) := by
  have htid : v.tid = u.tid := by rw [← hv.rest]
  have hthr : v.thr = u.thr := by
    unfold State.thr State.thread
    rw [htid, ← hv.rest]
  rw [hs]
  refine ⟨fun i hd hp => ?_, fun i hd hp => ?_, fun e hd => ?_⟩
  · rw [issue_decoded hf hd (hthr ▸ hp), htid]
  · rw [issue_pending hf hd (hthr ▸ hp)]
  · rw [issue_undecoded hf hd]

end Sys2Proof.Machine
end

section
open Sys2Proof Sys2Proof.Machine

/-- Settles O58: a step with no event due is the turn of the thread that the rotation has reached, and each clause is
what its fetch answers; the states of a fetch differ as Fetches says. -/
theorem stepRunsDecoded : Obligations.StepRunsDecoded := by
  refine ⟨fun s slot d => ?_, fun s e rest n => step_runs_event⟩
  intro c t m th k u turn at' runs hev hz hr hn hst hui
  have hs : step s = onNext (forgetWalk t) (issue u) :=
    (step_runs_thread hev hz hr hn).trans (threadTurn_ready (s := u) hst hui)
  have hrun {p : Part} {w : W32} (h : ∃ v, u.fetch = .word w v ∧ Fetches u v p) : runs p w := by
    obtain ⟨v, hf, hv⟩ := h
    exact ⟨v, hv, step_runs_word (u := u) hs hf hv⟩
  refine ⟨fun p ps hx hl hp => ⟨fun l h => hrun (State.fetch_hit hx hl hp h), fun hno hal hh hcur => ?line⟩,
    fun p ps hx hl hp => ?poisoned, fun p ps hx hl => ?unclocked, fun va hx => ?miss, fun cause det tv hx => ?fault⟩
  case line => exact hrun (State.fetch_line (s := u) hx hl hp hno hal hh hcur)
  case poisoned => exact hs.trans (congrArg _ (issue_of_fault (State.fetch_poisoned (s := u) hx hl hp)))
  case unclocked => exact hs.trans (congrArg _ (issue_of_wait (State.fetch_unclocked (s := u) hx hl)))
  case miss => exact hs.trans (congrArg _ (issue_of_miss (State.fetch_miss (s := u) hx)))
  case fault => exact hs.trans (congrArg _ (issue_of_fault (State.fetch_fault (s := u) hx)))

end

section
/-!
SUPPORT. What the engines' own operations leave alone (R207 to R211, R386 to R394): a tile's fetches, the end of a
command, and the looks that others take at what has changed.
-/

namespace Sys2Proof.Machine

open Sys2Proof

section
variable {s t : State}

theorem WakesOnly.clusters (h : WakesOnly s t) : t.clusters = s.clusters := by
  rw [← h]
theorem WakesOnly.acmds (h : WakesOnly s t) : t.acmds = s.acmds := by
  rw [← h]
theorem UnitsKept.acmds (h : UnitsKept s t) : t.acmds = s.acmds := by
  rw [← h.rest]
theorem CachesOnly.acmds (h : CachesOnly s t) : t.acmds = s.acmds := by
  rw [← h]

theorem WakesOnly.clu (h : WakesOnly s t) (m : Nat) : t.clu m = s.clu m := State.clu_of_clusters h.clusters m

end

theorem State.pokeTile_wakes (s : State) (m : Nat) : WakesOnly s (s.pokeTile m) := by
  unfold State.pokeTile
  extract_lets t u
  have ht : WakesOnly s t := (s.post_wakes _).trans (State.post_wakes _ _)
  have hu : WakesOnly t u := .foldl (fun t k => .ite (.refl t) (t.post_wakes _)) _ _
  exact (ht.trans hu).trans (.foldl (fun t e => .ite (t.post_wakes _) (.refl t)) _ _)

/-! ## The queues of a tile -/

/-- The commands of queue `k` of the tile of cluster `m`. -/
def State.mxCmds (s : State) (m k : Nat) : List MxCmd := (s.clu m).queues.look [] k

section
variable (s : State) (m k id : Nat) (g : MxCmd → MxCmd)

theorem State.mxCmds_setMx :
    (s.setMx m k id g).mxCmds m k = (s.mxCmds m k).map (fun c => if c.id = id then g c else c) := by
  unfold State.mxCmds State.setMx
  rw [State.clu_setClu]
  exact Tbl.look_put_self [] _ _ _

theorem State.mxCmds_setMx_ne {j : Nat} (h : j ≠ k) : (s.setMx m k id g).mxCmds m j = s.mxCmds m j := by
  unfold State.mxCmds State.setMx
  rw [State.clu_setClu]
  exact Tbl.look_put_ne [] _ _ h

/-- Every command of the identity is as `g` leaves it. -/
theorem State.of_mem_setMx {e : MxCmd} (he : e ∈ (s.setMx m k id g).mxCmds m k)
    (hid : e.id = id) : ∃ x, e = g x := by
  rw [State.mxCmds_setMx] at he
  obtain ⟨x, -, hx⟩ := List.mem_map.1 he
  by_cases h : x.id = id
  · exact ⟨x, hx.symm.trans (if_pos h)⟩
  · exact absurd (hx.symm.trans (if_neg h) ▸ hid) h

end

/-! ## The end of a matrix command (R386) -/

/-- The command has left queue `k` of its tile, and its completion with `status` is due. -/
def MxEnded (m k : Nat) (c : MxCmd) (status : Nat) (t : State) : Prop :=
  (∀ e ∈ (t.clu m).queues.look [] k, e.id ≠ c.id) ∧ ∃ a ∈ t.acmds, a.id = c.id ∧ a.ended = true ∧ a.status = status

theorem State.endMx_mem (s : State) (m k : Nat) (c : MxCmd) (status cause : Nat) (v : W64) (fl : FP.Flags) :
    (s.endMx m k c status cause v fl).mem = s.mem := by
  unfold State.endMx
  extract_lets cl t a
  rw [(State.pokeTile_wakes _ m).mem]
  rfl

theorem State.endMx_ends (s : State) (m k : Nat) (c : MxCmd) (status cause : Nat) (v : W64) (fl : FP.Flags) :
    MxEnded m k c status (s.endMx m k c status cause v fl) := by
  unfold State.endMx
  extract_lets cl t a
  have hw := State.pokeTile_wakes ({ t with acmds := t.acmds ++ [a] }.post (.asyncCommandComplete c.id)) m
  constructor
  · intro e he
    replace he : e ∈ (t.clu m).queues.look [] k := congrArg (fun x : Cluster => x.queues.look [] k) (hw.clu m) ▸ he
    have hq : (t.clu m).queues.look [] k = (cl.queues.look [] k).filter (fun x => x.id != c.id) := by
      unfold t
      rw [State.clu_setClu]
      exact Tbl.look_put_self ..
    rw [hq] at he
    exact bne_iff_ne.1 (List.mem_filter.1 he).2
  · rw [hw.acmds]
    exact ⟨a, List.mem_append_right _ List.mem_cons_self, rfl, rfl, rfl⟩

/-! ## A tile's fetches (R208) -/

/-- `t` differs from `s` in the caches and in the TLBs and pins of the tiles' fetch units only. -/
structure TileReads (s t : State) : Prop where
  rest : CachesOnly s { t with clusters := s.clusters }
  clusters : ∀ m, { t.clu m with ftlb := (s.clu m).ftlb, pins := (s.clu m).pins } = s.clu m

section
variable {s t u : State}

namespace TileReads

theorem refl (s : State) : TileReads s s := ⟨.refl s, fun _ => rfl⟩

theorem trans (h : TileReads s t) (k : TileReads t u) : TileReads s u where
  rest := by
    have hs := h.rest
    have hk := k.rest
    unfold CachesOnly at *
    rw [← hs, ← hk]
  clusters m := by rw [← h.clusters, ← k.clusters]

theorem of_caches (h : CachesOnly s t) : TileReads s t := by
  have hc : t.clusters = s.clusters := h.clusters
  exact ⟨by rw [← hc]; exact h, fun m => by rw [State.clu_of_clusters hc]⟩

theorem foldl {β : Type} {f : State → β → State} (hf : ∀ s b, TileReads s (f s b)) (l : List β) (s : State) :
    TileReads s (l.foldl f s) := foldl_related refl trans hf l s

theorem mem (h : TileReads s t) : t.mem = s.mem := h.rest.mem
theorem cores (h : TileReads s t) : t.cores = s.cores := h.rest.cores

theorem queues (h : TileReads s t) (m : Nat) : (t.clu m).queues = (s.clu m).queues := by
  rw [← h.clusters]
theorem lastQ (h : TileReads s t) (m : Nat) : (t.clu m).lastQ = (s.clu m).lastQ := by
  rw [← h.clusters]
theorem streak (h : TileReads s t) (m : Nat) : (t.clu m).streak = (s.clu m).streak := by
  rw [← h.clusters]

end TileReads

theorem State.setClu_tileReads (s : State) (m : Nat) {x : Cluster}
    (h : { x with ftlb := (s.clu m).ftlb, pins := (s.clu m).pins } = s.clu m) : TileReads s (s.setClu m x) := by
  refine ⟨rfl, fun j => ?_⟩
  by_cases hj : j = m
  · rw [hj, State.clu_setClu, h]
  · rw [State.clu_setClu_ne _ _ _ _ hj]

theorem State.unpin_tileReads (s : State) (m : Nat) : TileReads s (s.unpin m) := by
  unfold State.unpin
  extract_lets cl
  have h : TileReads s (s.setClu m { cl with pins := [] }) := s.setClu_tileReads m rfl
  exact h.trans (.of_caches (.foldl _ (fun t b => t.findBlock_caches _ b) _ _))

theorem State.tilePage_tileReads (s : State) (x : Fetcher) (va : Nat) : TileReads s (s.tilePage x va).2 := by
  unfold State.tilePage
  -- The walk is opaque here, so that no check of this proof evaluates the page tables' bounds.
  obtain ⟨walk, hw⟩ : ∃ walk, walk = State.walk := ⟨_, rfl⟩
  rw [← hw]
  dsimp only
  split
  · exact s.setClu_tileReads _ rfl
  · have ht : TileReads s s.choice.2 := .of_caches s.choice_caches
    split
    · exact ht.trans (State.setClu_tileReads _ _ rfl)
    · exact ht

theorem State.tilePiece_tileReads (s : State) (x : Fetcher) (va n : Nat) : TileReads s (s.tilePiece x va n).2 := by
  have h := s.tilePage_tileReads x va
  unfold State.tilePiece
  split
  · exact .refl s
  · split
    · exact .refl s
    · split
      · next hp => rw [hp] at h; exact h
      · next hp => rw [hp] at h; exact h

theorem State.tilePin_tileReads (s : State) (m : Nat) (ps : List Part) : TileReads s (s.tilePin m ps) := by
  unfold State.tilePin
  extract_lets qs t cl
  have ht : TileReads s t := .foldl (fun t p => .foldl (fun t w => .of_caches (t.takeUnit_caches ..)) _ _) _ _
  exact ht.trans (State.setClu_tileReads _ _ rfl)

theorem State.tileBytes_tileReads (s : State) (x : Fetcher) (va n : Nat) : TileReads s (s.tileBytes x va n).2 := by
  have hpieces (l : List (Nat × Nat)) (rs : List PieceRes) : TileReads s
      (l.foldl (fun (t : List PieceRes × State) p =>
        (t.1 ++ [(t.2.tilePiece x p.1 p.2).1], (t.2.tilePiece x p.1 p.2).2)) (rs, s)).2 :=
    l.foldlRecOn (motive := fun t : List PieceRes × State => TileReads s t.2) _ (.refl s)
      (fun t ht p _ => ht.trans (t.2.tilePiece_tileReads x p.1 p.2))
  unfold State.tileBytes
  have h := hpieces (s.piecesFor x.agent.prt va n) []
  generalize List.foldl _ _ _ = r at h ⊢
  obtain ⟨rs, t⟩ := r
  dsimp only at h ⊢
  split
  · split
    · exact h
    · exact h.trans (t.tilePin_tileReads ..)
  all_goals exact h

theorem State.readOp_tileReads (s : State) (x : Fetcher) (f : Fmt) (base k0 n : Nat) :
    TileReads s (s.readOp x f base k0 n).2 := by
  unfold State.readOp
  split
  · have h := s.tileBytes_tileReads x ((base + k0 / 32 * 17) % 2 ^ 64) (n / 32 * 17)
    split
    all_goals next hb => rw [hb] at h; exact h
  · have h := s.tileBytes_tileReads x ((base + k0 * opBytes f) % 2 ^ 64) (n * opBytes f)
    extract_lets e
    split
    all_goals next hb => rw [hb] at h; exact h

theorem State.readOps_tileReads (s : State) (x : Fetcher) (f : Fmt) (base stride k0 n : Nat) (l : List Nat) :
    TileReads s (s.readOps x f base stride k0 n l).2 := by
  induction l generalizing s with
  | nil => exact .refl s
  | cons i r ih =>
    have h := s.readOp_tileReads x f ((base + i * stride) % 2 ^ 64) k0 n
    unfold State.readOps
    split
    next hb => rw [hb] at h; exact h
    next t hb =>
      rw [hb] at h
      have ht := h.trans (ih t)
      split
      all_goals next hr => rw [hr] at ht; exact ht

/-- A K step's operands, whether read or refused (R208). -/
theorem State.readStep_tileReads (s : State) (x : Fetcher) (f : Fmt) (a b : Nat × Nat) (m n k0 k : Nat) :
    TileReads s (s.readStep x f a b m n k0 k).2 := by
  have h := s.readOps_tileReads x f a.1 a.2 k0 k (List.range m)
  unfold State.readStep
  split
  next hb => rw [hb] at h; exact h.trans (State.unpin_tileReads ..)
  next t hb =>
    rw [hb] at h
    have ht := h.trans (t.readOps_tileReads x f b.1 b.2 k0 k (List.range n))
    split
    next hr => rw [hr] at ht; exact ht.trans (State.unpin_tileReads ..)
    next hr => rw [hr] at ht; exact ht

end

end Sys2Proof.Machine
end

section
/-!
SUPPORT. K steps (R206 to R209, R212, R290): the arbiter's grant, and the sums that are in memory when the step is done.
-/

namespace Sys2Proof.Machine

open Sys2Proof

theorem State.clu_setMx (s : State) (m k id : Nat) (g : MxCmd → MxCmd) : (s.setMx m k id g).clu m =
    { s.clu m with queues := (s.clu m).queues.put [] k ((s.mxCmds m k).map (fun c => if c.id = id then g c else c)) } :=
  State.clu_setClu ..

@[simp] theorem State.clu_post (s : State) (e : Instr) (m : Nat) : (s.post e).clu m = s.clu m := rfl

theorem State.mem_agenda_post (s : State) (e : Instr) : e ∈ (s.post e).agenda :=
  List.mem_append_right _ List.mem_cons_self

/-! ## The arbiter's grant (R207, R208) -/

theorem kStepGrant_queue {s : State} {m : Nat} (h : s.fabTile m = none) :
    exec (.kStepGrant m) s = .next (s.queueGrant m) := by
  refine congrArg Host.Outcome.next ?_
  rw [h]

theorem kStepGrant_fabric {s : State} {m q sl : Nat} {r : Region} {f : MxFab} (h : s.fabTile m = some (q, sl, r, f)) :
    exec (.kStepGrant m) s = .next (s.fabGrant q sl r f) := by
  refine congrArg Host.Outcome.next ?_
  rw [h]

/-- The state in which the operands of queue `k`'s K step are read: the arbiter serves that queue (R207). -/
def State.serving (s : State) (m k streak : Nat) : State := s.setClu m { s.clu m with lastQ := k, streak := streak }

section
variable {s t : State} {m k streak : Nat} {c : MxCmd} {g : Fmt} (hr : s.tileRuns m = true)
  (hg : ∀ j < 8, ∀ e ∈ (s.clu m).queues.look [] j, e.granted = false) (hp : s.mxPick m = some (k, streak))
  (hh : s.mxHead m k = some c) (hf : mxFmt (fld c.shape 51 48) = some g)
include hr hg hp hh hf

theorem State.queueGrant_fetches : s.queueGrant m =
    match (s.serving m k streak).mxFetch c g with
    | (.error (cause, v), t) => t.endMx m k c (faultStatus cause) cause v 0
    | (.ok x, t) => (t.setMx m k c.id (fun c => { c with granted := true, fetched := some x })).post (.kStepDone m) := by
  have hidle : ¬((!s.tileRuns m) = true ∨ (List.range 8).any (fun k =>
      ((s.clu m).queues.look [] k).any (fun c => c.granted)) = true) := by
    simpa [hr] using hg
  unfold State.queueGrant
  rw [if_neg hidle, hp]
  dsimp only
  rw [hh]
  dsimp only
  rw [hf]
  rfl

theorem kStepGrant_grants (hfab : s.fabTile m = none) {rc : List OpRow × List OpRow}
    (hrc : ((s.serving m k streak).mxFetch c g).1 = .ok rc) : Completes (.kStepGrant m) s (fun t => t.mem = s.mem ∧
      (t.clu m).lastQ = k ∧ (t.clu m).streak = streak ∧ .kStepDone m ∈ t.agenda ∧
      ∀ e ∈ t.mxCmds m k, e.id = c.id → e.granted = true ∧ e.fetched = some rc) := by
  have hreads : TileReads (s.serving m k streak) ((s.serving m k streak).mxFetch c g).2 := State.readStep_tileReads ..
  have hserves : (s.serving m k streak).clu m = { s.clu m with lastQ := k, streak := streak } := State.clu_setClu ..
  have hx := (kStepGrant_queue hfab).trans (congrArg _ (State.queueGrant_fetches hr hg hp hh hf))
  generalize (s.serving m k streak).mxFetch c g = r at hrc hreads hx
  obtain ⟨x, t⟩ := r
  dsimp only at hrc hreads hx
  subst hrc
  refine completes_of_next hx ⟨hreads.mem, ?_, ?_, State.mem_agenda_post .., fun e he hid => ?_⟩
  · rw [State.clu_post, State.clu_setMx, hreads.lastQ, hserves]
  · rw [State.clu_post, State.clu_setMx, hreads.streak, hserves]
  · obtain ⟨x, rfl⟩ := State.of_mem_setMx _ _ _ _ _ he hid
    exact ⟨rfl, rfl⟩

theorem kStepGrant_ends (hfab : s.fabTile m = none) {e : Nat × W64}
    (he : ((s.serving m k streak).mxFetch c g).1 = .error e) :
    Completes (.kStepGrant m) s (fun t => t.mem = s.mem ∧ MxEnded m k c (faultStatus e.1) t) := by
  have hreads : TileReads (s.serving m k streak) ((s.serving m k streak).mxFetch c g).2 := State.readStep_tileReads ..
  have hx := (kStepGrant_queue hfab).trans (congrArg _ (State.queueGrant_fetches hr hg hp hh hf))
  generalize (s.serving m k streak).mxFetch c g = r at he hreads hx
  obtain ⟨x, t⟩ := r
  dsimp only at he hreads hx
  subst he
  exact completes_of_next hx ⟨(State.endMx_mem ..).trans hreads.mem, State.endMx_ends ..⟩

end

/-! ## The sums of a K step (R206, R209, R290) -/

theorem kStepDone_queue {s : State} {m : Nat} (h : s.fabTile m = none) :
    exec (.kStepDone m) s = .next (s.queueDone m) := by
  refine congrArg Host.Outcome.next ?_
  rw [h]

theorem kStepDone_fabric {s : State} {m q sl : Nat} {r : Region} {f : MxFab} (h : s.fabTile m = some (q, sl, r, f)) :
    exec (.kStepDone m) s = .next (s.fabDone q sl r f) := by
  refine congrArg Host.Outcome.next ?_
  rw [h]

/-- A step's sums, with the flags they raise: the C tile at `c0` of `m` by `n` elements is zeroed first when `clear`
says so. -/
def State.mxSums (u : State) (g : Fmt) (clear sat : Bool) (c0 m n : Nat) (rc : List OpRow × List OpRow) :
    State × FP.Flags :=
  (if clear then u.mxClear g c0 m n else u).mxStepAt g sat c0 rc.1 rc.2

theorem State.accHome_unpin (s : State) (m core ctx : Nat) (lw : Option Win) (off : Nat) :
    (s.unpin m).accHome core ctx lw off = s.accHome core ctx lw off := by
  unfold State.accHome State.win State.pw State.core
  rw [(s.unpin_tileReads m).cores]

section
variable {s : State} {m k : Nat} {c : MxCmd} {g : Fmt} {rc : List OpRow × List OpRow}
  (hm : s.mxGranted m = some (k, c)) (hg : mxFmt (fld c.shape 51 48) = some g) (hf : c.fetched = some rc)

/-- The sums of a granted step of queue `k`. -/
def State.queueSums (s : State) (m k : Nat) (c : MxCmd) (g : Fmt) (rc : List OpRow × List OpRow) : State × FP.Flags :=
  (s.unpin m).mxSums g (decide (c.kdone = 0) && bitAt c.shape 53) (bitAt c.shape 54)
    (s.accHome (8 * m + k) c.ctx c.lw c.off) (fld c.shape 5 0 + 1) (fld c.shape 13 8 + 1) rc

/-- The command after a step that raised the flags `fl`. -/
def MxCmd.stepped (c : MxCmd) (fl : FP.Flags) : MxCmd :=
  { c with kdone := c.kdone + 1, granted := false, fetched := none, flags := c.flags ||| fl }

include hm hg hf

theorem State.queueDone_sums : s.queueDone m =
    let r := s.queueSums m k c g rc
    if fld c.shape 47 16 ≤ (c.kdone + 1) * mxStep g then r.1.endMx m k (c.stepped r.2) 0 0 0 (c.stepped r.2).flags
    else (r.1.setMx m k c.id (fun _ => c.stepped r.2)).post (.kStepGrant m) := by
  obtain ⟨rows, cols⟩ := rc
  unfold State.queueDone State.queueSums State.mxSums
  rw [hm]
  dsimp only
  rw [hg, hf]
  simp only [State.accHome_unpin, Bool.and_eq_true, decide_eq_true_eq]
  rfl

theorem kStepDone_sums (hfab : s.fabTile m = none) : Completes (.kStepDone m) s (fun t =>
    t.mem = (s.queueSums m k c g rc).1.mem ∧ (fld c.shape 47 16 ≤ (c.kdone + 1) * mxStep g → MxEnded m k c 0 t)) := by
  have hx := (kStepDone_queue hfab).trans (congrArg _ (State.queueDone_sums hm hg hf))
  dsimp only at hx
  refine completes_of_next hx ?_
  split
  case isTrue h => exact ⟨State.endMx_mem .., fun _ => State.endMx_ends ..⟩
  case isFalse h => exact ⟨rfl, fun hle => absurd hle h⟩

end

/-! ## A tile in fabric mode (R212) -/

theorem Region.eq_of_mem_setMx {r : Region} {f e : MxFab} (he : e ∈ (r.setMx f).mxs) (h : e.cluster = f.cluster) :
    e = f := by
  obtain ⟨z, -, hz⟩ := List.mem_map.1 he
  by_cases hc : z.cluster = f.cluster
  · exact hz.symm.trans (if_pos hc)
  · exact absurd ((congrArg MxFab.cluster (hz.symm.trans (if_neg hc))).symm.trans h) hc

theorem State.putMx_wakes (s : State) (q sl : Nat) (r : Region) (f : MxFab) : WakesOnly s (s.putMx q sl r f) := by
  unfold State.putMx
  extract_lets t u
  have hu : WakesOnly s u := (s.putRegion_wakes q sl _).trans (t.pokes_wakes _)
  exact hu.trans (.ite (u.poke_wakes _) (.refl u))

section
variable {s : State} {m q sl : Nat} {r : Region} {f : MxFab} {g : Fmt} {rc : List OpRow × List OpRow}
  (hfab : s.fabTile m = some (q, sl, r, f)) (hg : mxFmt f.fmt = some g) (hm : f.cluster = m)
include hfab hg hm

theorem kStepGrant_grantsFabric (hc : f.canStep = true) (hrc : (s.fabFetch q r f g).1 = .ok rc) :
    Completes (.kStepGrant m) s (fun t => t.mem = s.mem ∧ .kStepDone m ∈ t.agenda ∧
      ∀ e ∈ (t.region q sl).mxs, e.cluster = m → e.granted = true ∧ e.fetched = some rc) := by
  have hreads : TileReads s (s.fabFetch q r f g).2 := State.readStep_tileReads ..
  have hx : exec (.kStepGrant m) s = .next (match s.fabFetch q r f g with
      | (.error (c, _), t) => t.putMx q sl r { f with flt := fetchFault c }
      | (.ok x, t) => (t.setRegion q sl (r.setMx { f with granted := true, fetched := some x })).poke
          (.kStepDone f.cluster)) := by
    rw [kStepGrant_fabric hfab]
    unfold State.fabGrant
    rw [hg, hc]
    rfl
  generalize s.fabFetch q r f g = y at hrc hreads hx
  obtain ⟨x, t⟩ := y
  dsimp only at hrc hreads hx
  subst hrc
  have hw := (t.setRegion q sl (r.setMx { f with granted := true, fetched := some rc })).poke_wakes (.kStepDone f.cluster)
  refine completes_of_next hx ⟨hw.mem.trans hreads.mem, hm ▸ State.mem_agenda_poke .., fun e he hcl => ?_⟩
  rw [(State.poke_keepsRegions ..).region, State.region_setRegion] at he
  obtain rfl := Region.eq_of_mem_setMx he (hcl.trans hm.symm)
  exact ⟨rfl, rfl⟩

theorem kStepDone_sumsFabric (hgr : f.granted = true) (hrc : f.fetched = some rc) :
    Completes (.kStepDone m) s (fun t => t.mem = ((s.unpin m).mxSums g (decide (f.kdone = 0) && f.clear) f.sat
      (s.accHome (8 * m + f.core) r.ctx none f.off) f.m f.n rc).1.mem) := by
  obtain ⟨rows, cols⟩ := rc
  have hsums : ∃ r' f', s.fabDone q sl r f = ((s.unpin m).mxSums g (decide (f.kdone = 0) && f.clear) f.sat
      (s.accHome (8 * m + f.core) r.ctx none f.off) f.m f.n (rows, cols)).1.putMx q sl r' f' := by
    subst hm
    unfold State.fabDone State.mxSums
    rw [hg, hrc]
    dsimp only
    rw [hgr]
    simp only [State.accHome_unpin, Bool.and_eq_true, decide_eq_true_eq]
    exact ⟨_, _, rfl⟩
  obtain ⟨r', f', hx⟩ := hsums
  exact completes_of_next ((kStepDone_fabric hfab).trans (congrArg _ hx)) (State.putMx_wakes ..).mem

end

end Sys2Proof.Machine
end

section
/-!
SUPPORT. Drains (R210, R211): the rows of the drain at a queue's head, which leave directly or to their handlers, and
the rows that are written.
-/

namespace Sys2Proof.Machine

open Sys2Proof

/-- A fold in which one entry alone does something, and the others leave what it has done. -/
theorem foldl_of_fixed {α β : Type} {f : α → β → α} {l : List β} {b : β} (hb : b ∈ l) {a : α}
    (h : ∀ c ∈ l, c ≠ b → f a c = a) (hkeep : ∀ c ∈ l, c ≠ b → f (f a b) c = f a b) (hn : l.Nodup) :
    l.foldl f a = f a b := by
  obtain ⟨l₁, l₂, rfl⟩ := List.append_of_mem hb
  obtain ⟨-, hn₂, hdis⟩ := List.nodup_append.1 hn
  have hb₂ : b ∉ l₂ := (List.nodup_cons.1 hn₂).1
  have hfirst : l₁.foldl f a = a := l₁.foldlRecOn (motive := (· = a)) f rfl fun x hx c hc =>
    hx ▸ h c (List.mem_append_left _ hc) (hdis c hc b List.mem_cons_self)
  have hlast : l₂.foldl f (f a b) = f a b := l₂.foldlRecOn (motive := (· = f a b)) f rfl fun x hx c hc =>
    hx ▸ hkeep c (List.mem_append_right _ (List.mem_cons_of_mem _ hc)) (fun e => hb₂ (e ▸ hc))
  rw [List.foldl_append, hfirst, List.foldl_cons, hlast]

theorem findSome?_range {α : Type} {f : Nat → Option α} {n k : Nat} {x : α} (hk : k < n) (h : ∀ j < k, f j = none)
    (hx : f k = some x) : (List.range n).findSome? f = some x := by
  refine List.findSome?_eq_some_iff.2 ⟨List.range k, k, (List.range (n - k - 1)).map (k + 1 + ·), ?_, hx,
    fun j hj => h j (List.mem_range.1 hj)⟩
  have e : n = k + 1 + (n - k - 1) := by omega
  conv_lhs => rw [e, List.range_add, List.range_succ, List.append_assoc]
  rfl

/-! ## The drain at the head of a queue -/

section
variable {s t : State} {m k : Nat} {c : MxCmd}

theorem State.drainHead_eq_some : s.drainHead m k = some c ↔ s.mxHead m k = some c ∧ c.drain = true := by
  unfold State.drainHead
  cases s.mxHead m k with
  | none => simp
  | some x =>
    by_cases hx : x.drain = true
    · simp only [hx, if_true, Option.some.injEq, iff_self_and]
      exact fun e => e ▸ hx
    · simp only [hx, Bool.false_eq_true, if_false, reduceCtorEq, Option.some.injEq, false_iff, not_and]
      exact fun e => e ▸ hx

theorem State.drainHead_congr (hq : t.mxCmds m k = s.mxCmds m k) (ha : t.active = s.active) :
    t.drainHead m k = s.drainHead m k := by
  have hh : t.mxHead m k = s.mxHead m k := by
    unfold State.mxCmds at hq
    unfold State.mxHead
    rw [hq, ha]
  unfold State.drainHead
  rw [hh]

theorem State.drainHead_post (s : State) (e : Instr) (m k : Nat) : (s.post e).drainHead m k = s.drainHead m k :=
  State.drainHead_congr rfl rfl

/-- The head of a queue whose commands keep their partitions and contexts. -/
theorem State.drainHead_setMx {g : MxCmd → MxCmd} (hg : ∀ x, (g x).prt = x.prt ∧ (g x).ctx = x.ctx ∧ (g x).drain = x.drain)
    (h : s.drainHead m k = some c) : (s.setMx m k c.id g).drainHead m k = some (g c) := by
  obtain ⟨hh, hd⟩ := State.drainHead_eq_some.1 h
  refine State.drainHead_eq_some.2 ⟨?_, (hg c).2.2.trans hd⟩
  have hq := s.mxCmds_setMx m k c.id g
  unfold State.mxCmds at hq
  unfold State.mxHead at hh ⊢
  have hact : (fun x => (s.setMx m k c.id g).active x.prt x.ctx) ∘ (fun x => if x.id = c.id then g x else x) =
      fun x => s.active x.prt x.ctx := by
    funext x
    by_cases hx : x.id = c.id
    · simp only [Function.comp_apply, if_pos hx, (hg x).1, (hg x).2.1]
      rfl
    · simp only [Function.comp_apply, if_neg hx]
      rfl
  rw [hq, List.find?_map, hact, hh, Option.map_some, if_pos rfl]

/-! ## Rows that start (R193, R210) -/

/-- What DRAIN_ROW_START does for queue `k`, with whether a row has started. -/
def State.startRow (m : Nat) (t : State × Bool) (k : Nat) : State × Bool :=
  match t.1.drainHead m k with
  | none => t
  | some c =>
    if drainRows c ≤ c.rowStart then t
    else if c.mxhpc.toNat / 4 = 0 then
      ((t.1.setMx m k c.id (fun c => { c with rowStart := c.rowStart + 1, released := c.released ++ [c.rowStart] })).post
        (.drainRowWrite m), true)
    else
      match (if (t.1.prt c.prt).ctxState = 1 then none else t.1.freeSlot (8 * m + k) .drain) with
      | some i => (t.1.startHandler m k (16 * (8 * m + k) + i) c c.rowStart, true)
      | none => t

theorem drainRowStart_eq (s : State) (m : Nat) : exec (.drainRowStart m) s = .next (
    if !s.tileRuns m then s
    else
      let r := (List.range 8).foldl (State.startRow m) (s, false)
      if r.2 then r.1.post (.drainRowStart m) else s) := rfl

/-- The command once its next row has left directly. -/
def MxCmd.rowOut (c : MxCmd) : MxCmd := { c with rowStart := c.rowStart + 1, released := c.released ++ [c.rowStart] }

theorem State.startRow_none {b : Bool} (h : s.drainHead m k = none) : State.startRow m (s, b) k = (s, b) := by
  unfold State.startRow
  dsimp only
  rw [h]

section
variable (h : s.drainHead m k = some c) (hrow : c.rowStart < drainRows c)
include h hrow

theorem State.startRow_direct (hpc : c.mxhpc.toNat / 4 = 0) (b : Bool) :
    State.startRow m (s, b) k = ((s.setMx m k c.id MxCmd.rowOut).post (.drainRowWrite m), true) := by
  unfold State.startRow
  dsimp only
  rw [h]
  dsimp only
  rw [if_neg (Nat.not_le.2 hrow), if_pos hpc]
  rfl

theorem State.startRow_handler (hpc : c.mxhpc.toNat / 4 ≠ 0) (hctx : (s.prt c.prt).ctxState ≠ 1) {i : Nat}
    (hi : s.freeSlot (8 * m + k) .drain = some i) (b : Bool) :
    State.startRow m (s, b) k = (s.startHandler m k (16 * (8 * m + k) + i) c c.rowStart, true) := by
  unfold State.startRow
  dsimp only
  rw [h]
  dsimp only
  rw [if_neg (Nat.not_le.2 hrow), if_neg hpc, if_neg hctx, hi]

end

/-- With one drain at the heads of the tile's queues, its row alone starts. -/
theorem drainRowStart_starts (hr : s.tileRuns m = true) (hk : k < 8) (ho : ∀ j < 8, j ≠ k → s.drainHead m j = none)
    (hs : State.startRow m (s, false) k = (t, true)) (hkeep : ∀ j < 8, j ≠ k → t.drainHead m j = s.drainHead m j) :
    exec (.drainRowStart m) s = .next (t.post (.drainRowStart m)) := by
  have hfold : (List.range 8).foldl (State.startRow m) (s, false) = (t, true) := by
    rw [← hs]
    refine foldl_of_fixed (List.mem_range.2 hk) (fun j hj hne => ?_) (fun j hj hne => ?_) List.nodup_range
    · exact State.startRow_none (ho j (List.mem_range.1 hj) hne)
    · rw [hs]
      exact State.startRow_none ((hkeep j (List.mem_range.1 hj) hne).trans (ho j (List.mem_range.1 hj) hne))
  rw [drainRowStart_eq, hr, hfold]
  rfl

/-! ## A row's handler (R193) -/

theorem State.unitAdd_counts (s : State) (q lslot : Nat) :
    s.unitAdd q lslot = s ∨ ∃ x, s.unitAdd q lslot = s.setPrt q { s.prt q with cnt := x } := by
  unfold State.unitAdd State.childAdded
  dsimp only
  split
  · split
    · exact .inr ⟨_, rfl⟩
    · exact .inl rfl
  · exact .inl rfl

theorem State.active_setPrt {q : Nat} {p : Prt} (ha : p.ctxActive = (s.prt q).ctxActive)
    (hs : p.ctxState = (s.prt q).ctxState) : (s.setPrt q p).active = s.active := by
  have hfield {β : Type} (f : Prt → β) (hf : f p = f (s.prt q)) (i : Nat) : f ((s.setPrt q p).prt i) = f (s.prt i) := by
    by_cases hi : i = q
    · rw [hi, State.prt_setPrt, hf]
    · rw [State.prt_setPrt_ne _ _ _ _ hi]
  funext i x
  unfold State.active
  dsimp only
  rw [hfield Prt.ctxActive ha, hfield Prt.ctxState hs]
  rfl

theorem State.unitAdd_active (s : State) (q lslot : Nat) : (s.unitAdd q lslot).active = s.active := by
  obtain h | ⟨x, h⟩ := s.unitAdd_counts q lslot
  · rw [h]
  · rw [h]
    exact State.active_setPrt rfl rfl

theorem State.unitAdd_clusters (s : State) (q lslot : Nat) : (s.unitAdd q lslot).clusters = s.clusters := by
  obtain h | ⟨x, h⟩ := s.unitAdd_counts q lslot <;> rw [h]
  rfl

theorem State.startThread_thread (s : State) (t : Nat) (pk : Packet) (sc : Tbl W64) :
    let th := (s.startThread t pk sc).thread t
    th.st = .ready ∧ th.kind = pk.kind ∧ th.pc = pk.pc ∧ th.row = pk.row := by
  unfold State.startThread
  dsimp only
  rw [State.thread_setThread]
  exact ⟨rfl, rfl, rfl, rfl⟩

/-- The handler runs in its slot, for its row (R193). -/
theorem State.startHandler_thread (s : State) (m k t : Nat) (c : MxCmd) (i : Nat) :
    let th := (s.startHandler m k t c i).thread t
    th.st = .ready ∧ th.kind = .drain ∧ th.pc = c.mxhpc ∧ th.row = some (c.id, i) := by
  unfold State.startHandler
  extract_lets rowB u pk
  exact u.startThread_thread t pk c.sc

/-- The other queues' drains are where they were. -/
theorem State.startHandler_drainHead (s : State) (m t : Nat) (c : MxCmd) (i : Nat) {j k : Nat} (hj : j ≠ k) :
    (s.startHandler m k t c i).drainHead m j = s.drainHead m j := by
  unfold State.startHandler
  extract_lets rowB u pk
  have hq : (u.startThread t pk c.sc).mxCmds m j = s.mxCmds m j :=
    congrArg (fun x : Cluster => x.queues.look [] j) (State.clu_of_clusters (s.unitAdd_clusters ..) m)
  refine State.drainHead_congr ?_ (s.unitAdd_active c.prt c.lslot)
  exact (State.mxCmds_setMx_ne (u.startThread t pk c.sc) m k c.id _ hj).trans hq

section
variable (hr : s.tileRuns m = true) (hk : k < 8) (h : s.drainHead m k = some c)
  (ho : ∀ j < 8, j ≠ k → s.drainHead m j = none) (hrow : c.rowStart < drainRows c)
include hr hk h ho hrow

theorem drainRowStart_direct (hpc : c.mxhpc.toNat / 4 = 0) : Completes (.drainRowStart m) s (fun t =>
    ∃ e, t.drainHead m k = some e ∧ e.rowStart = c.rowStart + 1 ∧ c.rowStart ∈ e.released) := by
  have hx := drainRowStart_starts hr hk ho (State.startRow_direct h hrow hpc false)
    (fun j _ hj => (State.drainHead_post ..).trans
      (State.drainHead_congr (s.mxCmds_setMx_ne m k c.id MxCmd.rowOut hj) rfl))
  refine completes_of_next hx ⟨c.rowOut, ?_, rfl, List.mem_append_right _ List.mem_cons_self⟩
  rw [State.drainHead_post, State.drainHead_post]
  exact State.drainHead_setMx (fun _ => ⟨rfl, rfl, rfl⟩) h

theorem drainRowStart_handler {i : Nat} (hpc : c.mxhpc.toNat / 4 ≠ 0) (hctx : (s.prt c.prt).ctxState ≠ 1)
    (hi : s.freeSlot (8 * m + k) .drain = some i) : Completes (.drainRowStart m) s (fun t =>
      let th := t.thread (16 * (8 * m + k) + i)
      th.st = .ready ∧ th.kind = .drain ∧ th.pc = c.mxhpc ∧ th.row = some (c.id, c.rowStart)) :=
  completes_of_next (drainRowStart_starts hr hk ho (State.startRow_handler h hrow hpc hctx hi false)
    (fun _ _ hj => s.startHandler_drainHead _ _ _ _ hj)) (s.startHandler_thread m k _ c c.rowStart)

end

/-! ## Rows that are written (R210) -/

/-- Where row `i` of a drain goes. -/
def MxCmd.rowDst (c : MxCmd) (i : Nat) : Nat := (c.dst.toNat + i * fld c.dword 55 32) % 2 ^ 64

section
variable {g : Fmt} (hr : s.tileRuns m = true) (hk : k < 8) (h : s.drainHead m k = some c)
  (ho : ∀ j < k, s.drainHead m j = none) (hrel : c.rowNext ∈ c.released) (hg : drainOut c.dword = some g)
include hr hk h ho hrel hg

theorem drainRowWrite_writes : exec (.drainRowWrite m) s = .next (
    if s.drainPoison m k c c.rowNext then s.endMx m k c (faultStatus cMEMERR) cMEMERR 0 0
    else
      match s.engineWrite c.agent (c.rowDst c.rowNext) (s.drainRow m k c g c.rowNext) with
      | .error (cause, v) => if cause = cWAIT then s else s.endMx m k c (faultStatus cause) cause v 0
      | .ok u =>
        if drainRows c ≤ c.rowNext + 1 then u.endMx m k c 0 0 0 0
        else (u.setMx m k c.id (fun x => { x with rowNext := c.rowNext + 1 })).post (.drainRowWrite m)) := by
  have hruns : ¬((!s.tileRuns m) = true) := by simp [hr]
  refine congrArg Host.Outcome.next ?_
  rw [if_neg hruns, findSome?_range (x := (k, c)) hk]
  · dsimp only
    rw [hg]
    rfl
  · intro j hj
    rw [ho j hj]
  · rw [h]
    exact if_pos (List.contains_iff_mem.2 hrel)

theorem drainRowWrite_poisoned (hp : s.drainPoison m k c c.rowNext = true) :
    Completes (.drainRowWrite m) s (fun t => t.mem = s.mem ∧ MxEnded m k c 6 t) := by
  have hx := drainRowWrite_writes hr hk h ho hrel hg
  rw [if_pos hp] at hx
  exact completes_of_next hx ⟨State.endMx_mem .., State.endMx_ends ..⟩

variable (hp : s.drainPoison m k c c.rowNext = false)
include hp

theorem drainRowWrite_stores {u : State}
    (hw : s.engineWrite c.agent (c.rowDst c.rowNext) (s.drainRow m k c g c.rowNext) = .ok u) :
    Completes (.drainRowWrite m) s (fun t => t.mem = u.mem) := by
  have hx := drainRowWrite_writes hr hk h ho hrel hg
  rw [hp, hw, if_neg Bool.false_ne_true] at hx
  refine completes_of_next hx ?_
  dsimp only
  split
  · exact State.endMx_mem ..
  · rfl

theorem drainRowWrite_faults {e : Nat × W64}
    (hw : s.engineWrite c.agent (c.rowDst c.rowNext) (s.drainRow m k c g c.rowNext) = .error e) (he : e.1 ≠ cWAIT) :
    Completes (.drainRowWrite m) s (fun t => t.mem = s.mem ∧ MxEnded m k c (faultStatus e.1) t) := by
  have hx := drainRowWrite_writes hr hk h ho hrel hg
  rw [hp, hw, if_neg Bool.false_ne_true] at hx
  refine completes_of_next hx ?_
  dsimp only
  rw [if_neg he]
  exact ⟨State.endMx_mem .., State.endMx_ends ..⟩

end

end

end Sys2Proof.Machine
end

section
/-!
SUPPORT. Async commands (R386, R390, R392): what an access of an engine's agent depends on, a part that is copied, and
the completion that is counted and told.
-/

namespace Sys2Proof.Machine

open Sys2Proof

/-! ## What an agent's access does not depend on -/

/-- The commands outstanding are `l`. -/
def State.setAcmds (s : State) (l : List ACmd) : State := { s with acmds := l }

section
variable (s : State) (l : List ACmd)

theorem State.setAcmds_memHome : (s.setAcmds l).memHome = s.memHome := State.memHome_congr rfl rfl

theorem State.setAcmds_inPrtMem : (s.setAcmds l).inPrtMem = s.inPrtMem := State.inPrtMem_congr rfl

theorem State.setAcmds_dieWord : (s.setAcmds l).dieWord = s.dieWord := (rfl)

theorem State.setAcmds_reaches : (s.setAcmds l).reaches = s.reaches := (rfl)

/-- An equation of functions, as those below: no check of one evaluates a partition's capacities to find a home. -/
theorem State.setAcmds_readPte : (s.setAcmds l).readPte = s.readPte := by
  delta State.readPte
  rw [State.setAcmds_memHome, State.setAcmds_dieWord]

/-- One level of a walk, which `deeper` goes on with. -/
def State.walkStep (d q va ch lvl : Nat) (deeper : Nat → WalkRes) (table : Nat) : WalkRes :=
  let e0 := s.readPte d q (table + 8 * (va / 2 ^ levelShift lvl % (if lvl = 4 then 256 else 512)))
  let e := if lvl = 0 then pick64 s d q table va ch e0 else e0
  if !nbit e 0 then .fault false
  else if nbit e 1 then
    if badLeaf lvl e then .fault true
    else .leaf ⟨pteAddr e, leafSize lvl e, BitVec.ofNat 12 e⟩
  else if badTable s q lvl e then .fault true
  else deeper (pteAddr e)

theorem State.walkFrom_zero (d q va ch : Nat) :
    s.walkFrom d q va ch 0 = s.walkStep d q va ch 0 (fun _ => .fault true) := rfl

theorem State.walkFrom_succ (d q va ch lvl : Nat) :
    s.walkFrom d q va ch (lvl + 1) = s.walkStep d q va ch (lvl + 1) (s.walkFrom d q va ch lvl) := rfl

theorem State.setAcmds_walkStep (d q va ch lvl : Nat) :
    (s.setAcmds l).walkStep d q va ch lvl = s.walkStep d q va ch lvl := by
  funext deeper table
  unfold State.walkStep pick64 badTable
  simp only [State.setAcmds_readPte, State.setAcmds_inPrtMem]

theorem State.setAcmds_walkFrom (d q va ch lvl : Nat) :
    (s.setAcmds l).walkFrom d q va ch lvl = s.walkFrom d q va ch lvl := by
  induction lvl with
  | zero => rw [State.walkFrom_zero, State.walkFrom_zero, State.setAcmds_walkStep]
  | succ lvl ih => rw [State.walkFrom_succ, State.walkFrom_succ, State.setAcmds_walkStep, ih]

theorem State.setAcmds_walk : (s.setAcmds l).walk = s.walk := by
  delta State.walk
  simp only [State.setAcmds_inPrtMem, State.setAcmds_walkFrom]

theorem State.setAcmds_tablesReach (d q va : Nat) : (s.setAcmds l).tablesReach d q va = s.tablesReach d q va := by
  -- `_f` is the body of the recursion, which `delta` shows as a function.
  have hstep : State.tablesReach._f (s.setAcmds l) d q va = State.tablesReach._f s d q va := by
    delta State.tablesReach._f
    rw [State.setAcmds_memHome, State.setAcmds_reaches, State.setAcmds_readPte]
  delta State.tablesReach
  rw [hstep]

theorem State.setAcmds_prt : (s.setAcmds l).prt = s.prt := (rfl)

theorem State.setAcmds_poolHome : (s.setAcmds l).poolHome = s.poolHome := by
  have hreloc : (s.setAcmds l).relocOf = s.relocOf := (rfl)
  have hpkg : (s.setAcmds l).pkg = s.pkg := (rfl)
  have hown : (s.setAcmds l).ownsCluster = s.ownsCluster := (rfl)
  have hpw : (s.setAcmds l).pw = s.pw := (rfl)
  delta State.poolHome
  rw [hreloc, hpkg, hown, hpw, State.setAcmds_prt]

theorem State.setAcmds_tileHome : (s.setAcmds l).tileHome = s.tileHome := by
  have hreloc : (s.setAcmds l).relocate = s.relocate := (rfl)
  have hpkg : (s.setAcmds l).pkg = s.pkg := (rfl)
  have hdrained : (s.setAcmds l).siteDrained = s.siteDrained := (rfl)
  have hown : (s.setAcmds l).ownsBlock = s.ownsBlock := (rfl)
  delta State.tileHome
  rw [hreloc, hpkg, hdrained, hown]

theorem State.setAcmds_homeOf : (s.setAcmds l).homeOf = s.homeOf := by
  delta State.homeOf
  rw [State.setAcmds_poolHome, State.setAcmds_tileHome, State.setAcmds_inPrtMem, State.setAcmds_memHome,
    State.setAcmds_prt]

theorem State.setAcmds_checkPart : (s.setAcmds l).checkPart = s.checkPart := by
  delta State.checkPart
  rw [State.setAcmds_homeOf]

theorem State.setAcmds_agentPiece : (s.setAcmds l).agentPiece = s.agentPiece := by
  have hlocal : (s.setAcmds l).localPart = s.localPart := (rfl)
  have hfresh : (s.setAcmds l).fresh = s.fresh := (rfl)
  delta State.agentPiece
  rw [hlocal, State.setAcmds_walk, State.setAcmds_checkPart, hfresh]

theorem State.setAcmds_agentParts (a : Agent) (k : AccKind) (va n : Nat) :
    (s.setAcmds l).agentParts a k va n = s.agentParts a k va n := by
  have hpieces : (s.setAcmds l).piecesFor a.prt va n = s.piecesFor a.prt va n := rfl
  unfold State.agentParts State.agentReaches State.walkReaches
  simp only [hpieces, State.setAcmds_agentPiece, State.setAcmds_tablesReach, State.setAcmds_reaches]

end

end Sys2Proof.Machine
end

section
/-!
SUPPORT. Async commands that complete (R386, R394): the completion is counted, told to the issuer and forgotten.
-/

namespace Sys2Proof.Machine

open Sys2Proof

theorem CachesOnly.waiters {s t : State} (h : CachesOnly s t) : t.waiters = s.waiters := by
  rw [← h]

/-! ## Writes by an agent -/

/-- An agent's write is a device store, after what it takes into the L2. -/
theorem State.agentPut_stores (s : State) (d : Nat) (p : Part) (l : List Byte) :
    ∃ u, CachesOnly s u ∧ s.agentPut d p l = u.deviceStore p.pa l := by
  unfold State.agentPut
  extract_lets d u
  refine ⟨u, ?_, rfl⟩
  unfold u
  split
  · exact .foldl _ (fun t w => t.takeUnit_caches _ _ _ _ _ _) _ _
  · exact .refl s

theorem State.agentPut_acmds (s : State) (d : Nat) (p : Part) (l : List Byte) :
    (s.agentPut d p l).acmds = s.acmds := by
  obtain ⟨u, hu, heq⟩ := s.agentPut_stores d p l
  rw [heq, (u.deviceStore_unitsKept p.pa l).acmds, hu.acmds]

/-- With nothing waiting at the homes it writes the bytes, and no thread sees it. -/
theorem State.agentPut_of_no_waiters {s : State} (hw : s.waiters = []) (d : Nat) (p : Part) (l : List Byte) :
    (s.agentPut d p l).mem = Memory.writeList s.mem p.pa l ∧ (s.agentPut d p l).threads = s.threads := by
  obtain ⟨u, hu, heq⟩ := s.agentPut_stores d p l
  rw [heq, State.deviceStore_of_no_waiters (hu.waiters.trans hw), State.deviceWrite_mem, hu.mem]
  exact ⟨rfl, hu.threads⟩

/-! ## The completion counter (R386) -/

/-- What a completion adds to its counter. -/
def ACmd.credit (c : ACmd) : W64 := if c.status = 0 then 1 else 0x100000001

/-- The accesses of a completion counter. -/
def counterAcc : AccKind := { rd := true, wr := true, counter := true }

section
variable (s : State) (c : ACmd)

theorem State.countCmd_of_counter {p : Part} {b : Bool} (h0 : c.counter ≠ 0)
    (h : s.agentParts c.agent counterAcc c.counter.toNat 8 = .ok [(p, b)]) : s.countCmd c =
      s.agentPut c.agent.die p (leBytes 8 (BitVec.ofNat 64 (s.readHome p.pa 8) + c.credit).toNat) := by
  unfold counterAcc at h
  unfold State.countCmd ACmd.credit
  rw [if_neg h0]
  dsimp only
  rw [h]

theorem State.countCmd_eq : s.countCmd c = s ∨ ∃ p x, s.countCmd c = s.agentPut c.agent.die p (leBytes 8 x) := by
  by_cases h0 : c.counter = 0
  · exact .inl (if_pos h0)
  · unfold State.countCmd
    rw [if_neg h0]
    dsimp only
    split
    · exact .inr ⟨_, _, rfl⟩
    · exact .inl rfl

theorem State.countCmd_acmds : (s.countCmd c).acmds = s.acmds := by
  obtain h | ⟨p, x, h⟩ := s.countCmd_eq c
  · rw [h]
  · rw [h, State.agentPut_acmds]

theorem State.countCmd_threads (hw : s.waiters = []) : (s.countCmd c).threads = s.threads := by
  obtain h | ⟨p, x, h⟩ := s.countCmd_eq c
  · rw [h]
  · rw [h, (State.agentPut_of_no_waiters hw ..).2]

/-! ## The issuer is told (R386) -/

/-- Telling an issuer changes cores and threads only. -/
theorem State.tellIssuer_rest : (s.tellIssuer c).mem = s.mem ∧ (s.tellIssuer c).acmds = s.acmds := by
  unfold State.tellIssuer
  extract_lets th note told u
  split
  · exact ⟨rfl, rfl⟩
  · unfold u
    split
    · exact ⟨rfl, rfl⟩
    · exact ⟨rfl, rfl⟩

theorem State.waitiEvent_field {β : Type} {g : Thread → β} (hg : ∀ (t : Thread) x, g { t with wi := x } = g t)
    (s : State) (bit : Nat) (f : Nat → Thread → Bool) (u : Nat) : g ((s.waitiEvent bit f).thread u) = g (s.thread u) := by
  refine Tbl.look_map_field (g := g) s.threads u (fun e => ?_)
  split
  · exact ⟨rfl, hg ..⟩
  · exact ⟨rfl, rfl⟩

theorem State.tellIssuer_thread (hl : (s.thread c.tid).life = c.life) (he : (s.thread c.tid).st ≠ .empty) :
    ((s.tellIssuer c).thread c.tid).fflags = (s.thread c.tid).fflags ||| c.flags ∧
      ((s.tellIssuer c).thread c.tid).cmds = (s.thread c.tid).cmds.map
        (fun x => if x.1 = c.handle ∧ x.2 = none then (x.1, some c.status) else x) := by
  unfold State.tellIssuer
  extract_lets th note told u
  rw [if_neg (not_or.2 ⟨not_not.2 hl, he⟩)]
  have hu : u.thread c.tid = told th := State.thread_setThread ..
  split
  · rw [State.waitiEvent_field (g := Thread.fflags) (fun _ _ => rfl),
      State.waitiEvent_field (g := Thread.cmds) (fun _ _ => rfl), hu]
    exact ⟨rfl, rfl⟩
  · rw [hu]
    exact ⟨rfl, rfl⟩

/-! ## The completion -/

/-- The commands but the one of the identity. -/
def State.sansCmd (id : Nat) : State := s.setAcmds (s.acmds.filter (fun x => x.id != id))

/-- The completion's effect, and a wake of the command that follows. -/
theorem asyncCommandComplete_wakes {s : State} {c : ACmd} {id : Nat} (hc : s.acmd id = some c)
    (hr : s.cmdRuns c = true) (ho : s.oldest c = true) (he : c.ended = true) (h1 : c.status ≠ 1) :
    ∃ t, exec (.asyncCommandComplete id) s = .next t ∧
      WakesOnly (((s.sansCmd id).countCmd c).tellIssuer c) t := by
  have hgo : ¬((!c.ended) = true ∨ (!s.cmdRuns c) = true ∨ (!s.oldest c) = true) := by simp [he, hr, ho]
  refine ⟨_, rfl, ?_⟩
  rw [hc]
  dsimp only
  rw [if_neg hgo, if_neg h1]
  have hs : ({ s with acmds := s.acmds.filter (fun x => x.id != id) } : State) = s.sansCmd id := rfl
  rw [hs]
  generalize ((s.sansCmd id).countCmd c).tellIssuer c = u
  split
  · exact (State.pokeCtx_wakes _ _).trans (State.post_wakes _ _)
  · exact State.pokeCtx_wakes _ _

end

section
variable {s t : State} {c : ACmd} {id : Nat} (ht : WakesOnly (((s.sansCmd id).countCmd c).tellIssuer c) t)
include ht

theorem completed_acmds : ∀ e ∈ t.acmds, e.id ≠ id := by
  intro e he
  have hall : t.acmds = s.acmds.filter (fun x => x.id != id) := by
    rw [ht.acmds, (State.tellIssuer_rest _ c).2, State.countCmd_acmds]
    rfl
  rw [hall] at he
  exact bne_iff_ne.1 (List.mem_filter.1 he).2

theorem completed_thread (hw : s.waiters = []) (hl : (s.thread c.tid).life = c.life)
    (he : (s.thread c.tid).st ≠ .empty) : (t.thread c.tid).fflags = (s.thread c.tid).fflags ||| c.flags ∧
      ((c.handle, none) ∈ (s.thread c.tid).cmds → (c.handle, some c.status) ∈ (t.thread c.tid).cmds) := by
  have hthreads : ((s.sansCmd id).countCmd c).threads = s.threads :=
    State.countCmd_threads (s := s.sansCmd id) (c := c) hw
  have hth : ((s.sansCmd id).countCmd c).thread c.tid = s.thread c.tid := by
    unfold State.thread
    rw [hthreads]
  rw [← hth] at hl he ⊢
  obtain ⟨hflags, hcmds⟩ := State.tellIssuer_thread _ _ hl he
  rw [ht.thread]
  exact ⟨hflags, fun h => hcmds ▸ List.mem_map.2 ⟨_, h, if_pos ⟨rfl, rfl⟩⟩⟩

theorem completed_mem : t.mem = ((s.sansCmd id).countCmd c).mem := by
  rw [ht.mem, (State.tellIssuer_rest _ c).1]

theorem completed_uncounted (h0 : c.counter = 0) : t.mem = s.mem := by
  have hnone : (s.sansCmd id).countCmd c = s.sansCmd id := if_pos h0
  rw [completed_mem ht, hnone]
  rfl

theorem completed_counted (hw : s.waiters = []) {p : Part} {b : Bool} (h0 : c.counter ≠ 0)
    (hp : s.agentParts c.agent counterAcc c.counter.toNat 8 = .ok [(p, b)]) :
    Stored s t (List.range' p.pa 8) (BitVec.ofNat 64 (s.readHome p.pa 8) + c.credit).toNat := by
  have hp' : (s.sansCmd id).agentParts c.agent counterAcc c.counter.toNat 8 = .ok [(p, b)] :=
    (State.setAcmds_agentParts ..).trans hp
  refine Stored.of_leBytes ?_
  rw [completed_mem ht, State.countCmd_of_counter _ _ h0 hp',
    (State.agentPut_of_no_waiters (s := s.sansCmd id) hw ..).1]
  rfl

end

end Sys2Proof.Machine
end

section
/-!
SUPPORT. The parts of ACOPY (R390, R392): a part that is copied, and one whose source faults.
-/

namespace Sys2Proof.Machine

open Sys2Proof

section
variable {s t : State} {c : ACmd} {id : Nat}

theorem State.acmd_id (hc : s.acmd id = some c) : c.id = id := by
  simpa using List.find?_some hc

theorem State.acmd_of_acmds (h : t.acmds = s.acmds) (id : Nat) : t.acmd id = s.acmd id := by
  unfold State.acmd
  rw [h]

/-- The command that stands for its identity is replaced. -/
theorem State.acmd_setCmd {x : ACmd} (h : s.acmd c.id = some x) : (s.setCmd c).acmd c.id = some c := by
  have hx : x.id = c.id := State.acmd_id h
  have hid : (fun y : ACmd => y.id == c.id) ∘ (fun y => if y.id = c.id then c else y) = fun y => y.id == c.id := by
    funext y
    by_cases hy : y.id = c.id <;> simp [hy]
  unfold State.acmd at h ⊢
  unfold State.setCmd
  dsimp only
  rw [List.find?_map, hid, h]
  exact congrArg some (if_pos hx)

/-- The command, ended. -/
def ACmd.endedWith (c : ACmd) (status cause : Nat) (v : W64) : ACmd :=
  { c with ended := true, wait := false, status := status, cause := cause, faddr := v }

theorem State.endCmd_acmd {x : ACmd} (h : s.acmd c.id = some x) (status cause : Nat) (v : W64) :
    (s.endCmd c status cause v).acmd c.id = some (c.endedWith status cause v) :=
  State.acmd_setCmd (c := c.endedWith status cause v) h

theorem State.partDone_mem (s : State) (c : ACmd) (done total : Nat) : (s.partDone c done total).mem = s.mem := by
  unfold State.partDone
  extract_lets c'
  split
  · rfl
  · rfl

theorem State.partDone_acmd {x : ACmd} (h : s.acmd c.id = some x) (done total : Nat) :
    ∃ e, (s.partDone c done total).acmd c.id = some e ∧ e.done = done ∧
      (total ≤ done → e.ended = true ∧ e.status = 0) := by
  unfold State.partDone
  extract_lets c'
  split
  · exact ⟨_, State.endCmd_acmd (c := c') h 0 0 0, rfl, fun _ => ⟨rfl, rfl⟩⟩
  · next hmore => exact ⟨c', State.acmd_setCmd (c := c') h, rfl, fun hdone => absurd hdone hmore⟩

/-! ## What an agent's accesses leave of the commands -/

theorem State.agentTook_acmds (s : State) (a : Agent) (va n : Nat) : (s.agentTook a va n).acmds = s.acmds := by
  unfold State.agentTook
  split
  · refine CachesOnly.acmds (.foldl _ (fun t p => ?_) _ _)
    split
    · exact .foldl _ (fun t w => t.takeUnit_caches ..) _ _
    · exact .refl t
  · rfl

theorem State.writeFull_acmds (s : State) (d : Nat) (ps : List (Part × Bool)) (l : List Byte) :
    (s.writeFull d ps l).acmds = s.acmds := by
  induction ps generalizing s l with
  | nil => rfl
  | cons p ps ih =>
    have hfull : UnitsKept s ((wordsOf p.1.pa p.1.n).foldl (fun s w => s.setFull w true) s) :=
      .foldl (f := fun t w => t.setFull w true) (fun _ _ => ⟨rfl⟩) _ _
    unfold State.writeFull
    extract_lets u
    rw [ih, State.agentPut_acmds]
    exact UnitsKept.acmds (.ite hfull (.refl s))

theorem State.engineWrite_acmds {a : Agent} {va : Nat} {l : List Byte} {u : State} (h : s.engineWrite a va l = .ok u) :
    u.acmds = s.acmds := by
  unfold State.engineWrite at h
  split at h
  · exact Except.ok.inj h ▸ State.writeFull_acmds ..
  · cases h

end

/-! ## A part of ACOPY -/

/-- Where the next part of an ACOPY is read, and where it is written. -/
def ACmd.partSrc (c : ACmd) : Nat := (c.src.toNat + c.done) % 2 ^ 64
def ACmd.partDst (c : ACmd) : Nat := (c.dst.toNat + c.done) % 2 ^ 64

section
variable {s : State} {c : ACmd} {id : Nat} (hc : s.acmd id = some c) (hr : s.cmdRuns c = true) (ho : s.oldest c = true)
  (he : c.ended = false) (hwait : c.wait = false) (hop : c.op = 0) (hsrc : bitAt c.aux1 24 = false)
include hc hr ho he hwait hop

theorem asyncEngineTransfer_copies : exec (.asyncEngineTransfer id) s = .next (s.copyPart c) := by
  have hgo : ¬(c.ended = true ∨ c.wait = true ∨ (!s.cmdRuns c) = true ∨ (!s.oldest c) = true) := by
    simp [he, hwait, hr, ho]
  refine congrArg Host.Outcome.next ?_
  rw [hc]
  dsimp only
  rw [if_neg hgo, hop]
  rfl

include hsrc

theorem asyncEngineTransfer_copied (hdst : bitAt c.aux1 8 = false) {l : List Byte} {u : State}
    (hl : s.agentRead c.agent c.partSrc c.partLen = .ok l)
    (hu : (s.agentTook c.agent c.partSrc c.partLen).engineWrite c.agent c.partDst l = .ok u) :
    Completes (.asyncEngineTransfer id) s (fun t => t.mem = u.mem ∧ ∃ e, t.acmd id = some e ∧
      e.done = c.done + c.partLen ∧ (c.len.toNat ≤ c.done + c.partLen → e.ended = true ∧ e.status = 0)) := by
  have hcopy : s.copyPart c = u.partDone c (c.done + c.partLen) c.len.toNat := by
    unfold ACmd.partSrc at hl hu
    unfold ACmd.partDst at hu
    unfold State.copyPart
    dsimp only
    rw [if_neg (fun h => absurd (hsrc.symm.trans h.1) Bool.false_ne_true), hl]
    dsimp only
    rw [if_neg (fun h => absurd (hdst.symm.trans h.1) Bool.false_ne_true), hu]
  have hacmd : u.acmd c.id = some c := by
    rw [State.acmd_of_acmds ((State.engineWrite_acmds hu).trans (State.agentTook_acmds ..)), State.acmd_id hc, hc]
  refine completes_of_next (asyncEngineTransfer_copies hc hr ho he hwait hop) ?_
  rw [hcopy, ← State.acmd_id hc]
  exact ⟨State.partDone_mem .., State.partDone_acmd hacmd ..⟩

theorem asyncEngineTransfer_faults {e : Nat × W64} (hl : s.agentRead c.agent c.partSrc c.partLen = .error e)
    (hne : e.1 ≠ cWAIT) : Completes (.asyncEngineTransfer id) s (fun t => t.mem = s.mem ∧
      ∃ a, t.acmd id = some a ∧ a.ended = true ∧ a.status = faultStatus e.1 ∧ a.faddr = e.2) := by
  have hcopy : s.copyPart c = s.endCmd c (faultStatus e.1) e.1 e.2 := by
    unfold ACmd.partSrc at hl
    unfold State.copyPart
    dsimp only
    rw [if_neg (fun h => absurd (hsrc.symm.trans h.1) Bool.false_ne_true), hl]
    exact if_neg hne
  refine completes_of_next (asyncEngineTransfer_copies hc hr ho he hwait hop) ?_
  rw [hcopy, ← State.acmd_id hc]
  exact ⟨rfl, _, State.endCmd_acmd ((State.acmd_id hc).symm ▸ hc) .., rfl, rfl, rfl⟩

end

end Sys2Proof.Machine
end

section
/-!
SUPPORT. Collective data (R394): data that agree are taken, and a disagreement ends the group's members.
-/

namespace Sys2Proof.Machine

open Sys2Proof

/-! ## A group that ends with MISMATCH -/

/-- The command, ended with MISMATCH. -/
def ACmd.mismatched (c : ACmd) : ACmd := c.endedWith 3 0 0

theorem State.endCmd_acmds_single {s : State} {c : ACmd} (h : s.acmds = [c]) :
    (s.endCmd c 3 0 0).acmds = [c.mismatched] := by
  have hset : (s.endCmd c 3 0 0).acmds = s.acmds.map (fun x => if x.id = c.id then c.mismatched else x) := rfl
  rw [hset, h]
  exact congrArg (fun x => [x]) (if_pos rfl)

section
variable {s : State} {x : ACmd} (q : Nat) (gtag : W64) (rank : Nat) (sender rcpt : W32) (sent : Bool)

/-- `x` is a command that this abort is for. -/
def ACmd.abortedBy (x : ACmd) : Bool :=
  x.op == 3 && x.prt == q && x.sent && x.me == rcpt && x.inGroup gtag rank sender

theorem State.collAbort_pkg (s : State) : (s.collAbort q gtag rank sender rcpt sent).pkg = s.pkg := by
  unfold State.collAbort
  extract_lets cs d
  split
  · exact List.foldlRecOn (motive := fun t : State => t.pkg = s.pkg) _ _ rfl (fun t ht c _ => ht)
  · split
    · rfl
    · rfl

/-- An abort ends the commands that it is for. -/
theorem State.collAbort_acmds (s : State) : (s.collAbort q gtag rank sender rcpt sent).acmds =
    (((s.acmds.filter (ACmd.abortedBy q gtag rank sender rcpt)).filter (fun c => !c.ended)).foldl
      (fun t c => t.endCmd c 3 0 0) s).acmds := by
  have hcs : s.acmds.filter (fun c => c.op == 3 && c.prt == q && c.sent && c.me == rcpt && c.inGroup gtag rank sender) =
    s.acmds.filter (ACmd.abortedBy q gtag rank sender rcpt) := rfl
  unfold State.collAbort
  rw [hcs]
  cases s.acmds.filter (ACmd.abortedBy q gtag rank sender rcpt) with
  | nil =>
    dsimp only [List.isEmpty_nil, Bool.not_true]
    split
    · next h => exact absurd h Bool.false_ne_true
    · split
      · rfl
      · rfl
  | cons => rfl

theorem State.collAbort_of_not_abortedBy (h : s.acmds = [x]) (hb : x.abortedBy q gtag rank sender rcpt = false) :
    (s.collAbort q gtag rank sender rcpt sent).acmds = [x] := by
  rw [State.collAbort_acmds, h, List.filter_cons_of_neg (by simp [hb])]
  exact h

theorem State.collAbort_of_ended (h : s.acmds = [x]) (he : x.ended = true) :
    (s.collAbort q gtag rank sender rcpt sent).acmds = [x] := by
  cases hb : x.abortedBy q gtag rank sender rcpt with
  | false => exact State.collAbort_of_not_abortedBy _ _ _ _ _ _ h hb
  | true =>
    rw [State.collAbort_acmds, h, List.filter_cons_of_pos hb, List.filter_cons_of_neg (by simp [he])]
    exact h

theorem State.collAbort_ends (h : s.acmds = [x]) (he : x.ended = false)
    (hb : x.abortedBy q gtag rank sender rcpt = true) :
    (s.collAbort q gtag rank sender rcpt sent).acmds = [x.mismatched] := by
  rw [State.collAbort_acmds, h, List.filter_cons_of_pos hb, List.filter_cons_of_pos (by simp [he])]
  exact State.endCmd_acmds_single h

/-- With one command outstanding an abort leaves it, or ends it. -/
theorem State.collAbort_cases (he : x.ended = false) (h : s.acmds = [x] ∨ s.acmds = [x.mismatched]) :
    (s.collAbort q gtag rank sender rcpt sent).acmds = [x] ∨
      (s.collAbort q gtag rank sender rcpt sent).acmds = [x.mismatched] := by
  obtain h | h := h
  · cases hb : x.abortedBy q gtag rank sender rcpt with
    | true => exact .inr (State.collAbort_ends _ _ _ _ _ _ h he hb)
    | false => exact .inl (State.collAbort_of_not_abortedBy _ _ _ _ _ _ h hb)
  · exact .inr (State.collAbort_of_ended _ _ _ _ _ _ h rfl)

end

/-- The abort of command `c` at rank `r` of its group. -/
def State.abortAt (c : ACmd) (s : State) (r : Nat) : State :=
  let w := c.members.getD r 0
  if sitePkg w = s.pkg then s.collAbort c.prt c.gtag c.rank c.me w (c.got.any (fun x => x.1 == r))
  else s.sendFrom c.prt (sitePkg w) .collective
    (.collAbort c.gtag c.rank c.me w (c.got.any (fun x => x.1 == c.rank)))

theorem State.abortAll_eq (s : State) (c : ACmd) :
    s.abortAll c = (List.range c.members.length).foldl (State.abortAt c) s := rfl

section
variable {s : State} {c : ACmd} (hc : s.acmds = [c]) (hop : c.op = 3) (he : c.ended = false) (hs : c.sent = true)
include hc hop he hs

/-- The aborts of the ranks below `n` of a group of this package: the command's own rank ends it. -/
theorem State.abortAts_single (hl : ∀ w ∈ c.members, sitePkg w = s.pkg) {n : Nat} (hn : n ≤ c.members.length) :
    let t := (List.range n).foldl (State.abortAt c) s
    t.pkg = s.pkg ∧ (t.acmds = [c] ∨ t.acmds = [c.mismatched]) ∧ (c.rank < n → t.acmds = [c.mismatched]) := by
  induction n with
  | zero => exact ⟨rfl, .inl hc, fun h => absurd h (Nat.not_lt_zero _)⟩
  | succ n ih =>
    obtain ⟨hpkg, hone, hended⟩ := ih (Nat.le_of_succ_le hn)
    rw [List.range_succ, List.foldl_concat]
    generalize (List.range n).foldl (State.abortAt c) s = t at hpkg hone hended ⊢
    have hmem : c.members.getD n 0 ∈ c.members := by
      rw [List.getD_eq_getElem _ _ hn]
      exact List.getElem_mem hn
    have hat : State.abortAt c t n =
        t.collAbort c.prt c.gtag c.rank c.me (c.members.getD n 0) (c.got.any (fun x => x.1 == n)) :=
      if_pos ((hl _ hmem).trans hpkg.symm)
    rw [hat]
    refine ⟨(State.collAbort_pkg ..).trans hpkg, State.collAbort_cases _ _ _ _ _ _ he hone, fun hlt => ?_⟩
    by_cases hr : c.rank = n
    · have hown : c.abortedBy c.prt c.gtag c.rank c.me (c.members.getD n 0) = true := by
        simp [ACmd.abortedBy, ACmd.inGroup, ACmd.me, hop, hs, hr]
      obtain h | h := hone
      · exact State.collAbort_ends _ _ _ _ _ _ h he hown
      · exact State.collAbort_of_ended _ _ _ _ _ _ h rfl
    · exact State.collAbort_of_ended _ _ _ _ _ _ (hended (by omega)) rfl

theorem State.abortAll_single (hl : c.remotes s.pkg = []) (hr : c.rank < c.members.length) :
    (s.abortAll c).acmds = [c.mismatched] := by
  have hlocal : ∀ w ∈ c.members, sitePkg w = s.pkg := by
    intro w hw
    by_contra hne
    exact absurd (List.filter_eq_nil_iff.1 hl w hw) (by simp [hne])
  rw [State.abortAll_eq]
  exact (State.abortAts_single hc hop he hs hlocal (Nat.le_refl _)).2.2 hr

end

/-! ## Data that arrive -/

/-- The data of a rank are of the command's own collective (R394). -/
def ACmd.agrees (c : ACmd) (gtag : W64) (n len op fmt red : Nat) : Bool :=
  c.gtag == gtag && c.n == n && c.len.toNat == len && collOp c == op && fld c.aux1 7 4 == fmt && collRed c == red

/-- The command with the data of a rank. -/
def ACmd.taking (c : ACmd) (rank : Nat) (data : List Byte) : ACmd := { c with got := c.got ++ [(rank, data)] }

section
variable {s : State} {c : ACmd} {id rank n len op fmt red : Nat} {gtag : W64} {data : List Byte} (hc : s.acmds = [c])
  (hid : c.id = id) (hop : c.op = 3) (he : c.ended = false) (hs : c.sent = true)
include hc hid hop he hs

theorem collectiveDataReceive_eq : exec (.collectiveDataReceive id rank gtag n len op fmt red data) s = .next (
    if c.gtag ≠ gtag then s.abortAll c
    else s.collArrive c.prt rank gtag n len op fmt red data (c.members.getD rank 0) c.me) := by
  have hfound : s.acmd id = some c := by simp [State.acmd, hc, hid]
  have hgo : ¬(c.op ≠ 3 ∨ c.ended = true ∨ (!c.sent) = true) := by simp [hop, he, hs]
  refine congrArg Host.Outcome.next ?_
  rw [hfound]
  exact if_neg hgo

omit hid in
theorem State.collArrive_single (hg : ∀ e ∈ c.got, e.1 ≠ rank) (sender : W32) :
    s.collArrive c.prt rank c.gtag n len op fmt red data sender c.me =
      if c.agrees c.gtag n len op fmt red then (s.setCmd (c.taking rank data)).pokeCmd (c.taking rank data)
      else s.abortAll c := by
  have hnew : c.got.any (fun x => x.1 == rank) = false := by simpa using hg
  have hmine : s.acmds.filter (fun x => x.op == 3 && !x.ended && x.prt == c.prt && x.sent && x.me == c.me &&
      !x.got.any (fun y => y.1 == rank)) = [c] := by
    simp [hc, hop, he, hs, hnew]
  have hpick : [c].find? (fun x => x.gtag == c.gtag) = some c := by simp
  unfold State.collArrive
  rw [hmine]
  dsimp only
  rw [hpick]
  rfl

theorem collectiveDataReceive_takes (ha : c.agrees gtag n len op fmt red = true) (hg : ∀ e ∈ c.got, e.1 ≠ rank) :
    Completes (.collectiveDataReceive id rank gtag n len op fmt red data) s (fun t =>
      t.acmds = [c.taking rank data] ∧ t.mem = s.mem) := by
  have htag : c.gtag = gtag := by
    simp only [ACmd.agrees, Bool.and_eq_true, beq_iff_eq] at ha
    exact ha.1.1.1.1.1
  subst htag
  refine completes_of_next (collectiveDataReceive_eq hc hid hop he hs) ?_
  rw [if_neg (not_not.2 rfl), State.collArrive_single hc hop he hs hg, if_pos ha]
  have hset : (s.setCmd (c.taking rank data)).acmds =
      s.acmds.map (fun x => if x.id = c.id then c.taking rank data else x) := rfl
  refine ⟨hset.trans ?_, rfl⟩
  rw [hc]
  exact congrArg (fun x => [x]) (if_pos rfl)

theorem collectiveDataReceive_aborts
    (hd : gtag ≠ c.gtag ∨ ((∀ e ∈ c.got, e.1 ≠ rank) ∧ (n ≠ c.n ∨ len ≠ c.len.toNat))) (hl : c.remotes s.pkg = [])
    (hr : c.rank < c.members.length) : Completes (.collectiveDataReceive id rank gtag n len op fmt red data) s (fun t =>
      ∃ e, t.acmds = [e] ∧ e.ended = true ∧ e.status = 3) := by
  refine completes_of_next (t := s.abortAll c) ?_ ⟨c.mismatched, State.abortAll_single hc hop he hs hl hr, rfl, rfl⟩
  rw [collectiveDataReceive_eq hc hid hop he hs]
  by_cases htag : gtag = c.gtag
  · obtain ⟨hg, hne⟩ := hd.resolve_left (not_not.2 htag)
    have hdis : ¬(c.agrees c.gtag n len op fmt red = true) := by
      intro ha
      simp only [ACmd.agrees, Bool.and_eq_true, beq_iff_eq] at ha
      obtain ⟨⟨⟨⟨⟨-, hn⟩, hlen⟩, -⟩, -⟩, -⟩ := ha
      exact hne.elim (fun h => h hn.symm) (fun h => h hlen.symm)
    rw [htag, if_neg (not_not.2 rfl), State.collArrive_single hc hop he hs hg, if_neg hdis]
  · rw [if_pos (Ne.symm htag)]

end

end Sys2Proof.Machine
end

section
open Sys2Proof Sys2Proof.Machine

/-- Settles O55: the arbiter and its sums, the drains, the parts and completions of async commands, and the collective
data, a clause each. -/
theorem engineEvents : Obligations.EngineEvents := by
  intro s m k id queue ends sums
  refine ⟨?grant, ?done, ?fabric, ?drainStart, ?drainWrite, ?async, ?collective⟩
  case grant =>
    intro c streak g hfab hr hg hp hh hf
    exact ⟨fun rc => kStepGrant_grants hr hg hp hh hf hfab, fun e => kStepGrant_ends hr hg hp hh hf hfab⟩
  case done =>
    intro c g rc hfab hm hg hf
    exact kStepDone_sums hm hg hf hfab
  case fabric =>
    intro q sl r f g hfab hg hm rc
    exact ⟨kStepGrant_grantsFabric hfab hg hm, kStepDone_sumsFabric hfab hg hm⟩
  case drainStart =>
    intro c hr hk h ho hrow
    exact ⟨drainRowStart_direct hr hk h ho hrow, fun i => drainRowStart_handler hr hk h ho hrow⟩
  case drainWrite =>
    intro c g hr hk h ho hrel hg
    exact ⟨fun u hp => drainRowWrite_stores hr hk h ho hrel hg hp,
      fun e hp => drainRowWrite_faults hr hk h ho hrel hg hp, drainRowWrite_poisoned hr hk h ho hrel hg⟩
  case async =>
    intro c hc hr ho
    refine ⟨fun he h1 hw => ?_, fun he hwait hop hsrc hdst => ⟨fun l u hl hu => ?_, fun e hl hne => ?_⟩⟩
    · obtain ⟨t, hx, ht⟩ := asyncCommandComplete_wakes hc hr ho he h1
      exact completes_of_next hx ⟨completed_acmds ht, completed_thread ht hw, completed_uncounted ht,
        fun p b => completed_counted ht hw⟩
    · exact asyncEngineTransfer_copied hc hr ho he hwait hop hsrc hdst hl hu
    · exact asyncEngineTransfer_faults hc hr ho he hwait hop hsrc hl hne
  case collective =>
    intro c rank gtag n len op fmt red data hc hid hop he hs
    refine ⟨fun htag hn hlen hcop hfmt hred hg => ?_, collectiveDataReceive_aborts hc hid hop he hs⟩
    have ha : c.agrees gtag n len op fmt red = true := by
      simp [ACmd.agrees, htag, hn, hlen, hcop, hfmt, hred]
    exact collectiveDataReceive_takes hc hid hop he hs ha hg

end

section
/-!
SUPPORT. The canonical form of memory (R80, R216) is kept by every operation of the model. `State.Inv` speaks of the bytes
alone, so an operation that leaves them alone keeps it (`State.Inv.of_mem`), and one that writes them does so through
`Memory.set`, `Memory.writeList`, `Memory.zero` or a filter. One lemma per operation, named after it, says that it keeps
the form; a step is a composition of operations, and its proof the composition of their lemmas.
-/

namespace Sys2Proof.Machine

open Sys2Proof

variable {s t : State}

theorem State.Inv.of_mem (h : s.Inv) (e : t.mem = s.mem) : t.Inv := by
  unfold State.Inv
  rw [e]
  exact h

theorem State.Inv.of_snd {α : Type} {x : α × State} {a : α} (h : x.2.Inv) (e : x = (a, t)) : t.Inv := by
  rwa [e] at h

theorem State.Inv.ite {c : Prop} [Decidable c] (h : s.Inv) (k : t.Inv) : (if c then s else t).Inv := by
  split
  · exact h
  · exact k

theorem State.Inv.foldl {β : Type} {f : State → β → State} {l : List β} (h : s.Inv)
    (hf : ∀ s b, s.Inv → (f s b).Inv) : (l.foldl f s).Inv :=
  l.foldlRecOn f h fun t ht b _ => hf t b ht

/-- The state a result goes on in, if it goes on, has its memory in canonical form. -/
def KeepsMemory (r : Result) : Prop := ∀ t, r = .next t → t.Inv

theorem KeepsMemory.next (h : s.Inv) : KeepsMemory (.next s) := by
  rintro _ ⟨⟩
  exact h

theorem KeepsMemory.fault {f : Fault} : KeepsMemory (.fault f) := fun _ h => nomatch h

theorem KeepsMemory.refused {f : Refusal} : KeepsMemory (.refused f) := fun _ h => nomatch h

theorem KeepsMemory.ite {c : Prop} [Decidable c] {x y : Result} (h : KeepsMemory x) (k : KeepsMemory y) :
    KeepsMemory (if c then x else y) := by
  split
  · exact h
  · exact k

end Sys2Proof.Machine
end

section
/-!
SUPPORT. Memory stays canonical (R216): the setters of the state, which leave the bytes alone, and the writes to
memory, which keep the form by the laws of `Laws/Mem`.
-/

namespace Sys2Proof.Machine

open Sys2Proof

variable {s t : State}

theorem State.Inv.setThread {t : Nat} {x : Thread} (hs : s.Inv) : (s.setThread t x).Inv := hs

theorem State.Inv.setThr {x : Thread} (hs : s.Inv) : (s.setThr x).Inv := hs.setThread

theorem State.Inv.setCore {c : Nat} {x : Core} (hs : s.Inv) : (s.setCore c x).Inv := hs

theorem State.Inv.setClu {m : Nat} {x : Cluster} (hs : s.Inv) : (s.setClu m x).Inv := hs

theorem State.Inv.setPrt {q : Nat} {x : Prt} (hs : s.Inv) : (s.setPrt q x).Inv := hs

theorem State.Inv.setRegion {q sl : Nat} {x : Region} (hs : s.Inv) : (s.setRegion q sl x).Inv := hs

theorem State.Inv.post {e : Instr} (hs : s.Inv) : (s.post e).Inv := hs

theorem State.Inv.draw (hs : s.Inv) : s.draw.2.Inv := by
  unfold State.draw
  exact hs

theorem State.Inv.choice (hs : s.Inv) : s.choice.2.Inv := by
  unfold State.choice
  exact hs

theorem State.Inv.newId (hs : s.Inv) : s.newId.2.Inv := by
  unfold State.newId
  exact hs

theorem State.Inv.irq {fn vec : Nat} (hs : s.Inv) : (s.irq fn vec).Inv := hs

theorem State.Inv.emitOut {o : Out} (hs : s.Inv) : (s.emitOut o).Inv := hs

theorem State.Inv.pokeCtx {q : Nat} (hs : s.Inv) : (s.pokeCtx q).Inv := by
  unfold State.pokeCtx
  split
  · exact hs.post
  · exact hs.post
  · exact hs.post
  · exact hs.post
  · exact hs

theorem State.Inv.writeHome {a n x : Nat} (hs : s.Inv) : (s.writeHome a n x).Inv := s.wf_writeHome a n x hs

theorem State.Inv.writeBytes {a : Nat} {l : List Byte} (hs : s.Inv) : (s.writeBytes a l).Inv :=
  s.wf_writeBytes a l hs

theorem State.Inv.setFull {a : Nat} {f : Bool} (hs : s.Inv) : (s.setFull a f).Inv := hs

theorem State.Inv.zeroRange {lo hi : Nat} (hs : s.Inv) : (s.zeroRange lo hi).Inv := s.wf_zeroRange lo hi hs

theorem State.Inv.dropCopy {lvl w : Nat} (hs : s.Inv) : (s.dropCopy lvl w).Inv := hs

theorem CachesOnly.inv (h : CachesOnly s t) (hs : s.Inv) : t.Inv := hs.of_mem h.mem

theorem State.Inv.findBlock {d blk : Nat} (hs : s.Inv) : (s.findBlock d blk).Inv :=
  (s.findBlock_caches d blk).inv hs

theorem State.Inv.takeUnit {d q grain : Nat} {hc ex : Bool} {a : Nat} (hs : s.Inv) :
    (s.takeUnit d q grain hc ex a).Inv := (s.takeUnit_caches d q grain hc ex a).inv hs

theorem State.Inv.keepCopies {m : Nat} {p : Part} {w : Nat} (hs : s.Inv) : (s.keepCopies m p w).Inv :=
  (s.keepCopies_caches m p w).inv hs

theorem State.Inv.homeWrote {d : Nat} {p : Part} {w : Nat} (hs : s.Inv) : (s.homeWrote d p w).Inv :=
  (s.homeWrote_caches d p w).inv hs

theorem State.Inv.l1Wrote {m : Nat} {p : Part} {w : Nat} (hs : s.Inv) : (s.l1Wrote m p w).Inv :=
  (s.l1Wrote_caches m p w).inv hs

theorem State.Inv.behind {p : Part} (hs : s.Inv) : (s.behind p).Inv := (s.behind_caches p).inv hs

theorem State.Inv.behindDie {d : Nat} {p : Part} (hs : s.Inv) : (s.behindDie d p).Inv :=
  (s.behindDie_caches d p).inv hs

theorem State.Inv.acquireAt {m scope : Nat} (hs : s.Inv) : (s.acquireAt m scope).Inv :=
  (s.acquireAt_caches m scope).inv hs

theorem State.Inv.releaseAt {d scope : Nat} (hs : s.Inv) : (s.releaseAt d scope).Inv :=
  (s.releaseAt_caches d scope).inv hs

theorem State.Inv.flushRange {lo hi : Nat} (hs : s.Inv) : (s.flushRange lo hi).Inv := hs

theorem State.Inv.deviceWrite {a : Nat} {l : List Byte} (hs : s.Inv) : (s.deviceWrite a l).Inv := by
  unfold State.deviceWrite
  exact hs.writeBytes.of_mem rfl

end Sys2Proof.Machine
end

section
/-!
SUPPORT. Memory stays canonical: homes and the caches above them (R217 to R226). The caches leave the bytes alone
(`CachesOnly`); accesses read them and store through `State.writeHome`.
-/

namespace Sys2Proof.Machine

open Sys2Proof

variable {s t : State}

theorem State.Inv.touch {t va n : Nat} (hs : s.Inv) : (s.touch t va n).Inv := by
  unfold State.touch
  exact .foldl hs fun _ _ hs => hs.setCore

theorem State.Inv.replyReg {t : Nat} {d : Dest} {x : V256} (hs : s.Inv) : (s.replyReg t d x).Inv := by
  unfold State.replyReg
  exact hs.setThread

theorem State.Inv.replyGo {t : Nat} (hs : s.Inv) : (s.replyGo t).Inv := by
  unfold State.replyGo
  exact hs.setThread

theorem State.Inv.takeLate (hs : s.Inv) : s.takeLate.Inv := hs

theorem State.Inv.loadPart {m : Nat} {p : Part} (hs : s.Inv) : (s.loadPart m p).2.Inv := by
  unfold State.loadPart
  exact .ite (.foldl hs fun _ _ hs => hs.keepCopies) hs

theorem State.Inv.acqPart {m : Nat} {p : Part} (hs : s.Inv) : (s.acqPart m p).2.Inv := by
  unfold State.acqPart
  split
  · extract_lets +onlyGivenNames s1
    have h1 : s1.Inv := by
      unfold s1
      refine hs.foldl fun _ _ hs => ?_
      split
      · exact .ite hs hs.dropCopy.keepCopies
      · exact hs.keepCopies
    exact h1
  · exact hs

theorem State.Inv.storePart {m : Nat} {p : Part} {x : Nat} (hs : s.Inv) : (s.storePart m p x).Inv := by
  unfold State.storePart
  extract_lets +onlyGivenNames s1
  have h1 : s1.Inv := hs.behind.behindDie.writeHome
  exact .ite (.foldl h1 fun _ _ hs => hs.l1Wrote) h1

theorem State.Inv.homeAccess {m : Nat} {p : Part} (hs : s.Inv) : (s.homeAccess m p).Inv :=
  (s.homeAccess_caches m p).inv hs

theorem State.Inv.relPart {m : Nat} {p : Part} {x : Nat} (hs : s.Inv) : (s.relPart m p x).Inv := by
  unfold State.relPart
  exact .ite (.foldl hs.homeAccess.writeHome fun _ _ hs => hs.keepCopies) hs.writeHome

theorem State.Inv.loadParts {m : Nat} {acq : Bool} {ps : List Part} (hs : s.Inv) :
    (s.loadParts m acq ps).2.Inv := by
  induction ps generalizing s with
  | nil => exact hs
  | cons p r ih =>
    unfold State.loadParts
    cases acq
    · exact ih hs.loadPart
    · exact ih hs.acqPart

theorem State.Inv.storeParts {m : Nat} {rel : Bool} {ps : List Part} {x : Nat} (hs : s.Inv) :
    (s.storeParts m rel ps x).Inv := by
  induction ps generalizing s x with
  | nil => exact hs
  | cons p r ih => exact ih (.ite hs.relPart hs.storePart)

theorem State.Inv.unserved {w : Waiter} (hs : s.Inv) : (s.unserved w).Inv := hs.setThread

theorem State.Inv.serve {w : Waiter} (hs : s.Inv) : (s.serve w).Inv := by
  unfold State.serve
  split
  · exact hs.unserved
  · extract_lets +onlyGivenNames m s1 old t _ s2
    have h2 : s2.Inv := by
      unfold s2
      split
      · exact .replyReg (.ite hs.homeAccess.setFull hs.homeAccess)
      · exact hs.homeAccess.writeHome.setFull
      · exact hs.homeAccess.writeHome.replyReg
      · exact hs.homeAccess.replyReg
      · exact hs.homeAccess.setThread
    exact .replyGo (.ite h2.acquireAt h2)

theorem State.Inv.serveN {a n : Nat} (hs : s.Inv) : (s.serveN a n).Inv := by
  induction n generalizing s with
  | zero => exact hs
  | succ n ih =>
    unfold State.serveN
    split
    · exact ih (.serve hs)
    · exact hs

theorem State.Inv.serveWord {a : Nat} (hs : s.Inv) : (s.serveWord a).Inv := hs.serveN

theorem State.Inv.serveRange {a n : Nat} (hs : s.Inv) : (s.serveRange a n).Inv := by
  unfold State.serveRange
  exact .ite hs (.foldl hs fun _ _ hs => hs.serveWord)

theorem State.Inv.serveParts {ps : List Part} (hs : s.Inv) : (s.serveParts ps).Inv := by
  unfold State.serveParts
  exact .foldl hs fun _ _ hs => hs.serveRange

theorem State.Inv.deviceStore {a : Nat} {l : List Byte} (hs : s.Inv) : (s.deviceStore a l).Inv :=
  hs.deviceWrite.serveRange

theorem State.Inv.freeBytes {n : Nat} (hs : s.Inv) : (s.freeBytes n).2.Inv := by
  unfold State.freeBytes
  exact hs

theorem State.Inv.prtStore {q pa f : Nat} {l : List Byte} (hs : s.Inv) : (s.prtStore q pa f l).Inv := by
  induction f generalizing s pa l with
  | zero => exact hs
  | succ f ih =>
    refine ih ?_
    split
    · exact hs.deviceStore
    · exact hs

theorem State.Inv.agentTook {a : Agent} {va n : Nat} (hs : s.Inv) : (s.agentTook a va n).Inv := by
  unfold State.agentTook
  split
  · exact .foldl hs fun _ _ hs => .ite (.foldl hs fun _ _ hs => hs.takeUnit) hs
  · exact hs

theorem State.Inv.agentPut {d : Nat} {p : Part} {l : List Byte} (hs : s.Inv) : (s.agentPut d p l).Inv := by
  unfold State.agentPut
  exact .deviceStore (.ite (.foldl hs fun _ _ hs => hs.takeUnit) hs)

theorem State.Inv.agentWrite {a : Agent} {va : Nat} {l : List Byte} (hs : s.Inv) (h : s.agentWrite a va l = .ok t)
    :
    t.Inv := by
  unfold State.agentWrite at h
  split at h
  case h_1 ps _ =>
    cases h
    exact ps.foldlRecOn (motive := fun x : State × List Byte => x.1.Inv) _ hs fun _ hx _ _ => hx.agentPut
  all_goals cases h

end Sys2Proof.Machine
end

section
/-!
SUPPORT. Memory stays canonical: fault records, results and the messages that leave for the host.
-/

namespace Sys2Proof.Machine

open Sys2Proof

variable {s t : State}

theorem State.Inv.irqVfs {q vec : Nat} (hs : s.Inv) : (s.irqVfs q vec).Inv := hs

theorem State.Inv.hifError {bit : Nat} (hs : s.Inv) : (s.hifError bit).Inv := by
  unfold State.hifError
  exact .ite hs (.irq hs)

theorem State.Inv.setLink {n : Nat} {l : Link} (hs : s.Inv) : (s.setLink n l).Inv := hs

theorem State.Inv.linkDrop {n : Nat} (hs : s.Inv) : (s.linkDrop n).Inv := by
  unfold State.linkDrop
  exact hs.setLink

theorem State.Inv.pushOut {n : Nat} {f : Flit} (hs : s.Inv) : (s.pushOut n f).Inv := by
  unfold State.pushOut
  exact .post (.setLink hs)

theorem State.Inv.sendNotice {f : Flit} (hs : s.Inv) : (s.sendNotice f).Inv := by
  unfold State.sendNotice
  extract_lets +onlyGivenNames req
  split
  · clear_value req
    split
    · exact hs.post
    · exact hs
  · extract_lets +onlyGivenNames g
    split
    · exact hs.pushOut
    · exact hs.linkDrop

theorem State.Inv.dropNoroute {arrived : Option Nat} {f : Flit} (hs : s.Inv) : (s.dropNoroute arrived f).Inv :=
  hs.linkDrop.sendNotice

theorem State.Inv.sendFlit {arrived : Option Nat} {f : Flit} (hs : s.Inv) : (s.sendFlit arrived f).Inv := by
  unfold State.sendFlit
  split
  · exact hs.pushOut
  · exact hs.dropNoroute

theorem State.Inv.sendFrom {q dst : Nat} {cls : FClass} {p : Payload} (hs : s.Inv) :
    (s.sendFrom q dst cls p).Inv := by
  unfold State.sendFrom
  exact .ite hs.sendFlit hs

theorem State.Inv.propagate {p : Payload} (hs : s.Inv) : (s.propagate p).Inv := by
  unfold State.propagate
  exact .foldl hs fun _ _ hs => .ite hs.pushOut hs

theorem State.Inv.clapperAt {src : Nat} {die : Option Nat} (hs : s.Inv) : (s.clapperAt src die).Inv := by
  unfold State.clapperAt
  exact .ite (.ite (.propagate (.irq hs)) (.irq hs)) hs

theorem State.Inv.clapper {src : Nat} (hs : s.Inv) : (s.clapper src).Inv := hs.clapperAt

theorem State.Inv.tocsinAt {cause : Nat} {die : Option Nat} (hs : s.Inv) : (s.tocsinAt cause die).Inv := by
  unfold State.tocsinAt
  extract_lets +onlyGivenNames _ s1
  have h1 : s1.Inv := .ite hs hs
  split
  · extract_lets +onlyGivenNames _ s9 s10
    have h10 : s10.Inv := .ite (.clapperAt h1) h1
    exact .post (.ite h10.propagate h10)
  · exact .ite (.post h1) h1

theorem State.Inv.tocsin {cause : Nat} (hs : s.Inv) : (s.tocsin cause).Inv := hs.tocsinAt

theorem State.Inv.debugEvent {cls code : Nat} {site : Option W32} (hs : s.Inv) :
    (s.debugEvent cls code site).Inv := by
  unfold State.debugEvent
  extract_lets +onlyGivenNames hit act die s1
  have h1 : s1.Inv := .ite hs.clapperAt hs
  exact .ite h1.tocsinAt h1

theorem State.Inv.sendMsg {m : Msg} (hs : s.Inv) : (s.sendMsg m).Inv := hs

theorem State.Inv.managerMsg {q : Nat} {name : W32} {w0 w1 : W64} (hs : s.Inv) :
    (s.managerMsg q name w0 w1).Inv := by
  unfold State.managerMsg
  split
  · exact hs
  · split
    · exact hs
    · exact hs.sendMsg

theorem State.Inv.waitiEvent {bit : Nat} {f : Nat → Thread → Bool} (hs : s.Inv) : (s.waitiEvent bit f).Inv := hs

theorem State.Inv.waitiPrt {q bit : Nat} (hs : s.Inv) : (s.waitiPrt q bit).Inv := hs.waitiEvent

theorem State.Inv.report {q vec : Nat} (hs : s.Inv) : (s.report q vec).Inv := hs.irqVfs.waitiPrt

theorem State.Inv.faultRecord {q : Nat} {site : W32} {rec : List Byte} (hs : s.Inv) :
    (s.faultRecord q site rec).Inv := by
  unfold State.faultRecord
  extract_lets +onlyGivenNames p lg used a
  split
  · exact hs.setPrt
  · extract_lets +onlyGivenNames s1
    have h1 : s1.Inv := hs.deviceStore.setPrt
    extract_lets +onlyGivenNames s4 s5
    have h5 : s5.Inv := .ite h1.waitiPrt.irqVfs h1.waitiPrt
    exact .ite h5.managerMsg h5

end Sys2Proof.Machine
end

section
/-!
SUPPORT. Memory stays canonical: counters, phases and what the end of a unit of work resolves (R117 to R131).
-/

namespace Sys2Proof.Machine

open Sys2Proof

variable {s t : State}

theorem State.Inv.pokeReads {q : Nat} (hs : s.Inv) : (s.pokeReads q).Inv := by
  unfold State.pokeReads
  exact .foldl hs fun _ _ hs => .ite hs.post hs

theorem State.Inv.setCntr {q lvl i : Nat} {c : Cntr} (hs : s.Inv) : (s.setCntr q lvl i c).Inv := hs.setPrt

theorem State.Inv.childDone {q lvl i : Nat} {st : CStat} {reason : Nat} (hs : s.Inv) :
    (s.childDone q lvl i st reason).Inv := hs.setCntr

theorem State.Inv.childAdded {q lvl i : Nat} (hs : s.Inv) : (s.childAdded q lvl i).Inv := by
  unfold State.childAdded
  exact .ite hs.setCntr hs

theorem State.Inv.writeBack {q root va : Nat} {w : W64} (hs : s.Inv) (h : s.writeBack q root va w = some t) :
    t.Inv := by
  unfold State.writeBack at h
  split at h
  · split at h
    · cases h
    · split at h
      · cases h
        exact hs.agentWrite ‹_›
      · cases h
  · cases h

theorem State.Inv.takeStatus {q lvl i : Nat} (hs : s.Inv) : (s.takeStatus q lvl i).Inv := by
  unfold State.takeStatus
  exact .ite hs.setCntr.debugEvent (.ite hs.setCntr.debugEvent hs.setCntr)

theorem State.Inv.resolveLaunch {q i : Nat} (hs : s.Inv) : (s.resolveLaunch q i).Inv := by
  unfold State.resolveLaunch
  extract_lets +onlyGivenNames s1 r c _ s2
  have h2 : s2.Inv := by
    unfold s2
    split
    · split
      · exact .pokeReads (.setCntr (hs.takeStatus.writeBack ‹_›))
      · exact hs.takeStatus
    · exact hs.takeStatus
  exact h2.newId.setPrt.childDone

theorem State.Inv.resolveGraph {q i : Nat} (hs : s.Inv) : (s.resolveGraph q i).Inv := by
  unfold State.resolveGraph
  exact hs.takeStatus.setPrt.childDone

theorem State.Inv.resolvePhase {q i : Nat} (hs : s.Inv) : (s.resolvePhase q i).Inv := by
  unfold State.resolvePhase
  extract_lets +onlyGivenNames s1 c r jr s2
  have h2 : s2.Inv := by
    unfold s2
    split
    · split
      · exact hs.takeStatus.agentWrite ‹_›
      · exact hs.takeStatus
    · exact hs.takeStatus
  exact .ite (.ite h2.setPrt.childDone.post h2.setPrt.childDone) h2.setPrt.childDone.setCntr

theorem State.Inv.resolveJob {q i : Nat} (hs : s.Inv) : (s.resolveJob q i).Inv := by
  unfold State.resolveJob
  extract_lets +onlyGivenNames s1 c r s2
  have h2 : s2.Inv := by
    unfold s2
    split
    · split
      · exact .setCntr (hs.takeStatus.writeBack ‹_›)
      · exact hs.takeStatus
    · exact hs.takeStatus
  exact .ite h2.irqVfs h2

theorem State.Inv.depPass {q : Nat} (hs : s.Inv) : (s.depPass q).Inv := by
  unfold State.depPass
  exact .ite (.ite hs.newId.setPrt.post hs.newId.setPrt) hs

theorem State.Inv.resolve {q lvl i : Nat} (hs : s.Inv) : (s.resolve q lvl i).Inv := by
  unfold State.resolve
  split
  · exact hs.resolveLaunch
  · exact hs.resolveGraph
  · exact hs.resolvePhase
  · exact hs.resolveJob

theorem State.Inv.settleN {q n : Nat} (hs : s.Inv) : (s.settleN q n).Inv := by
  induction n generalizing s with
  | zero => exact hs
  | succ n ih =>
    unfold State.settleN
    extract_lets s1
    split
    · exact ih hs.depPass.resolve
    · exact hs.depPass

theorem State.Inv.settle {q : Nat} (hs : s.Inv) : (s.settle q).Inv := by
  unfold State.settle
  exact hs.settleN

theorem State.Inv.unitEnd {q lslot : Nat} {st : CStat} {reason : Nat} (hs : s.Inv) :
    (s.unitEnd q lslot st reason).Inv := by
  unfold State.unitEnd
  exact .ite hs.childDone.settle hs

theorem State.Inv.unitAdd {q lslot : Nat} (hs : s.Inv) : (s.unitAdd q lslot).Inv := by
  unfold State.unitAdd
  exact .ite hs.childAdded hs

theorem State.Inv.performRlx {t : Nat} {r : Rlx} (hs : s.Inv) : (s.performRlx t r).Inv := by
  unfold State.performRlx
  extract_lets +onlyGivenNames m
  split
  · exact hs.loadParts.replyReg
  · exact hs.storeParts
  · split
    · exact hs.homeAccess.writeHome.replyReg
    · exact hs
  · split
    · exact .replyReg (.ite hs.homeAccess.writeHome hs.homeAccess)
    · exact hs
  · split
    · exact hs.homeAccess.writeHome.setFull
    · exact hs
  · split
    · exact hs.homeAccess.setFull
    · exact hs

theorem State.Inv.performAt {t i : Nat} (hs : s.Inv) : (s.performAt t i).Inv := by
  unfold State.performAt
  extract_lets +onlyGivenNames th
  split
  · exact hs
  · exact hs.setThread.performRlx.serveParts

theorem State.Inv.performN {t n : Nat} (hs : s.Inv) : (s.performN t n).Inv := by
  induction n generalizing s with
  | zero => exact hs
  | succ n ih => exact ih hs.performAt

theorem State.Inv.performAll {t : Nat} (hs : s.Inv) : (s.performAll t).Inv := hs.performN

theorem State.Inv.performOverlap {t : Nat} {ps : List Part} (hs : s.Inv) : (s.performOverlap t ps).Inv := by
  unfold State.performOverlap
  exact hs.performN

theorem State.Inv.performPrt {q : Nat} (hs : s.Inv) : (s.performPrt q).Inv := by
  unfold State.performPrt
  exact .foldl hs fun _ _ hs => .ite hs.performAll hs

theorem State.Inv.withdraw {t : Nat} (hs : s.Inv) : (s.withdraw t).Inv := by
  unfold State.withdraw
  extract_lets +onlyGivenNames c _ s1
  have h1 : s1.Inv := by
    unfold s1
    split
    · exact hs.setThread
    · exact hs
  exact .setCore h1

theorem State.Inv.freeTicket {h : Held} (hs : s.Inv) : (s.freeTicket h).Inv := by
  unfold State.freeTicket
  extract_lets +onlyGivenNames r
  split
  · exact hs.setRegion.post
  · exact hs

theorem State.Inv.releaseRow {m : Nat} {id row : Nat} (hs : s.Inv) : (s.releaseRow m id row).Inv := by
  unfold State.releaseRow
  exact hs.setClu.post

theorem State.Inv.forget {t : Nat} (hs : s.Inv) : (s.forget t).Inv := hs

theorem State.Inv.endThread {t : Nat} {st : CStat} {reason : Nat} (hs : s.Inv) :
    (s.endThread t st reason).Inv := by
  unfold State.endThread
  extract_lets +onlyGivenNames c m s1
  have h1 : s1.Inv := hs.performAll.withdraw.forget
  extract_lets +onlyGivenNames th s9
  have h9 : s9.Inv := by
    unfold s9
    split
    · exact h1.freeTicket
    · exact h1
  extract_lets +onlyGivenNames s10
  have h10 : s10.Inv := by
    unfold s10
    split
    · exact h9.releaseRow
    · exact h9
  extract_lets +onlyGivenNames cl s11 th s12 s13
  have h13 : s13.Inv := .ite h10.setClu.setThread.post h10.setClu.setThread
  exact .pokeCtx (.unitEnd (.ite h13 h13.post))

end Sys2Proof.Machine
end

section
/-!
SUPPORT. Memory stays canonical: operands, full-empty words, traps, and the end of a thread or of a command.
-/

namespace Sys2Proof.Machine

open Sys2Proof

variable {s t : State}

theorem State.Inv.setG {n : GReg} {x : W64} (hs : s.Inv) : (s.setG n x).Inv := hs.setThr

theorem State.Inv.setV {n : VReg} {x : V256} (hs : s.Inv) : (s.setV n x).Inv := hs.setThr

theorem State.Inv.setP {n : PReg} {b : Bool} (hs : s.Inv) : (s.setP n b).Inv := hs.setThr

theorem State.Inv.goto {a : W64} (hs : s.Inv) : (s.goto a).Inv := hs.setThr

theorem State.Inv.adv (hs : s.Inv) : s.adv.Inv := hs.goto

theorem State.Inv.fin {d : GReg} {x : W64} (hs : s.Inv) : (s.fin d x).Inv := hs.setG.adv

theorem State.Inv.finT {t : Nat} {d : GReg} {x : W64} (hs : s.Inv) : (s.finT t d x).Inv := by
  unfold State.finT
  exact hs.setThread

theorem State.Inv.pokeCmd {c : ACmd} (hs : s.Inv) : (s.pokeCmd c).Inv := hs.post

theorem State.Inv.setCmd {c : ACmd} (hs : s.Inv) : (s.setCmd c).Inv := hs

theorem State.Inv.endCmd {c : ACmd} {status cause : Nat} {v : W64} (hs : s.Inv) :
    (s.endCmd c status cause v).Inv := by
  unfold State.endCmd
  exact .pokeCmd (.of_mem hs rfl)

theorem State.Inv.collAbort {q : Nat} {gtag : W64} {rank : Nat} {sender rcpt : W32} {sent : Bool} (hs : s.Inv) :
    (s.collAbort q gtag rank sender rcpt sent).Inv := by
  unfold State.collAbort
  exact .ite (.foldl hs fun _ _ hs => hs.endCmd) (.ite hs hs)

theorem State.Inv.abortAll {c : ACmd} (hs : s.Inv) : (s.abortAll c).Inv := by
  unfold State.abortAll
  exact .foldl hs fun _ _ hs => .ite hs.collAbort hs.sendFrom

theorem State.Inv.stopColls {cs : List ACmd} (hs : s.Inv) : (s.stopColls cs).Inv := by
  unfold State.stopColls
  exact .foldl hs fun _ _ hs => .ite hs.setCmd.abortAll hs

theorem State.Inv.unpin {m : Nat} (hs : s.Inv) : (s.unpin m).Inv := by
  unfold State.unpin
  exact .foldl hs.setClu fun _ _ hs => hs.findBlock

theorem State.Inv.pokeTile {m : Nat} (hs : s.Inv) : (s.pokeTile m).Inv := by
  unfold State.pokeTile
  exact .foldl (.foldl hs.post.post fun _ _ hs => .ite hs hs.post) fun _ _ hs => .ite hs.post hs

theorem State.Inv.stopCommands {fa : ACmd → Bool} {fm : MxCmd → Bool} (hs : s.Inv) :
    (s.stopCommands fa fm).Inv := by
  unfold State.stopCommands
  exact .foldl (hs.stopColls.of_mem rfl) fun _ _ hs => .pokeTile (.ite hs.unpin hs)

end Sys2Proof.Machine
end

section
/-!
SUPPORT. Memory stays canonical: loads, stores, relaxed accesses and atomics (R231 to R240), and the flags of scalar
operations.
-/

namespace Sys2Proof.Machine

open Sys2Proof

variable {s t : State}

theorem State.Inv.stopOf {t : Nat} (hs : s.Inv) : (s.stopOf t).Inv := by
  unfold State.stopOf
  exact hs.stopCommands

theorem State.Inv.killThread {w : W32} {cause : Nat} {tval : W64} (hs : s.Inv) :
    (s.killThread w cause tval).Inv := by
  unfold State.killThread
  exact hs.faultRecord.debugEvent.stopOf.endThread

theorem State.Inv.takeTrap {w : W32} {cause : Nat} {tval : W64} {detail : Nat} (hs : s.Inv) :
    (s.takeTrap w cause tval detail).Inv := by
  unfold State.takeTrap
  exact .ite hs.killThread hs.debugEvent.setThr

theorem State.Inv.trapReturn (hs : s.Inv) : s.trapReturn.Inv := by
  unfold State.trapReturn
  exact hs.setThr

theorem State.Inv.illegal {w : W32} (hs : s.Inv) : (s.illegal w).Inv := hs.takeTrap

theorem State.Inv.privileged {w : W32} (hs : s.Inv) : (s.privileged w).Inv := hs.takeTrap

theorem State.Inv.subnormTrap {w : W32} (hs : s.Inv) : (s.subnormTrap w).Inv := by
  unfold State.subnormTrap
  exact .ite hs.takeTrap hs.debugEvent.setThr

theorem State.Inv.takeUi (hs : s.Inv) : s.takeUi.Inv := by
  unfold State.takeUi
  extract_lets +onlyGivenNames th
  split
  · exact hs
  · exact hs.withdraw.setThr

theorem State.Inv.waitIn {st : SlotSt} {poll : Bool} (hs : s.Inv) : (s.waitIn st poll).Inv := hs.setThr

theorem State.Inv.startWalk {va : Nat} {fetch wr : Bool} (hs : s.Inv) : (s.startWalk va fetch wr).Inv := by
  unfold State.startWalk
  exact hs.setClu.waitIn.post

theorem State.Inv.revokes {w site : W32} {k : State → State} (hs : s.Inv) (hk : ∀ x0, x0.Inv → (k x0).Inv) :
    (s.revokes w site k).Inv := by
  unfold State.revokes
  exact .ite hs.takeTrap (hk _ hs)

theorem State.Inv.access {w : W32} {ak : AccKind} {va n : Nat} {k : List Part → State → State}
    {h : Part → State → State} (hs : s.Inv) (hk : ∀ x0 x1, x1.Inv → (k x0 x1).Inv) (hh : ∀ x0 x1, x1.Inv → (h x0
    x1).Inv) : (s.access w ak va n k h).Inv := by
  unfold State.access
  split
  · exact hs.startWalk
  · exact hs.takeTrap
  · exact .ite hs.waitIn ((hh _ _ hs.touch).takeTrap)
  · split
    · exact hs.waitIn
    · split
      · exact hs.waitIn
      · extract_lets +onlyGivenNames s1
        split
        · exact hs.touch.takeTrap
        · exact hk _ _ hs.touch

theorem State.Inv.countRlx (hs : s.Inv) : s.countRlx.Inv := hs.setThr

theorem State.Inv.issueRlx {r : Rlx} (hs : s.Inv) : (s.issueRlx r).Inv := by
  unfold State.issueRlx
  exact .ite hs.waitIn hs.setThr.adv.post

theorem State.Inv.release {scope : Nat} (hs : s.Inv) : (s.release scope).Inv := hs.performAll.releaseAt

theorem State.Inv.acquire {scope : Nat} (hs : s.Inv) : (s.acquire scope).Inv := hs.acquireAt

theorem State.Inv.doLoad {w : W32} {va n : Nat} {sx acq : Bool} {d : Dest} (hs : s.Inv) :
    (s.doLoad w va n sx acq d).Inv := by
  refine hs.access (fun _ _ hs => ?_) fun _ _ hs => hs
  split
  · exact hs.issueRlx
  · extract_lets s1 s2
    have h2 : s2.Inv := .ite hs.countRlx.performOverlap.acquire hs.countRlx.performOverlap
    exact h2.loadParts.setThr.adv

theorem State.Inv.doStore {w : W32} {va n : Nat} {x : V256} {rel : Bool} (hs : s.Inv) :
    (s.doStore w va n x rel).Inv := by
  unfold State.doStore
  refine hs.access (fun _ _ hs => ?_) fun _ _ hs => ?_
  · split
    · exact hs.issueRlx
    · extract_lets +onlyGivenNames s1
      have h1 : s1.Inv := hs.countRlx.performOverlap
      extract_lets +onlyGivenNames s4 s5
      have h5 : s5.Inv := .storeParts (.ite h1.release h1)
      exact .adv (.serveParts (.ite h5.releaseAt h5))
  · extract_lets +onlyGivenNames s6
    have h6 : s6.Inv := hs.performOverlap
    exact .serveParts (.storeParts (.ite h6.release h6))

theorem State.Inv.aligned {w : W32} {ak : AccKind} {va n : Nat} {k : Unit → State} (hs : s.Inv) (hk : ∀ x0, (k
    x0).Inv) : (s.aligned w ak va n k).Inv := by
  unfold State.aligned
  exact .ite (hk _) hs.takeTrap

theorem State.Inv.atomically {w : W32} {ak : AccKind} {va n : Nat} {k : Part → State → State} (hs : s.Inv) (hk : ∀
    x0 x1, x1.Inv → (k x0 x1).Inv) : (s.atomically w ak va n k).Inv := by
  unfold State.atomically
  refine hs.aligned fun _ => ?_
  refine hs.access (fun _ _ hs => ?_) fun _ _ hs => hs
  split
  · exact hk _ _ hs
  · exact hs

theorem State.Inv.beforeAtomic {p : Part} {rel : Bool} (hs : s.Inv) : (s.beforeAtomic p rel).Inv := by
  unfold State.beforeAtomic
  extract_lets +onlyGivenNames s1
  have h1 : s1.Inv := hs.countRlx.performOverlap
  exact .ite h1.release h1

theorem State.Inv.afterAtomic {p : Part} {acq : Bool} (hs : s.Inv) : (s.afterAtomic p acq).Inv := by
  unfold State.afterAtomic
  exact .adv (.ite hs.serveWord.acquire hs.serveWord)

theorem State.Inv.readRecord {w : W32} {va n : Nat} {k : List Byte → State → State} (hs : s.Inv) (hk : ∀ x0 x1,
    x1.Inv → (k x0 x1).Inv) : (s.readRecord w va n k).Inv :=
  hs.access (fun _ _ hs => hk _ _ hs.performOverlap) fun _ _ hs => hs

theorem State.Inv.orFlags {f : BitVec 5} (hs : s.Inv) : (s.orFlags f).Inv := hs.setThr

theorem State.Inv.checkSub {w : W32} {sub : Bool} {k : Unit → State} (hs : s.Inv) (hk : ∀ x0, (k x0).Inv) :
    (s.checkSub w sub k).Inv := by
  unfold State.checkSub
  exact .ite hs.subnormTrap (hk _)

theorem State.Inv.finF {d : GReg} {r : Nat × FP.Flags} (hs : s.Inv) : (s.finF d r).Inv := hs.orFlags.fin

theorem State.Inv.finV {d : VReg} {x : Nat} {f : FP.Flags} (hs : s.Inv) : (s.finV d x f).Inv :=
  hs.orFlags.setV.adv

end Sys2Proof.Machine
end

section
/-!
SUPPORT. Memory stays canonical: the vector instructions.
-/

namespace Sys2Proof.Machine

open Sys2Proof

variable {s t : State}

theorem State.Inv.vmap {vd va vb : VReg} {w : Nat} {f : Nat → Nat → Nat → Nat × FP.Flags} (hs : s.Inv) :
    (s.vmap vd va vb w f).Inv := by
  unfold State.vmap
  exact hs.finV

theorem State.Inv.vop {w : W32} {vd va vb : VReg} {ty : ETy} {srcs : List V256}
    {f : Nat → Nat → Nat → Nat × FP.Flags} (hs : s.Inv) : (s.vop w vd va vb ty srcs f).Inv :=
  hs.checkSub fun _ => hs.vmap

theorem State.Inv.finGroup {vd : VReg} {xs : List Nat} {f : FP.Flags} (hs : s.Inv) :
    (s.finGroup vd xs f).Inv := by
  unfold State.finGroup
  exact hs.setThr.orFlags.adv

theorem State.Inv.vconvert {w : W32} {vd va : VReg} {f g : Fmt} {rm : Rm} {sat : Bool} {bty : Nat} (hs : s.Inv) :
    (s.vconvert w vd va f g rm sat bty).Inv := by
  unfold State.vconvert
  extract_lets +onlyGivenNames n xs
  refine hs.checkSub fun _ => ?_
  split <;> exact hs.finGroup

theorem State.Inv.execVcvtDesc {vd va : VReg} {g : Fmt} {k : BitVec 2} (hs : s.Inv) :
    KeepsMemory (execVcvtDesc vd va g k s) := by
  unfold Machine.execVcvtDesc
  extract_lets +onlyGivenNames w d
  split
  · exact .next hs.illegal
  · exact .ite (.next hs.illegal) (.next hs.vconvert)

end Sys2Proof.Machine
end

section
/-!
SUPPORT. Memory stays canonical: where packets and threads are placed and how they begin (R132 to R136, R192).
-/

namespace Sys2Proof.Machine

open Sys2Proof

variable {s t : State}

theorem State.Inv.rename {f : Nat → Nat} (hs : s.Inv) : (s.rename f).Inv := hs

theorem State.Inv.enqueue {c : Nat} {pk : Packet} (hs : s.Inv) : (s.enqueue c pk).Inv := by
  unfold State.enqueue
  exact hs.setCore.post

theorem State.Inv.place {pk : Packet} (hs : s.Inv) : (s.place pk).Inv := by
  unfold State.place
  split
  · exact .ite hs.enqueue hs.setPrt
  · exact hs.setPrt

theorem State.Inv.setLeft {q sl : Nat} {l : List Packet} (hs : s.Inv) : (s.setLeft q sl l).Inv := by
  unfold State.setLeft
  exact hs.setPrt

theorem State.Inv.placeTasks {q sl : Nat} {l : List Packet} (hs : s.Inv) : (s.placeTasks q sl l).Inv := by
  induction l generalizing s with
  | nil => exact hs.setLeft
  | cons pk r ih => exact .ite (ih hs.place) hs.setLeft

theorem State.Inv.refill {c : Nat} (hs : s.Inv) : (s.refill c).Inv := by
  unfold State.refill
  split
  · exact hs
  · exact .foldl (.foldl (.foldl hs fun _ _ hs => .ite hs.setPrt.enqueue hs) fun _ _ hs => .ite hs hs.placeTasks)
      fun _ _ hs => .ite hs hs.post

theorem State.Inv.pokeEscapes {q : Nat} (hs : s.Inv) : (s.pokeEscapes q).Inv := by
  unfold State.pokeEscapes
  exact .foldl hs fun _ _ hs => .ite (.foldl hs fun _ _ hs => .ite hs.post hs) hs

theorem State.Inv.startThread {t : Nat} {pk : Packet} {sc : Tbl W64} (hs : s.Inv) :
    (s.startThread t pk sc).Inv := by
  unfold State.startThread
  exact hs.newId.setThread

theorem State.Inv.clearTlb {t : Nat} (hs : s.Inv) : (s.clearTlb t).Inv := by
  unfold State.clearTlb
  exact hs.setCore

theorem State.Inv.beginThread {t : Nat} {pk : Packet} (hs : s.Inv) : (s.beginThread t pk).Inv := by
  unfold State.beginThread
  split
  · split
    · exact .clearTlb (.setThread hs)
    · exact hs.startThread
  · extract_lets va site bad
    have hbad (c : Nat) (v : W64) : (bad c v).Inv := by
      refine .unitEnd ?_
      split
      · exact hs.faultRecord.freeTicket
      · exact hs.faultRecord
    split
    · exact hbad _ _
    · split
      · exact hs.startThread
      · exact hbad _ _

theorem State.Inv.pokeSites {q : Nat} (hs : s.Inv) : (s.pokeSites q).Inv := by
  unfold State.pokeSites
  exact .foldl hs.post fun _ _ hs => .ite hs.post hs

theorem State.Inv.refillPorts (hs : s.Inv) : s.refillPorts.Inv := hs

theorem State.Inv.freeRegion {q sl : Nat} {ok : Bool} (hs : s.Inv) : (s.freeRegion q sl ok).Inv := by
  unfold State.freeRegion
  exact .refillPorts (.pokeSites (.foldl (.of_mem hs rfl) fun _ _ hs => .pokeTile (.ite hs.unpin hs)))

theorem State.Inv.regionUnitEnd {q sl : Nat} {st : CStat} {reason : Nat} (hs : s.Inv) :
    (s.regionUnitEnd q sl st reason).Inv := hs.freeRegion.unitEnd

theorem State.Inv.stopUnits {q : Nat} {ls : List Nat} {st : CStat} {reason : Nat} (hs : s.Inv) :
    (s.stopUnits q ls st reason).Inv := by
  unfold State.stopUnits
  extract_lets +onlyGivenNames mine gone left lost freed s1 _ s2 s3 s4 dead s5
  have h5 : s5.Inv := .stopCommands (.foldl (.foldl (.setPrt hs) fun _ _ hs => .ite hs hs.setLeft)
      fun _ _ hs => hs.post)
  exact .pokeCtx (.foldl (.foldl (.foldl (.foldl (.foldl h5 fun _ _ hs => .ite hs.freeRegion.childDone hs)
      fun _ _ hs => hs.childDone) fun _ _ hs => .ite hs.setPrt hs) fun _ _ hs => .ite hs.setPrt hs)
      fun _ _ hs => hs.endThread)

theorem State.Inv.cancelLevel {q lvl i : Nat} {st : CStat} {reason : Nat} (hs : s.Inv) :
    (s.cancelLevel q lvl i st reason).Inv := by
  unfold State.cancelLevel
  exact .ite hs.setPrt.stopUnits.settle hs

theorem State.Inv.cancelUnit {q : Nat} {w : W32} {st : CStat} {reason : Nat} (hs : s.Inv) :
    (s.cancelUnit q w st reason).Inv := by
  unfold State.cancelUnit
  extract_lets +onlyGivenNames w
  split
  · exact hs
  · split
    · exact .ite hs.stopOf.endThread hs
    · extract_lets +onlyGivenNames x y
      split
      · exact hs.freeRegion.unitEnd
      · exact hs

theorem State.Inv.cancel {q lvl : Nat} {w : W32} {i : Nat} {fault : Bool} (hs : s.Inv) :
    (s.cancel q lvl w i fault).Inv := .ite hs.cancelUnit (.ite hs.cancelLevel hs)

end Sys2Proof.Machine
end

section
/-!
SUPPORT. Memory stays canonical: the matrix units, their operands, steps and drains (R205 to R211).
-/

namespace Sys2Proof.Machine

open Sys2Proof

variable {s t : State}

theorem State.Inv.writeFull {d : Nat} {ps : List (Part × Bool)} {l : List Byte} (hs : s.Inv) :
    (s.writeFull d ps l).Inv := by
  induction ps generalizing s l with
  | nil => exact hs
  | cons p r ih => exact ih (.agentPut (.ite (.foldl hs fun _ _ hs => hs.setFull) hs))

theorem State.Inv.engineWrite {a : Agent} {va : Nat} {l : List Byte} (hs : s.Inv)
    (h : s.engineWrite a va l = .ok t) :
    t.Inv := by
  unfold State.engineWrite at h
  split at h <;> cases h
  exact hs.writeFull

theorem State.Inv.enqueueMx {drain : Bool} {word : W32} {dst dword : W64} {d : GReg} (hs : s.Inv) :
    (s.enqueueMx drain word dst dword d).Inv := by
  unfold State.enqueueMx
  exact .ite hs.waitIn hs.newId.setClu.fin.post

theorem State.Inv.execMxrel (hs : s.Inv) : KeepsMemory (execMxrel s) := by
  unfold Machine.execMxrel
  extract_lets +onlyGivenNames th
  refine .next ?_
  split
  · exact hs.illegal
  · exact hs.setThr.releaseRow.adv

theorem State.Inv.tilePage {x : Fetcher} {va : Nat} (hs : s.Inv) : (s.tilePage x va).2.Inv := by
  fun_cases State.tilePage s x va
  · exact hs.setClu
  · exact .setClu (hs.choice.of_snd ‹_›)
  · exact hs.choice.of_snd ‹_›

theorem State.Inv.tilePiece {x : Fetcher} {va n : Nat} (hs : s.Inv) : (s.tilePiece x va n).2.Inv := by
  unfold State.tilePiece
  split
  · exact hs
  · split
    · exact hs
    · split <;> exact hs.tilePage.of_snd ‹_›

theorem State.Inv.tilePin {m : Nat} {ps : List Part} (hs : s.Inv) : (s.tilePin m ps).Inv := by
  unfold State.tilePin
  exact .setClu (.foldl hs fun _ _ hs => .foldl hs fun _ _ hs => hs.takeUnit)

theorem State.Inv.tilePieces {x : Fetcher} {l : List (Nat × Nat)} {rs : List PieceRes} (hs : s.Inv) :
    (l.foldl (fun (t : List PieceRes × State) p =>
      let (r, s) := t.2.tilePiece x p.1 p.2
      (t.1 ++ [r], s)) (rs, s)).2.Inv :=
  l.foldlRecOn (motive := fun t : List PieceRes × State => t.2.Inv) _ hs fun _ ht _ _ => ht.tilePiece

theorem State.Inv.tileBytes {x : Fetcher} {va n : Nat} (hs : s.Inv) : (s.tileBytes x va n).2.Inv := by
  unfold State.tileBytes
  dsimp -zeta only
  split
  · split
    · exact hs.tilePieces
    · exact hs.tilePieces.tilePin
  all_goals exact hs.tilePieces

theorem State.Inv.readOp {x : Fetcher} {f : Fmt} {base k0 n : Nat} (hs : s.Inv) :
    (s.readOp x f base k0 n).2.Inv := by
  unfold State.readOp
  split
  · split <;> exact hs.tileBytes.of_snd ‹_›
  · extract_lets +onlyGivenNames e
    split <;> exact hs.tileBytes.of_snd ‹_›

theorem State.Inv.readOps {x : Fetcher} {f : Fmt} {base stride k0 n : Nat} {l : List Nat} (hs : s.Inv) :
    (s.readOps x f base stride k0 n l).2.Inv := by
  induction l generalizing s with
  | nil => exact hs
  | cons i r ih =>
    unfold State.readOps
    split
    · exact hs.readOp.of_snd ‹_›
    · split <;> exact (ih (hs.readOp.of_snd ‹_›)).of_snd ‹_›

theorem State.Inv.readStep {x : Fetcher} {f : Fmt} {a b : Nat × Nat} {m n k0 k : Nat} (hs : s.Inv) :
    (s.readStep x f a b m n k0 k).2.Inv := by
  unfold State.readStep
  split
  · exact .unpin (hs.readOps.of_snd ‹_›)
  · split
    · exact .unpin (.of_snd (.readOps (hs.readOps.of_snd ‹_›)) ‹_›)
    · exact .of_snd (.readOps (hs.readOps.of_snd ‹_›)) ‹_›

theorem State.Inv.mxStepAt {f : Fmt} {sat : Bool} {c0 : Nat} {rows cols : List OpRow} (hs : s.Inv) :
    (s.mxStepAt f sat c0 rows cols).1.Inv := by
  unfold State.mxStepAt
  extract_lets u
  have hu : u.1.Inv := rows.zipIdx.foldlRecOn (motive := fun u : State × FP.Flags => u.1.Inv) _ hs fun _ hv _ _ =>
    cols.zipIdx.foldlRecOn (motive := fun u : State × FP.Flags => u.1.Inv) _ hv fun _ hw _ _ => hw.writeHome
  exact .foldl hu fun _ _ hs => hs.serveRange

theorem State.Inv.mxClear {f : Fmt} {c0 m n : Nat} (hs : s.Inv) : (s.mxClear f c0 m n).Inv := by
  unfold State.mxClear
  exact .foldl hs fun _ _ hs => hs.writeHome

theorem State.Inv.setMx {m k id : Nat} {g : MxCmd → MxCmd} (hs : s.Inv) : (s.setMx m k id g).Inv := by
  unfold State.setMx
  exact hs.setClu

theorem State.Inv.endMx {m k : Nat} {c : MxCmd} {status cause : Nat} {faddr : W64} {flags : FP.Flags} (hs : s.Inv)
    : (s.endMx m k c status cause faddr flags).Inv := by
  unfold State.endMx
  exact .pokeTile (.post (.of_mem hs rfl))

theorem State.Inv.mxFetch {c : MxCmd} {f : Fmt} (hs : s.Inv) : (s.mxFetch c f).2.Inv := by
  unfold State.mxFetch
  exact hs.readStep

theorem State.Inv.queueGrant {m : Nat} (hs : s.Inv) : (s.queueGrant m).Inv := by
  unfold State.queueGrant
  split
  · exact hs
  · split
    · exact hs
    · split
      · exact hs
      · extract_lets +onlyGivenNames _ s1
        split
        · exact hs.setClu.endMx
        · split
          · exact .endMx (hs.setClu.mxFetch.of_snd ‹_›)
          · exact .post (.setMx (hs.setClu.mxFetch.of_snd ‹_›))

theorem State.Inv.queueDone {m : Nat} (hs : s.Inv) : (s.queueDone m).Inv := by
  unfold State.queueDone
  split
  · exact hs
  · split
    · extract_lets +onlyGivenNames s1 c0 s2
      have h2 : s2.Inv := .ite hs.unpin.mxClear hs.unpin
      exact .ite h2.mxStepAt.endMx h2.mxStepAt.setMx.post
    · exact hs

theorem State.Inv.startHandler {m k t : Nat} {c : MxCmd} {i : Nat} (hs : s.Inv) :
    (s.startHandler m k t c i).Inv := by
  unfold State.startHandler
  exact hs.unitAdd.startThread.setMx.post

theorem State.Inv.execDrainRowStart {m : Nat} (hs : s.Inv) : KeepsMemory (execDrainRowStart m s) := by
  unfold Machine.execDrainRowStart
  refine .next (.ite hs ?_)
  extract_lets u
  have hu : u.1.Inv := by
    refine List.foldlRecOn (motive := fun u : State × Bool => u.1.Inv) _ _ hs fun v hv _ _ => ?_
    split
    · exact hv
    · split
      · exact hv
      · split
        · exact hv.setMx.post
        · split
          · exact hv.startHandler
          · exact hv
  exact .ite hu.post hs

theorem State.Inv.execDrainRowWrite {m : Nat} (hs : s.Inv) : KeepsMemory (execDrainRowWrite m s) := by
  unfold Machine.execDrainRowWrite
  refine .next ?_
  split
  · exact hs
  · split
    · exact hs
    · split
      · exact hs.endMx
      · extract_lets +onlyGivenNames va
        split
        · exact hs.endMx
        · split
          · exact .ite hs hs.endMx
          · exact .ite (.endMx (hs.engineWrite ‹_›)) (.post (.setMx (hs.engineWrite ‹_›)))

end Sys2Proof.Machine
end

section
/-!
SUPPORT. Memory stays canonical: the asynchronous commands and their collectives (R386 to R396).
-/

namespace Sys2Proof.Machine

open Sys2Proof

variable {s t : State}

theorem State.Inv.faultCmd {c : ACmd} {e : Nat × W64} (hs : s.Inv) : (s.faultCmd c e).Inv := by
  unfold State.faultCmd
  exact .ite hs.setCmd hs.endCmd

theorem State.Inv.partDone {c : ACmd} {done total : Nat} (hs : s.Inv) : (s.partDone c done total).Inv := by
  unfold State.partDone
  exact .ite hs.endCmd hs.setCmd.pokeCmd

theorem State.Inv.askRemote {c : ACmd} {pkg : Nat} {p : Nat → Payload} (hs : s.Inv) :
    (s.askRemote c pkg p).Inv := by
  unfold State.askRemote
  exact .ite hs.endCmd (.sendFlit hs)

theorem State.Inv.copyPart {c : ACmd} (hs : s.Inv) : (s.copyPart c).Inv := by
  unfold State.copyPart
  extract_lets +onlyGivenNames n src dst spkg dpkg
  split
  · exact hs.askRemote
  · split
    · exact hs.faultCmd
    · extract_lets +onlyGivenNames s1
      split
      · exact hs.agentTook.askRemote
      · split
        · exact hs.agentTook.faultCmd
        · exact .partDone (hs.agentTook.engineWrite ‹_›)

theorem State.Inv.gatherOne {c : ACmd} {i : Nat} (hs : s.Inv) (h : s.gatherOne c i = .ok t) : t.Inv := by
  unfold State.gatherOne at h
  extract_lets e at h
  split at h
  · cases h
  · dsimp only at h
    split at h
    · cases h
    · exact hs.agentTook.engineWrite h

theorem State.Inv.gatherRun {c : ACmd} {i n : Nat} (hs : s.Inv) : (s.gatherRun c i n).Inv := by
  induction n generalizing s i with
  | zero => exact hs.partDone
  | succ n ih =>
    unfold State.gatherRun
    split
    · exact hs.faultCmd
    · exact ih (hs.gatherOne ‹_›)

theorem State.Inv.gatherPart {c : ACmd} (hs : s.Inv) : (s.gatherPart c).Inv := hs.gatherRun

theorem State.Inv.collLate {c : ACmd} (hs : s.Inv) (h : s.collLate c = some t) : t.Inv := by
  unfold State.collLate at h
  extract_lets at h
  split at h <;> cases h
  exact hs

theorem State.Inv.collArrive {q rank : Nat} {gtag : W64} {n len op fmt red : Nat} {data : List Byte}
    {sender rcpt : W32} (hs : s.Inv) : (s.collArrive q rank gtag n len op fmt red data sender rcpt).Inv := by
  unfold State.collArrive
  extract_lets +onlyGivenNames mine pick
  clear_value pick
  split
  · exact hs
  · exact .ite hs.setCmd.pokeCmd hs.abortAll

theorem State.Inv.collFlit {q : Nat} {gtag : W64} {n len op fmt red rank total : Nat} {data : List Byte}
    {sender rcpt : W32} (hs : s.Inv) : (s.collFlit q gtag n len op fmt red rank total data sender rcpt).Inv := by
  unfold State.collFlit
  exact .ite (.collArrive hs) hs

theorem State.Inv.issueCmd {w : W32} {op : Nat} {a c : GReg} {ui : Bool} (hs : s.Inv) :
    (s.issueCmd w op a c ui).Inv := by
  unfold State.issueCmd
  refine .ite hs.waitIn (.ite hs.waitIn (hs.readRecord fun _ s hs => ?_))
  have hu : s.newId.2.Inv := hs
  exact .pokeCmd (.fin (.of_mem hu.release rfl))

theorem State.Inv.takeHeld {c : ACmd} (hs : s.Inv) : (s.takeHeld c).Inv := by
  unfold State.takeHeld
  refine .foldl hs fun _ _ hs => ?_
  split
  · exact hs.collArrive
  · exact hs

theorem State.Inv.collSend {c : ACmd} {own : List Byte} (hs : s.Inv) : (s.collSend c own).Inv := by
  unfold State.collSend
  exact .foldl hs fun _ _ hs => .foldl (hs.newId.of_mem rfl) fun _ _ hs => hs.sendFrom

theorem State.Inv.collStart {c : ACmd} {own : List Byte} (hs : s.Inv) : (s.collStart c own).Inv := by
  unfold State.collStart
  extract_lets +onlyGivenNames c others s1 me
  split
  · exact hs.setCmd.abortAll.abortAll
  · extract_lets +onlyGivenNames s2 s3
    have h3 : s3.Inv := .foldl (.foldl hs.setCmd fun _ _ hs => hs.collArrive) fun _ _ hs => hs.collArrive
    exact .ite h3.takeHeld h3.takeHeld.collSend

theorem State.Inv.collPart {c : ACmd} (hs : s.Inv) : (s.collPart c).Inv := by
  unfold State.collPart
  split
  · split
    · exact hs.faultCmd
    · exact hs.endCmd
    · split
      · exact .endCmd (hs.collLate ‹_›)
      · split
        · exact hs.endCmd
        · split
          · exact hs.faultCmd
          · exact hs.agentTook.collStart.post
  · split
    · exact hs
    · extract_lets +onlyGivenNames rs bytes c dst n
      split
      · exact hs.endCmd
      · split
        · exact hs.faultCmd
        · exact .partDone (hs.engineWrite ‹_›)

theorem State.Inv.execCollectiveDataReceive {id rank : Nat} {gtag : W64} {n len op fmt red : Nat}
    {data : List Byte} (hs : s.Inv) :
    KeepsMemory (execCollectiveDataReceive id rank gtag n len op fmt red data s) := by
  unfold Machine.execCollectiveDataReceive
  refine .next ?_
  split
  · exact hs
  · exact .ite hs (.ite hs.abortAll hs.collArrive)

theorem State.Inv.execAsyncEngineTransfer {id : Nat} (hs : s.Inv) :
    KeepsMemory (execAsyncEngineTransfer id s) := by
  unfold Machine.execAsyncEngineTransfer
  refine .next ?_
  split
  · exact hs
  · split
    · exact hs
    · split
      · exact hs.copyPart
      · exact hs.gatherPart
      · exact hs.gatherPart
      · exact hs.collPart
      · exact hs

theorem State.Inv.countCmd {c : ACmd} (hs : s.Inv) : (s.countCmd c).Inv := by
  unfold State.countCmd
  split
  · exact hs
  · extract_lets +onlyGivenNames k
    split
    · exact hs.agentPut
    · exact hs

theorem State.Inv.tellIssuer {c : ACmd} (hs : s.Inv) : (s.tellIssuer c).Inv := by
  unfold State.tellIssuer
  exact .ite hs (.ite hs.setThread.waitiEvent hs.setThread)

theorem State.Inv.execAsyncCommandComplete {id : Nat} (hs : s.Inv) :
    KeepsMemory (execAsyncCommandComplete id s) := by
  unfold Machine.execAsyncCommandComplete
  refine .next ?_
  split
  · exact hs
  · split
    · exact hs
    · extract_lets +onlyGivenNames s1 s2 s3
      have h3 : s3.Inv := .pokeCtx (.tellIssuer (.countCmd (.ite (.faultRecord hs) hs)))
      split
      · exact h3.pokeCmd
      · exact h3

theorem State.Inv.execAwait {a c : GReg} (hs : s.Inv) : KeepsMemory (execAwait a c s) := by
  unfold Machine.execAwait
  extract_lets +onlyGivenNames th h st late
  refine .next ?_
  split
  · exact .ite hs.setThr.waitIn hs.setThr.acquire.fin
  · split
    · exact hs.fin
    · exact hs.waitIn
    · exact hs.acquire.fin

theorem State.Inv.execAcancel {a c : GReg} (hs : s.Inv) : KeepsMemory (execAcancel a c s) := by
  unfold Machine.execAcancel
  extract_lets +onlyGivenNames h
  refine .next ?_
  split
  · exact hs.fin
  · exact .fin (.ite hs.endCmd.abortAll hs.endCmd)

end Sys2Proof.Machine
end

section
/-!
SUPPORT. Memory stays canonical: the memory instructions, the atomics and the fetch of a word.
-/

namespace Sys2Proof.Machine

open Sys2Proof

variable {s t : State}

theorem State.Inv.waitHome {st : SlotSt} {w : Waiter} (hs : s.Inv) : (s.waitHome st w).Inv := .setThr hs

theorem State.Inv.feWait {w : W32} {p : Part} {va : Nat} {rel acq : Bool} {k : WaitKind} (hs : s.Inv) :
    (s.feWait w p va rel acq k).Inv := by
  unfold State.feWait
  exact .ite hs.takeTrap hs.beforeAtomic.waitHome.serveWord

theorem State.Inv.execAmo {fn : AmoFn} {a b c : GReg} {rel acq dbl : Bool} (hs : s.Inv) :
    KeepsMemory (execAmo fn a b c rel acq dbl s) := by
  unfold Machine.execAmo
  extract_lets +onlyGivenNames n
  refine .next ?_
  refine hs.atomically fun _ _ hs => ?_
  extract_lets +onlyGivenNames x d
  split
  · exact hs.issueRlx
  · extract_lets +onlyGivenNames s1
    have h1 : s1.Inv := hs.beforeAtomic.homeAccess
    exact .afterAtomic (.setThr (.ite h1.writeHome.releaseAt h1.writeHome))

theorem State.Inv.execCas {a b c : GReg} {rel acq dbl : Bool} (hs : s.Inv) :
    KeepsMemory (execCas a b c rel acq dbl s) := by
  unfold Machine.execCas
  extract_lets +onlyGivenNames n
  refine .next ?_
  refine hs.atomically fun _ _ hs => ?_
  extract_lets +onlyGivenNames x cmp d
  split
  · exact hs.issueRlx
  · extract_lets +onlyGivenNames s1
    have h1 : s1.Inv := hs.beforeAtomic.homeAccess
    extract_lets +onlyGivenNames old s5
    have h5 : s5.Inv := .ite h1.writeHome h1
    exact .afterAtomic (.setThr (.ite h5.releaseAt h5))

theorem State.Inv.lineTook {m : Nat} {p : Part} (hs : s.Inv) : (s.lineTook m p).Inv := by
  unfold State.lineTook
  exact .ite (.foldl hs fun _ _ hs => .foldl hs fun _ _ hs => hs.takeUnit) hs

theorem State.Inv.fetchWord {m q ctx : Nat} {p : Part} (hs : s.Inv) : (s.fetchWord m q ctx p).2.Inv := by
  unfold State.fetchWord
  extract_lets +onlyGivenNames h line cl pick
  split
  · exact hs
  · exact hs.lineTook.setClu

theorem State.Inv.execInstructionFetchFault (hs : s.Inv) : KeepsMemory (execInstructionFetchFault s) := by
  unfold Machine.execInstructionFetchFault
  split
  · exact .next hs.takeTrap
  · exact .next hs

theorem State.Inv.execUnassignedEncoding {w : W32} (hs : s.Inv) : KeepsMemory (execUnassignedEncoding w s) :=
  .next hs.illegal

theorem State.Inv.execUiTake (hs : s.Inv) : KeepsMemory (execUiTake s) := by
  unfold Machine.execUiTake
  exact .ite (.next hs.takeUi) (.next hs)

end Sys2Proof.Machine
end

section
/-!
SUPPORT. Memory stays canonical: the sites, tokens, tiles and the memory of the fabric.
-/

namespace Sys2Proof.Machine

open Sys2Proof

variable {s t : State}

theorem State.Inv.poke {e : Instr} (hs : s.Inv) : (s.poke e).Inv := by
  unfold State.poke
  exact .ite hs hs.post

theorem State.Inv.pokes {es : List Instr} (hs : s.Inv) : (s.pokes es).Inv := by
  unfold State.pokes
  exact .foldl hs fun _ _ hs => hs.poke

theorem State.Inv.wakeSite {q sl : Nat} {r : Region} {i : Nat} (hs : s.Inv) : (s.wakeSite q sl r i).Inv := by
  unfold State.wakeSite
  exact hs.pokes

theorem State.Inv.wakeRegion {q sl : Nat} (hs : s.Inv) : (s.wakeRegion q sl).Inv :=
  hs.of_mem (s.wakeRegion_wakes q sl).mem

theorem State.Inv.putRegion {q sl : Nat} {r : Region} (hs : s.Inv) : (s.putRegion q sl r).Inv := hs.setRegion.poke

theorem State.Inv.putSite {q sl i : Nat} {r : Region} {x : Site} (hs : s.Inv) : (s.putSite q sl i r x).Inv := by
  unfold State.putSite
  extract_lets +onlyGivenNames r s1
  have h1 : s1.Inv := hs.putRegion.wakeSite
  exact .ite h1.poke h1

theorem State.Inv.execElementResult {i : Nat} (hs : s.Inv) : KeepsMemory (execElementResult i s) := by
  unfold Machine.execElementResult
  refine .next ?_
  split
  · exact hs
  · split
    · exact hs
    · exact hs
    · exact .ite hs.putSite hs

theorem State.Inv.guardDrop {q i d : Nat} {x : Site} {t : Token} (hs : s.Inv) : (s.guardDrop q i d x t).Inv := by
  unfold State.guardDrop
  exact .debugEvent (.ite hs.setPrt (.ite hs.setPrt.setPrt.report.managerMsg hs.setPrt.setPrt.report))

theorem State.Inv.putGen {q sl key : Nat} {r : Region} {g : Gen} (hs : s.Inv) : (s.putGen q sl key r g).Inv := by
  unfold State.putGen
  extract_lets +onlyGivenNames r s1
  have h1 : s1.Inv := hs.putRegion.wakeSite
  extract_lets +onlyGivenNames s3
  have h3 : s3.Inv := .ite h1.poke h1
  exact .ite h3.poke h3

theorem State.Inv.hopTo {q sl : Nat} {r : Region} {i d j : Nat} {t : Token} (hs : s.Inv) :
    (s.hopTo q sl r i d j t).Inv := by
  unfold State.hopTo
  exact .ite hs.guardDrop.putRegion.wakeSite (.ite hs hs.putSite.wakeSite)

theorem State.Inv.execTokenHop {i d : Nat} (hs : s.Inv) : KeepsMemory (execTokenHop i d s) := by
  unfold Machine.execTokenHop
  refine .next ?_
  split
  · exact hs
  · split
    · exact hs
    · split
      · exact .ite hs.putGen.wakeSite hs
      · split
        · exact hs.hopTo
        · exact hs
        · exact hs

theorem State.Inv.execCircuitTransfer {q sl idx : Nat} (hs : s.Inv) :
    KeepsMemory (execCircuitTransfer q sl idx s) := by
  unfold Machine.execCircuitTransfer
  extract_lets +onlyGivenNames r
  refine .next ?_
  split
  · exact hs
  · split
    · exact hs
    · extract_lets +onlyGivenNames setC src y s1
      have h1 : s1.Inv := by
        unfold s1
        split
        · exact hs
        · exact .ite hs hs.putSite
      extract_lets +onlyGivenNames r
      split
      · exact h1
      · extract_lets +onlyGivenNames d
        split
        · exact h1
        · exact .ite h1.putRegion.wakeSite h1

theorem State.Inv.writeFaults {q sl : Nat} {r : Region} {flags : Nat → Nat} (hs : s.Inv) :
    (s.writeFaults q sl r flags).Inv := by
  unfold State.writeFaults
  exact .foldl hs fun _ _ hs => hs.draw.faultRecord.debugEvent

theorem State.Inv.execFabricFault {i code : Nat} (hs : s.Inv) : KeepsMemory (execFabricFault i code s) := by
  unfold Machine.execFabricFault
  refine .next ?_
  split
  · exact hs
  · exact .ite hs.setRegion.poke hs

theorem State.Inv.execRegionClockStop {q sl : Nat} (hs : s.Inv) : KeepsMemory (execRegionClockStop q sl s) := by
  unfold Machine.execRegionClockStop
  extract_lets +onlyGivenNames r
  refine .next ?_
  split
  · exact hs
  · exact .ite hs (.ite hs.setRegion.setRegion.post hs.setRegion.writeFaults.setRegion)

theorem State.Inv.fabWrite {die : Nat} {ps : List Part} {x : Nat} (hs : s.Inv) : (s.fabWrite die ps x).Inv := by
  induction ps generalizing s x with
  | nil => exact hs
  | cons p r ih =>
    exact ih (.serveParts (.ite (.foldl hs.behind.writeHome fun _ _ hs => hs.homeWrote) hs.behind.writeHome))

theorem State.Inv.fabTook {die : Nat} {ps : List Part} (hs : s.Inv) : (s.fabTook die ps).Inv := by
  unfold State.fabTook
  exact .foldl hs fun _ _ hs => .foldl hs fun _ _ hs => hs.takeUnit

theorem State.Inv.unitTook {q die : Nat} {l : List Extent} {reads : List (Nat × Nat)} (hs : s.Inv) :
    (s.unitTook q die l reads).Inv := by
  unfold State.unitTook
  refine hs.foldl fun _ _ hs => ?_
  split
  · exact hs.fabTook
  · exact hs

theorem State.Inv.execTileRead {i : Nat} (hs : s.Inv) : KeepsMemory (execTileRead i s) := by
  unfold Machine.execTileRead
  refine .next ?_
  split
  · exact hs
  · split
    · exact hs
    · extract_lets +onlyGivenNames fired
      split
      · exact .ite hs hs.putSite
      · split
        · exact hs
        · exact .ite hs (.ite hs.pokes (.ite (.ite hs.putSite hs.putSite) hs.putSite))

theorem State.Inv.tileRmw {q ctx i : Nat} {c : SiteCfg} {a x : Nat} (hs : s.Inv) :
    (s.tileRmw q ctx i c a x).2.1.Inv := by
  unfold State.tileRmw
  exact hs.writeHome.serveWord

theorem State.Inv.execTilePortBOp {i : Nat} (hs : s.Inv) : KeepsMemory (execTilePortBOp i s) := by
  unfold Machine.execTilePortBOp
  refine .next ?_
  split
  · exact hs
  · split
    · exact hs
    · extract_lets +onlyGivenNames fired
      split
      · exact .ite hs hs.putSite
      · split
        · exact .ite hs (.ite hs.putSite (.ite hs (.ite (.ite hs.tileRmw.putSite hs.putSite) hs.putSite)))
        · exact hs

theorem State.Inv.fifoPut {q ctx i : Nat} {x : Site} {t : Token} (hs : s.Inv) :
    (s.fifoPut q ctx i x t).1.Inv := by
  unfold State.fifoPut
  exact hs.deviceStore

theorem State.Inv.execFifoAppend {i : Nat} (hs : s.Inv) : KeepsMemory (execFifoAppend i s) := by
  unfold Machine.execFifoAppend
  refine .next ?_
  split
  · exact hs
  · split
    · exact hs
    · split
      · exact hs
      · exact hs.fifoPut.putSite

theorem State.Inv.execFifoEmit {i : Nat} (hs : s.Inv) : KeepsMemory (execFifoEmit i s) := by
  unfold Machine.execFifoEmit
  refine .next ?_
  split
  · exact hs
  · exact .ite hs (.ite hs.putSite hs.putSite)

theorem State.Inv.fillLine {q sl i k : Nat} (hs : s.Inv) : (s.fillLine q sl i k).Inv := by
  unfold State.fillLine
  extract_lets +onlyGivenNames r x
  split
  · exact hs
  · extract_lets +onlyGivenNames y
    split
    · exact .ite hs.putSite hs.putSite.wakeRegion
    · exact hs.putSite

theorem State.Inv.execCacheLineFill {i : Nat} (hs : s.Inv) : KeepsMemory (execCacheLineFill i s) := by
  unfold Machine.execCacheLineFill
  refine .next ?_
  split
  · exact hs
  · exact hs.fillLine

theorem State.Inv.fillLines {q sl i n : Nat} {p : Nat → Bool} (hs : s.Inv) : (s.fillLines q sl i p n).Inv := by
  induction n generalizing s with
  | zero => exact hs
  | succ n ih =>
    unfold State.fillLines
    split
    · exact hs
    · exact ih hs.fillLine

theorem State.Inv.portOp {p op q sl bytes : Nat} {busy : Bool} (hs : s.Inv) :
    (s.portOp p op q sl bytes busy).Inv := hs

theorem State.Inv.execPatchMiss {i n : Nat} (hs : s.Inv) : KeepsMemory (execPatchMiss i n s) := by
  unfold Machine.execPatchMiss
  refine .next ?_
  split
  · exact hs
  · extract_lets +onlyGivenNames go
    have h_go : ∀ x0, (go x0).Inv := fun _ => .poke (.ite hs.putRegion hs.putRegion.portOp)
    exact .ite (.ite (h_go _) hs) (.ite (h_go _) hs)

theorem State.Inv.refillAt {q sl i n : Nat} (hs : s.Inv) : (s.refillAt q sl i n).Inv := by
  unfold State.refillAt
  extract_lets +onlyGivenNames r x
  dsimp -zeta only
  extract_lets +onlyGivenNames _ s2
  have h2 : s2.Inv := hs.draw.of_mem rfl
  extract_lets +onlyGivenNames _ s4
  refine State.Inv.refillPorts ?_
  split
  · split
    · split <;> exact .putSite h2
    · exact h2
  · extract_lets +onlyGivenNames g
    split
    · split <;> exact .putGen h2
    · exact h2

theorem State.Inv.execExtentRefill {i n : Nat} (hs : s.Inv) : KeepsMemory (execExtentRefill i n s) := by
  unfold Machine.execExtentRefill
  refine .next ?_
  split
  · exact hs
  · exact hs.refillAt

theorem State.Inv.landRequests {q sl : Nat} (hs : s.Inv) : (s.landRequests q sl).Inv := by
  unfold State.landRequests
  refine .foldl (.foldl hs fun _ _ hs => ?_) fun _ _ hs => ?_
  · split
    · exact hs.fillLines.refillAt
    · exact hs.fillLines
  · exact .ite hs.refillAt hs

theorem State.Inv.regionPorts {q sl op : Nat} {r : Region} (hs : s.Inv) : (s.regionPorts q sl op r).Inv := by
  unfold State.regionPorts
  exact .foldl hs fun _ _ hs => hs.portOp

theorem State.Inv.writeSaved {q off n : Nat} (hs : s.Inv) : (s.writeSaved q off n).Inv := by
  unfold State.writeSaved
  exact hs.freeBytes.prtStore

theorem State.Inv.execFabricPageFaultScanout {q sl : Nat} (hs : s.Inv) :
    KeepsMemory (execFabricPageFaultScanout q sl s) := by
  unfold Machine.execFabricPageFaultScanout
  extract_lets +onlyGivenNames r
  refine .next ?_
  split
  · exact hs
  · extract_lets +onlyGivenNames s1
    have h1 : s1.Inv := hs.landRequests
    extract_lets +onlyGivenNames r
    split
    · exact h1.writeFaults.setRegion.pokeCtx
    · exact h1.writeFaults.setPrt.setRegion.pokeSites.pokeCtx.regionPorts.writeSaved

theorem State.Inv.windowPass {q sl key j : Nat} (hs : s.Inv) : (s.windowPass q sl key j).Inv := by
  unfold State.windowPass
  exact .foldl hs.setRegion fun _ _ hs => hs.post

theorem State.Inv.publish {q sl w : Nat} (hs : s.Inv) : (s.publish q sl w).Inv := by
  unfold State.publish
  exact hs.setRegion.releaseAt

theorem State.Inv.genEmit {q sl key : Nat} {r : Region} {g : Gen} {t : Token} (hs : s.Inv) :
    (s.genEmit q sl key r g t).Inv := hs.putSite.pokes

theorem State.Inv.execGeneratorLoadEmit {seam n : Nat} (hs : s.Inv) :
    KeepsMemory (execGeneratorLoadEmit seam n s) := by
  unfold Machine.execGeneratorLoadEmit
  extract_lets +onlyGivenNames key
  refine .next ?_
  split
  · exact hs
  · extract_lets +onlyGivenNames g
    split
    · exact hs
    · split
      · exact hs.genEmit
      · split
        · exact .ite hs.genEmit (.ite hs.genEmit hs)
        · split
          · exact hs.unitTook.genEmit
          · exact hs.putSite
          · exact hs
          · exact hs.setRegion.poke
          · exact hs.putGen

theorem State.Inv.execGeneratorStoreWrite {seam n : Nat} (hs : s.Inv) :
    KeepsMemory (execGeneratorStoreWrite seam n s) := by
  unfold Machine.execGeneratorStoreWrite
  extract_lets +onlyGivenNames key
  refine .next ?_
  split
  · exact hs
  · extract_lets +onlyGivenNames g
    split
    · exact hs
    · split
      · exact hs
      · extract_lets +onlyGivenNames g'
        split
        · extract_lets +onlyGivenNames lanes m
          split
          · exact hs.putGen
          · split
            · exact hs.setRegion.poke
            · exact hs.putGen
            · exact hs
            · exact .putGen (.foldl hs fun _ _ hs => hs.fabWrite)
        · exact .ite hs.putGen.windowPass (.ite hs.putGen.windowPass hs.putGen)

end Sys2Proof.Machine
end

section
/-!
SUPPORT. Memory stays canonical: the fibre units, the generators and the escapes of the fabric.
-/

namespace Sys2Proof.Machine

open Sys2Proof

variable {s t : State}

theorem State.Inv.execFibreUnitFire {i : Nat} (hs : s.Inv) : KeepsMemory (execFibreUnitFire i s) := by
  unfold Machine.execFibreUnitFire
  refine .next ?_
  split
  · exact hs
  · split
    · exact hs
    · extract_lets +onlyGivenNames emit room missed
      have hemit {u : State} (y : Site) (outs : List (Nat × Token)) (fl : FP.Flags) (hu : u.Inv) :
          (emit u y outs fl).Inv := hu.putSite
      have hmissed (va : Nat) (used : List Nat) : (missed va used).Inv := hs.setRegion.poke
      split
      · exact hs.putSite
      · exact .ite (hemit _ _ _ hs) hs
      · split
        · exact hs
        · exact hs
        · exact hs.putSite
        · exact hmissed _ _
        · exact hs.putSite
        · split
          · exact hs
          · split
            · exact hmissed _ _
            · exact hs.putSite
            · exact hs
            · exact hemit _ _ _ (.foldl hs.unitTook fun _ _ hs => hs.fabWrite)

theorem State.Inv.transAsk {key i : Nat} {t : Token} (hs : s.Inv) : (s.transAsk key i t).Inv := by
  unfold State.transAsk
  exact .poke hs

theorem State.Inv.execElementFire {i : Nat} (hs : s.Inv) : KeepsMemory (execElementFire i s) := by
  unfold Machine.execElementFire
  refine .next ?_
  split
  · exact hs
  · split
    · exact hs
    · split
      · exact hs
      · exact hs.putSite
      · extract_lets +onlyGivenNames r y s1
        have h1 : s1.Inv := by
          unfold s1
          split
          · exact hs.transAsk
          · exact hs
        extract_lets +onlyGivenNames s3
        have h3 : s3.Inv := by
          unfold s3
          split
          · exact h1.putSite
          · exact h1.tileRmw.putSite
        exact .ite h3.poke h3

theorem State.Inv.execTransGrant {col : Nat} (hs : s.Inv) : KeepsMemory (execTransGrant col s) := by
  unfold Machine.execTransGrant
  extract_lets +onlyGivenNames u rows
  refine .next ?_
  split
  · exact hs
  · split
    · exact hs
    · exact .poke (.poke (.poke hs))

theorem State.Inv.execTransReply {col : Nat} (hs : s.Inv) : KeepsMemory (execTransReply col s) := by
  unfold Machine.execTransReply
  extract_lets +onlyGivenNames u
  refine .next ?_
  split
  · exact hs
  · exact .poke (.putSite hs)

theorem State.Inv.execEscapeThreadStart {i : Nat} (hs : s.Inv) : KeepsMemory (execEscapeThreadStart i s) := by
  unfold Machine.execEscapeThreadStart
  refine .next ?_
  split
  · exact hs
  · extract_lets +onlyGivenNames x order
    split
    · exact hs
    · split
      · exact hs
      · extract_lets +onlyGivenNames t cl cores pk _ asked
        have hasked {u : State} (n : Nat) (hu : u.Inv) : (asked u n).Inv := hu.setClu.setRegion.unitAdd.poke
        split
        · split
          · exact (hasked _ hs).beginThread
          · exact hs
        · exact .ite (hasked _ hs).enqueue hs

theorem State.Inv.execEscapeTokenLeave {i : Nat} (hs : s.Inv) : KeepsMemory (execEscapeTokenLeave i s) := by
  unfold Machine.execEscapeTokenLeave
  refine .next ?_
  split
  · exact hs
  · split
    · exact hs
    · extract_lets +onlyGivenNames c send
      split
      · exact hs
      · split
        · exact hs.putSite
        · exact hs
      · extract_lets +onlyGivenNames t
        split
        · exact hs.putSite.poke
        · exact hs

end Sys2Proof.Machine
end

section
/-!
SUPPORT. Memory stays canonical: configuration images, what a load installs, and the matrix fabric.
-/

namespace Sys2Proof.Machine

open Sys2Proof

variable {s t : State}

theorem State.Inv.loadMx {q ctx : Nat} {asid : W16} {root : Nat} {f : MxFab} (hs : s.Inv) :
    (s.loadMx q ctx asid root f).Inv := by
  unfold State.loadMx
  exact .foldl hs fun _ _ hs => .ite hs hs.tilePage

theorem State.Inv.installRegion {l : CfgLoad} {b : Img} {p : Plan} (hs : s.Inv) :
    (s.installRegion l b p).Inv := by
  unfold State.installRegion
  exact .foldl (.foldl (.setRegion hs) fun _ _ hs => hs.loadMx) fun _ _ hs => hs.deviceStore

theorem State.Inv.installShadow {l : CfgLoad} {p : Plan} (hs : s.Inv) : (s.installShadow l p).Inv := by
  unfold State.installShadow
  exact .foldl hs.setRegion fun _ _ hs => hs.loadMx

theorem State.Inv.doLoadImage {l : CfgLoad} (hs : s.Inv) : (s.doLoadImage l).2.Inv := by
  unfold State.doLoadImage
  extract_lets a r done op failed
  have hdone {u : State} (st : Nat × Nat) (hu : u.Inv) : (done st u).2.Inv :=
    .refillPorts (.ite (.setRegion (.of_mem hu rfl)) (.of_mem hu rfl))
  have hfailed {u : State} (st : Nat × Nat) (hu : u.Inv) : (failed st u).2.Inv := hdone st hu.draw.portOp
  split
  · exact hfailed _ hs
  · split
    · exact hfailed _ hs
    · extract_lets p st s1
      have h1 : s1.Inv := .foldl hs fun _ _ hs => hs.portOp
      split
      · exact hdone _ (.ite h1.installShadow h1.installRegion)
      · exact hfailed _ hs

theorem State.Inv.putMx {q sl : Nat} {r : Region} {f : MxFab} (hs : s.Inv) : (s.putMx q sl r f).Inv := by
  unfold State.putMx
  exact .ite hs.putRegion.pokes.poke hs.putRegion.pokes

theorem State.Inv.fabFetch {q : Nat} {r : Region} {f : MxFab} {g : Fmt} (hs : s.Inv) :
    (s.fabFetch q r f g).2.Inv := by
  unfold State.fabFetch
  exact hs.readStep

theorem State.Inv.fabGrant {q sl : Nat} {r : Region} {f : MxFab} (hs : s.Inv) : (s.fabGrant q sl r f).Inv := by
  unfold State.fabGrant
  split
  · exact hs
  · split
    · exact hs
    · split
      · exact .putMx (hs.fabFetch.of_snd ‹_›)
      · exact .poke (.setRegion (hs.fabFetch.of_snd ‹_›))

theorem State.Inv.execKStepGrant {m : Nat} (hs : s.Inv) : KeepsMemory (execKStepGrant m s) := by
  unfold Machine.execKStepGrant
  refine .next ?_
  split
  · exact hs.fabGrant
  · exact hs.queueGrant

theorem State.Inv.fabDone {q sl : Nat} {r : Region} {f : MxFab} (hs : s.Inv) : (s.fabDone q sl r f).Inv := by
  unfold State.fabDone
  split
  · split
    · exact hs
    · extract_lets s1 f1 c0 s2
      have h2 : s2.Inv := .ite hs.unpin.mxClear hs.unpin
      exact .putMx h2.mxStepAt
  · exact hs

theorem State.Inv.fabStepEnd {q sl m : Nat} (hs : s.Inv) : (s.fabStepEnd q sl m).Inv := by
  unfold State.fabStepEnd
  extract_lets +onlyGivenNames r
  split
  · exact hs.fabDone
  · exact hs

theorem State.Inv.execKStepDone {m : Nat} (hs : s.Inv) : KeepsMemory (execKStepDone m s) := by
  unfold Machine.execKStepDone
  refine .next ?_
  split
  · exact hs.fabDone
  · exact hs.queueDone

theorem State.Inv.execMatrixTileEmit {m : Nat} (hs : s.Inv) : KeepsMemory (execMatrixTileEmit m s) := by
  unfold Machine.execMatrixTileEmit
  refine .next ?_
  split
  · exact hs
  · extract_lets +onlyGivenNames key
    split
    · exact hs
    · extract_lets +onlyGivenNames out
      have h_out : ∀ x0 x1, (out x0 x1).Inv := fun _ _ => hs.putSite.poke.poke
      split
      · exact h_out _ _
      · exact .ite (h_out _ _) (h_out _ _)
      · split
        · exact hs
        · exact .ite (h_out _ _) (h_out _ _)
      · exact hs

end Sys2Proof.Machine
end

section
/-!
SUPPORT. Memory stays canonical: the life of a region, from its arming to its reload.
-/

namespace Sys2Proof.Machine

open Sys2Proof

variable {s t : State}

theorem State.Inv.askArm {q sl : Nat} {who : Option (Nat × Nat)} (hs : s.Inv) : (s.askArm q sl who).Inv := by
  unfold State.askArm
  exact hs.setRegion.post

theorem State.Inv.launchFails {q sl reason : Nat} (hs : s.Inv) : (s.launchFails q sl reason).Inv := by
  unfold State.launchFails
  exact .ite hs.setCntr.settle.poke hs.poke

theorem State.Inv.startTasks {q sl : Nat} (hs : s.Inv) : (s.startTasks q sl).Inv := by
  unfold State.startTasks
  extract_lets +onlyGivenNames r
  split
  · exact hs
  · split
    · exact hs.launchFails
    · exact hs.setPrt.placeTasks

theorem State.Inv.execRegionArm {q sl : Nat} (hs : s.Inv) : KeepsMemory (execRegionArm q sl s) := by
  unfold Machine.execRegionArm
  extract_lets +onlyGivenNames r
  refine .next ?_
  split
  · exact hs
  · extract_lets +onlyGivenNames s1
    have h1 : s1.Inv := hs.setRegion.wakeRegion
    split
    · exact h1.finT
    · exact h1.startTasks

theorem State.Inv.loadPortsDone {l : CfgLoad} (hs : s.Inv) : (s.loadPortsDone l).Inv := hs

theorem State.Inv.startLoad {l : CfgLoad} (hs : s.Inv) : (s.startLoad l).Inv :=
  .post (.foldl hs fun _ _ hs => hs.portOp)

theorem State.Inv.execConfigLoadComplete {p : Nat} (hs : s.Inv) : KeepsMemory (execConfigLoadComplete p s) := by
  unfold Machine.execConfigLoadComplete
  refine .next ?_
  split
  · exact hs
  · split
    · exact hs
    · extract_lets +onlyGivenNames s1 s2
      have h2 : s2.Inv := .loadPortsDone hs
      extract_lets +onlyGivenNames c
      split
      · exact .ite h2.launchFails (.ite h2.doLoadImage.askArm h2.doLoadImage.launchFails)
      · split
        · exact h2
        · exact .poke (.pokeCtx (.finT (.ite h2.doLoadImage.unitAdd h2.doLoadImage)))

theorem State.Inv.afterSwap {q sl : Nat} {r : Region} (hs : s.Inv) : (s.afterSwap q sl r).Inv := by
  unfold State.afterSwap
  extract_lets +onlyGivenNames r
  split
  · exact hs.putRegion.wakeRegion.finT.pokeCtx
  · exact hs.putRegion.wakeRegion

theorem State.Inv.execSiteSwap {i : Nat} (hs : s.Inv) : KeepsMemory (execSiteSwap i s) := by
  unfold Machine.execSiteSwap
  refine .next ?_
  split
  · exact hs
  · exact .ite hs hs.afterSwap

theorem State.Inv.execHushSweep {q sl : Nat} (hs : s.Inv) : KeepsMemory (execHushSweep q sl s) := by
  unfold Machine.execHushSweep
  extract_lets +onlyGivenNames r
  refine .next ?_
  split
  · exact hs
  · split
    · extract_lets +onlyGivenNames r ends
      have h_ends : ∀ x0, (ends x0).Inv := fun _ => hs.setRegion.releaseAt.releaseAt.regionUnitEnd
      exact .ite (h_ends _) (.ite (h_ends _) hs.setRegion)
    · exact .ite hs.setRegion.poke (.ite hs.poke hs)

theorem State.Inv.moveNames {q sl : Nat} {old : Region} {x y : Nat} (hs : s.Inv) :
    (s.moveNames q sl old x y).Inv := by
  unfold State.moveNames
  exact hs

theorem State.Inv.putTiles {q : Nat} {r : Region} {cells : List Host.Cell} {full : Tbl FullBit} (hs : s.Inv) :
    (s.putTiles q r cells full).Inv := by
  unfold State.putTiles
  extract_lets sh s1 addr
  have h1 : s1.Inv := .foldl hs fun _ _ hs => hs.zeroRange
  exact Memory.wf_foldl _ (fun m _ h => Memory.wf_set m _ _ h) _ _ h1

theorem State.Inv.moveRegion {q sl x y : Nat} (hs : s.Inv) : (s.moveRegion q sl x y).Inv := by
  unfold State.moveRegion
  exact .putTiles (.setRegion (.moveNames (.foldl hs fun _ _ hs => hs.zeroRange)))

theorem State.Inv.addReloc {q : Nat} {e : Reloc} (hs : s.Inv) : (s.addReloc q e).Inv := hs.newId.setPrt

theorem State.Inv.regionEntry {q sl : Nat} {r : Region} {w : W32} (hs : s.Inv) :
    (s.regionEntry q sl r w).Inv := by
  unfold State.regionEntry
  exact .ite hs.setPrt hs.setPrt.addReloc

theorem State.Inv.execFrackResume {q : Nat} {v : W64} (hs : s.Inv) : KeepsMemory (execFrackResume q v s) := by
  unfold Machine.execFrackResume
  exact .next (.ite hs (.ite hs.setRegion.post (.ite hs.setRegion.wakeRegion hs)))

theorem State.Inv.execRegionReload {q sl : Nat} (hs : s.Inv) : KeepsMemory (execRegionReload q sl s) := by
  unfold Machine.execRegionReload
  extract_lets +onlyGivenNames r
  refine .next ?_
  split
  · exact hs
  · extract_lets +onlyGivenNames lr place
    clear_value place
    split
    · exact hs
    · extract_lets +onlyGivenNames n n s1 _ s2 s3
      have h3 : s3.Inv := hs.moveNames.setPrt.setRegion.putTiles
      exact .wakeRegion (.regionPorts (.ite h3 h3.regionEntry))

end Sys2Proof.Machine
end

section
/-!
SUPPORT. Memory stays canonical: counters in memory, barriers, and messages between threads (R374 to R385).
-/

namespace Sys2Proof.Machine

open Sys2Proof

variable {s t : State}

theorem State.Inv.asThread {t : Nat} {f : State → State} (hs : s.Inv) (hf : ∀ u, u.Inv → (f u).Inv) :
    (s.asThread t f).Inv := (hf { s with tid := t } hs).of_mem rfl

theorem State.Inv.replyTo {t : Nat} (hs : s.Inv) : (s.replyTo t).Inv := by
  unfold State.replyTo
  exact .ite hs.replyGo hs

theorem State.Inv.forgetName {m q : Nat} {name : W32} (hs : s.Inv) : (s.forgetName m q name).Inv := by
  unfold State.forgetName
  exact .ite hs.setClu hs

theorem State.Inv.sendTrap {w : W32} {cause : Nat} {name : W32} (hs : s.Inv) : (s.sendTrap w cause name).Inv :=
  .takeTrap (.ite hs.forgetName hs)

theorem State.Inv.sendFails {t cause : Nat} {name : W32} (hs : s.Inv) : (s.sendFails t cause name).Inv := by
  unfold State.sendFails
  exact .ite hs.setThread (hs.asThread fun _ hs => hs.sendTrap)

theorem State.Inv.takeHeldReplies (hs : s.Inv) : s.takeHeldReplies.Inv := by
  unfold State.takeHeldReplies
  extract_lets +onlyGivenNames s1
  refine hs.takeLate.foldl fun _ _ hs => ?_
  split
  · exact .ite hs hs.setThread.sendFails
  · exact hs

theorem State.Inv.cntwaitLevel {sel n : W64} {c : GReg} (hs : s.Inv) : (s.cntwaitLevel sel n c).Inv := by
  unfold State.cntwaitLevel
  extract_lets +onlyGivenNames q lvl i
  split
  · exact hs.fin
  · extract_lets +onlyGivenNames x
    split
    · extract_lets +onlyGivenNames x s1
      have h1 : s1.Inv := hs.setCntr.acquire
      exact .fin (.ite h1.pokeReads h1)
    · exact .ite hs.acquire.fin hs.waitIn

theorem State.Inv.barArrive {ea : W64} {n : Nat} {p : Part} (hs : s.Inv) : (s.barArrive ea n p).Inv := by
  unfold State.barArrive
  extract_lets +onlyGivenNames s1
  have h1 : s1.Inv := hs.performOverlap.release
  exact .ite h1 h1.homeAccess.setThr.writeHome.releaseAt

theorem State.Inv.resolveName {m q : Nat} {name core : W32} (hs : s.Inv) (h : s.resolveName m q name = some (core,
    t)) :
    t.Inv := by
  unfold State.resolveName at h
  extract_lets cl at h
  split at h
  · cases h
    exact hs
  · split at h
    · cases h
    · cases h
      exact hs.setClu

theorem State.Inv.sendRemote {w name : W32} {core : W32} {w0 w1 : W64} (hs : s.Inv) :
    (s.sendRemote w name core w0 w1).Inv := by
  unfold State.sendRemote
  extract_lets p
  split
  · exact hs.sendTrap
  · exact .sendFlit (.setThr (.waitIn (.of_mem hs rfl)))

theorem State.Inv.execSend {a b c : GReg} (hs : s.Inv) : KeepsMemory (execSend a b c s) := by
  unfold Machine.execSend
  extract_lets +onlyGivenNames w name w0 w1 s1 q
  refine .next ?_
  split
  · exact hs.release.sendTrap
  · split
    · exact hs.release.sendTrap
    · split
      · exact .sendRemote (hs.release.resolveName ‹_›)
      · split
        · exact .sendTrap (hs.release.resolveName ‹_›)
        · exact .sendMsg (.setThr (.waitIn (hs.release.resolveName ‹_›)))

theorem State.Inv.delivered {m : Msg} (hs : s.Inv) : (s.delivered m).Inv := by
  unfold State.delivered
  extract_lets +onlyGivenNames s1
  split
  · exact .replyTo hs
  · exact .sendFrom hs
  · exact hs

theorem State.Inv.returned {m : Msg} {ret : Nat} (hs : s.Inv) : (s.returned m ret).Inv := .post hs

theorem State.Inv.deliver {m : Msg} {w0 pc : Nat} (hs : s.Inv) : (s.deliver m w0 pc).Inv := by
  unfold State.deliver
  exact .ite (.ite hs.place.delivered hs) (.ite hs.returned hs.deviceStore.setCore.waitiEvent.delivered)

theorem State.Inv.forward {m : Msg} {dest : W32} (hs : s.Inv) : (s.forward m dest).Inv := by
  unfold State.forward
  split
  · split
    · exact hs.returned
    · exact .post hs
  · split
    · exact hs.returned
    · extract_lets s1 go
      have hgo {u : State} (src req : Nat) (hu : u.Inv) : (go u src req).Inv := hu.sendFlit
      split
      · exact hgo _ _ hs
      · exact hgo _ _ hs
      · exact hs

theorem State.Inv.execMessageDelivery {id : Nat} (hs : s.Inv) : KeepsMemory (execMessageDelivery id s) := by
  unfold Machine.execMessageDelivery
  refine .next ?_
  split
  · exact hs
  · refine .ite hs ?_
    extract_lets held
    clear_value held
    split
    · exact hs.deliver
    · split
      · exact .ite hs.forward hs.returned
      · exact hs.returned

theorem State.Inv.execMessageReturn {id : Nat} (hs : s.Inv) : KeepsMemory (execMessageReturn id s) := by
  unfold Machine.execMessageReturn
  refine .next ?_
  split
  · exact hs
  · extract_lets +onlyGivenNames s1
    split
    · exact .sendFails hs
    · exact .sendFrom hs
    · exact hs

theorem State.Inv.takeRecv {c x n : Nat} {rq : RecvQ} {b d : GReg} (hs : s.Inv) :
    (s.takeRecv c x n rq b d).Inv := by
  unfold State.takeRecv
  exact hs.setCore.acquire.setG.setG.adv

end Sys2Proof.Machine
end

section
/-!
SUPPORT. Memory stays canonical: jobs, phases, gangs, launches and cancellation.
-/

namespace Sys2Proof.Machine

open Sys2Proof

variable {s t : State}

theorem State.Inv.failCounter {q lvl i reason : Nat} (hs : s.Inv) : (s.failCounter q lvl i reason).Inv := by
  unfold State.failCounter
  exact .ite hs.setCntr.debugEvent hs

theorem State.Inv.acceptLaunch {q : Nat} {f : From} {r : LaunchRec} {deps : Option (List Dep)} (hs : s.Inv) :
    (s.acceptLaunch q f r deps).Inv := by
  unfold State.acceptLaunch
  extract_lets +onlyGivenNames p sl c c run p p s1
  have h1 : s1.Inv := hs.setPrt.setRegion
  split
  · exact h1.writeBack ‹_›
  · exact h1

theorem State.Inv.launchStatus {q root va : Nat} {wb : Bool} {reason : Nat} (hs : s.Inv) :
    (s.launchStatus q root va wb reason).Inv := by
  unfold State.launchStatus
  split
  · split
    · exact hs.writeBack ‹_›
    · exact hs
  · exact hs

theorem State.Inv.execJobRecordTake {vf : Nat} (hs : s.Inv) : KeepsMemory (execJobRecordTake vf s) := by
  unfold Machine.execJobRecordTake
  extract_lets +onlyGivenNames v q
  refine .next ?_
  split
  · exact hs
  · extract_lets +onlyGivenNames size a v' setV
    have h_setV : ∀ x0 x1, x0.Inv → (setV x0 x1).Inv := fun _ _ hs => hs
    extract_lets +onlyGivenNames s2 s3
    have h3 : s3.Inv := .ite (h_setV _ _ hs) (h_setV _ _ hs).post
    extract_lets +onlyGivenNames bad
    have h_bad : ∀ x0, x0.Inv → (bad x0).Inv := fun _ hs => h_setV _ _ hs
    split
    · exact h_bad _ h3
    · split
      · exact h_bad _ h3
      · extract_lets +onlyGivenNames l w root
        split
        · extract_lets +onlyGivenNames s8
          split
          · split
            · exact (h_bad _ h3).writeBack ‹_›
            · exact (h_bad _ h3)
          · exact (h_bad _ h3)
        · exact h3.setCntr.setPrt.post

theorem State.Inv.toMembers {q : Nat} {members : BitVec 256} {p : Payload} (hs : s.Inv) :
    (s.toMembers q members p).Inv := by
  unfold State.toMembers
  exact .foldl hs fun _ _ hs => .ite hs.sendFrom hs

theorem State.Inv.graphStart {q ph root gva j : Nat} (hs : s.Inv) : (s.graphStart q ph root gva j).Inv := by
  unfold State.graphStart
  extract_lets +onlyGivenNames note
  have h_note : ∀ x0 x1, x0.Inv → (note x0 x1).Inv := fun _ _ hs => hs.setPrt
  extract_lets +onlyGivenNames fail
  have h_fail : ∀ x0 x1, x0.Inv → (fail x0 x1).Inv := fun _ _ hs => h_note _ _ hs.childDone
  split
  · exact h_fail _ _ hs
  · exact .ite (h_fail _ _ hs.failCounter) (.ite (h_fail _ _ hs) (.ite (h_fail _ _ hs.failCounter) (h_note _ _
      hs.setCntr.setPrt.post)))

theorem State.Inv.phaseFails {q job reason : Nat} (hs : s.Inv) : (s.phaseFails q job reason).Inv := by
  unfold State.phaseFails
  exact hs.setCntr.settle

theorem State.Inv.gangShort {q ph : Nat} (hs : s.Inv) : (s.gangShort q ph).Inv := by
  unfold State.gangShort
  exact .settle (.foldl hs.setPrt.setCntr fun _ _ hs => hs.cancelLevel)

theorem State.Inv.gangStart {q ph : Nat} (hs : s.Inv) : (s.gangStart q ph).2.Inv := by
  unfold State.gangStart
  extract_lets p r h self acks r s1 s2
  have h1 : s1.Inv := .setPrt hs
  have h2 : s2.Inv := .toMembers h1
  clear_value s2
  by_cases hc : h.cancel
  · simp only [hc, if_true]
    exact .settle (.setCntr h2)
  · simp only [hc]
    exact h2

theorem State.Inv.execPhaseStart {q job : Nat} (hs : s.Inv) : KeepsMemory (execPhaseStart q job s) := by
  unfold Machine.execPhaseStart
  refine .next (.ite hs ?_)
  extract_lets p jr k s1
  have h1 : s1.Inv := hs.setPrt
  split
  · exact h1.phaseFails
  · extract_lets +onlyGivenNames w ph gang n w2 members fail
    have hfail {u : State} (reason : Nat) (hu : u.Inv) : (fail u reason).Inv := hu.failCounter.phaseFails
    clear_value members
    refine .ite (hfail _ h1) (.ite h1.phaseFails ?_)
    split
    · exact hfail _ h1
    · refine .ite (hfail _ h1) (.ite (hfail _ h1) ?_)
      extract_lets s3 p dl run s4
      have h4 : s4.Inv := h1.setCntr.setPrt
      split
      next go u hu =>
        have hu : u.Inv := by
          split at hu
          · exact h4.gangStart.of_snd hu
          · cases hu
            exact h4
        exact .ite (.settle (.foldl hu fun _ _ hs => hs.graphStart)) hu

theorem State.Inv.execLaunchRecordRead {q g : Nat} (hs : s.Inv) : KeepsMemory (execLaunchRecordRead q g s) := by
  unfold Machine.execLaunchRecordRead
  extract_lets +onlyGivenNames p gr c
  refine .next ?_
  extract_lets +onlyGivenNames pr jr
  split
  · exact hs
  · extract_lets +onlyGivenNames va note
    have h_note : ∀ x0 x1, x0.Inv → (note x0 x1).Inv := fun _ _ hs => .ite hs.setPrt.post hs.setPrt
    extract_lets +onlyGivenNames fail
    have h_fail : ∀ x0 x1, x0.Inv → (fail x0 x1).Inv := fun _ _ hs => ((h_note _ _ hs).childDone).settle
    split
    · exact h_fail _ _ hs
    · extract_lets +onlyGivenNames r
      split
      · exact h_fail _ _ hs.launchStatus
      · exact ((h_note _ _ hs.acceptLaunch).settle).poke

theorem State.Inv.placeLaunch {q sl : Nat} {r : LaunchRun} {o : Option (Nat × Nat)} (hs : s.Inv) :
    (s.placeLaunch q sl r o).Inv := by
  unfold State.placeLaunch
  extract_lets +onlyGivenNames p s1
  split
  · exact hs.setPrt.startLoad
  · exact hs.setPrt.startTasks.settle

theorem State.Inv.execSchedulerDecision (hs : s.Inv) : KeepsMemory (execSchedulerDecision s) := by
  unfold Machine.execSchedulerDecision
  refine .next ?_
  split
  · exact hs
  · split
    · exact hs
    · extract_lets +onlyGivenNames ready before s1 p p s2 s3
      have h3 : s3.Inv := .foldl (.setPrt (.ite hs hs)) fun _ _ hs => hs.poke
      extract_lets +onlyGivenNames s5
      have h5 : s5.Inv := by
        unfold s5
        split
        · exact h3.launchFails
        · exact h3.placeLaunch
        · exact h3
      exact h5.poke

theorem State.Inv.execGangAckReceive {q : Nat} {tag : W32} {member : Nat} (hs : s.Inv) :
    KeepsMemory (execGangAckReceive q tag member s) := by
  unfold Machine.execGangAckReceive
  extract_lets +onlyGivenNames p bit
  refine .next ?_
  split
  · exact hs
  · split <;> exact hs.setPrt

theorem State.Inv.execGangCancelReceive {q : Nat} {tag : W32} (hs : s.Inv) :
    KeepsMemory (execGangCancelReceive q tag s) := by
  unfold Machine.execGangCancelReceive
  extract_lets +onlyGivenNames p
  refine .next ?_
  split
  · exact hs
  · split
    · exact hs.setPrt
    · exact .foldl hs fun _ _ hs => hs.gangShort

theorem State.Inv.execTaskDispatch {c : Nat} (hs : s.Inv) : KeepsMemory (execTaskDispatch c s) := by
  unfold Machine.execTaskDispatch
  refine .next ?_
  split
  · exact hs
  · split
    · exact hs
    · extract_lets +onlyGivenNames s1
      have h1 : s1.Inv := hs.refill.pokeEscapes
      split
      · exact h1
      · split
        · exact h1
        · extract_lets +onlyGivenNames k rest s7 s8 s9
          have h9 : s9.Inv := h1.setCore.beginThread.refill.pokeEscapes
          extract_lets +onlyGivenNames s11
          have h11 : s11.Inv := .ite h9.poke h9
          exact .ite h11 h11.poke

theorem State.Inv.execLaunch {a b c : GReg} (hs : s.Inv) : KeepsMemory (execLaunch a b c s) := by
  unfold Machine.execLaunch
  extract_lets +onlyGivenNames va gb g
  refine .next ?_
  refine hs.readRecord fun _ _ hs => ?_
  extract_lets +onlyGivenNames th q r cg reject
  have h_reject : ∀ x0, (reject x0).Inv := fun _ => hs.launchStatus.fin
  split
  · exact h_reject _
  · split
    · exact .ite (h_reject _).setCntr (h_reject _)
    · exact .ite (h_reject _) (.ite hs.waitIn hs.childAdded.acceptLaunch.fin.settle.poke)

theorem State.Inv.execSpawn {a c : GReg} (hs : s.Inv) : KeepsMemory (execSpawn a c s) := by
  unfold Machine.execSpawn
  refine .next ?_
  refine hs.readRecord fun _ _ hs => ?_
  extract_lets +onlyGivenNames th q
  split
  · exact hs.fin
  · split
    · exact hs.fin
    · split
      · exact hs.fin
      · exact .ite hs.fin hs.unitAdd.place.fin

theorem State.Inv.cancelBy {a : GReg} {lv : Level} {fault : Bool} (hs : s.Inv) : (s.cancelBy a lv fault).Inv := by
  unfold State.cancelBy
  exact hs.adv.cancel

theorem State.Inv.cancelFrom {w : W32} {a : GReg} {lv : Level} {fault : Bool} (hs : s.Inv) :
    (s.cancelFrom w a lv fault).Inv := by
  unfold State.cancelFrom
  exact .ite (hs.revokes fun _ hs => hs.cancelBy) hs.cancelBy

theorem State.Inv.execSchCancelWrite {q : Nat} {v : W64} (hs : s.Inv) :
    KeepsMemory (execSchCancelWrite q v s) := by
  unfold Machine.execSchCancelWrite
  exact .next (.ite hs.cancel hs)

theorem State.Inv.execEpsync {q : Nat} {name : W32} (hs : s.Inv) : KeepsMemory (execEpsync q name s) := by
  unfold Machine.execEpsync
  refine .next ?_
  split
  · exact hs
  · split
    · exact hs
    · exact hs.setPrt

theorem State.Inv.execEpdirWrite {q : Nat} {v : W64} (hs : s.Inv) : KeepsMemory (execEpdirWrite q v s) := by
  unfold Machine.execEpdirWrite
  exact .next (.ite hs hs.setPrt)

theorem State.Inv.execCntvalRead {vf : Nat} (hs : s.Inv) : KeepsMemory (execCntvalRead vf s) := by
  unfold Machine.execCntvalRead
  extract_lets +onlyGivenNames v q
  refine .next ?_
  split
  · exact hs.emitOut
  · split
    · exact hs.emitOut
    · exact .ite hs.emitOut.setCntr.pokeReads hs.emitOut

end Sys2Proof.Machine
end

section
/-!
SUPPORT. Memory stays canonical: the swap, spill and fill of a context, whose shares and register carve-outs are
written and zeroed.
-/

namespace Sys2Proof.Machine

open Sys2Proof

variable {s t : State}

theorem State.Inv.lockLine {m q ctx line : Nat} (hs : s.Inv) : (s.lockLine m q ctx line).Inv := by
  unfold State.lockLine
  exact .ite hs.setClu hs.setClu

theorem State.Inv.dropLine {m line : Nat} (hs : s.Inv) : (s.dropLine m line).Inv := by
  unfold State.dropLine
  exact hs.setClu

theorem State.Inv.relock {m q ctx : Nat} (hs : s.Inv) : (s.relock m q ctx).Inv := by
  unfold State.relock
  exact .foldl hs.setClu fun _ _ hs => .ite (.foldl hs fun _ _ hs => hs.dropLine.lockLine) hs.setClu

theorem State.Inv.wakePrt {q : Nat} (hs : s.Inv) : (s.wakePrt q).Inv := by
  unfold State.wakePrt
  extract_lets +onlyGivenNames p s1 s2 s3 s4 held s5 ms s7 s8 s9 s10 s11 s15
  have h15 : s15.Inv := by
    unfold s15
    refine .foldl (.foldl (.foldl (.foldl (.foldl (.foldl (.foldl (.post (.foldl (.foldl (.foldl hs
        fun _ _ hs => .ite hs.post hs) fun _ _ hs => .ite hs.post hs) fun _ _ hs => .ite hs.post hs))
        fun _ _ hs => .ite hs hs.post) fun _ _ hs => .foldl (.ite hs.pokes hs) fun _ _ hs => hs.post)
        fun _ _ hs => .foldl hs fun _ _ hs => hs.post) fun _ _ hs => hs.post) fun _ _ hs => hs.pokeCmd)
        fun _ _ hs => hs.post) fun _ _ hs => ?_
    extract_lets +onlyGivenNames sl s12
    have h12 : s12.Inv := .ite hs.wakeRegion hs
    extract_lets +onlyGivenNames s14
    have h14 : s14.Inv := .ite h12.post h12
    exact .ite h14.post h14
  exact h15.pokeCtx

theorem State.Inv.pokeResize (hs : s.Inv) : s.pokeResize.Inv := by
  unfold State.pokeResize
  split
  · exact hs
  · split
    · exact hs.poke
    · exact hs.poke
    · exact hs.poke
    · exact hs.pokes
    · exact hs.pokes
    · exact hs.poke
    · exact hs.poke

theorem State.Inv.wakeAll (hs : s.Inv) : s.wakeAll.Inv := .pokeResize (.foldl hs fun _ _ hs => .ite hs.wakePrt hs)

theorem State.Inv.zeroShares {q x : Nat} (hs : s.Inv) : (s.zeroShares q x).Inv := Tbl.wf_filter 0 s.mem _ hs

theorem State.Inv.putShares {q x : Nat} {cells : List Host.Cell} {full : Tbl FullBit} (hs : s.Inv) :
    (s.putShares q x cells full).Inv :=
  Memory.wf_foldl _ (fun m _ h => Memory.wf_set m _ _ h) _ _ hs

theorem State.Inv.carveOut {c x : Nat} (hs : s.Inv) : (s.carveOut c x).Inv := by
  unfold State.carveOut
  refine .foldl hs fun u i hu => .setThread ?_
  exact Memory.wf_foldl _ (fun m _ h => Memory.wf_writeList m _ _ h) _ _
    (Memory.wf_foldl _ (fun m _ h => Memory.wf_writeList m _ _ h) _ _ (Memory.wf_zero u.mem _ _ hu))

theorem State.Inv.carveIn {c x : Nat} (hs : s.Inv) : (s.carveIn c x).Inv := by
  unfold State.carveIn
  exact .foldl hs fun u _ hu => .setThread (Memory.wf_zero u.mem _ _ hu)

theorem State.Inv.setCtx {q a b : Nat} (hs : s.Inv) : (s.setCtx q a b).Inv := by
  unfold State.setCtx
  exact hs

theorem State.Inv.moveThreads {q ctx base base' : Nat} (hs : s.Inv) : (s.moveThreads q ctx base base').Inv :=
  hs.rename

theorem State.Inv.stopThreads {q ctx : Nat} (hs : s.Inv) : (s.stopThreads q ctx).Inv := by
  unfold State.stopThreads
  exact .foldl hs fun _ _ hs => .setThread (.of_mem hs.performAll.withdraw rfl)

theorem State.Inv.setCtxState {q st status : Nat} (hs : s.Inv) : (s.setCtxState q st status).Inv := hs.setPrt

theorem State.Inv.ctxStart {q cmd : Nat} (hs : s.Inv) : (s.ctxStart q cmd).Inv := by
  unfold State.ctxStart
  extract_lets +onlyGivenNames p x a
  split
  · exact hs.setCtxState.post
  · exact .ite hs.setCtxState.post hs.setCtxState
  · split
    · exact hs.setCtxState
    · split
      · exact hs.setCtxState
      · exact .ite hs.setCtxState (.ite hs.setCtxState (.ite hs.setCtxState hs.setCtxState.post))

theorem State.Inv.ctxCmd {q cmd : Nat} (hs : s.Inv) : (s.ctxCmd q cmd).Inv := by
  unfold State.ctxCmd
  exact .ite hs (.ite hs.setPrt (.ite hs.setPrt hs.ctxStart))

theorem State.Inv.ctxWake {q : Nat} (hs : s.Inv) : (s.ctxWake q).Inv := by
  unfold State.ctxWake
  exact .ite hs hs.setPrt.ctxStart

theorem State.Inv.swap {q : Nat} (hs : s.Inv) : (s.swap q).Inv := by
  unfold State.swap
  extract_lets +onlyGivenNames x y ms s1
  have h1 : s1.Inv := by
    unfold s1
    refine hs.foldl fun _ _ hs => ?_
    split
    · exact .ite hs.queueDone hs
    · exact hs
  exact .setPrt (.rename (.foldl (.foldl (.foldl h1.stopThreads fun _ _ hs => .foldl hs.landRequests
      fun _ _ hs => hs.fabStepEnd) fun _ _ hs => hs.setClu.relock) fun _ _ hs => hs.setCore))

theorem State.Inv.execCtxSwapDone {q : Nat} (hs : s.Inv) : KeepsMemory (execCtxSwapDone q s) := by
  unfold Machine.execCtxSwapDone
  refine .next ?_
  split
  · exact .ite hs hs.swap.wakePrt
  · exact hs.ctxWake
  · exact hs

theorem State.Inv.dropTileTlb {q x : Nat} (hs : s.Inv) : (s.dropTileTlb q x).Inv := by
  unfold State.dropTileTlb
  exact .foldl hs fun _ _ hs => hs.setClu

theorem State.Inv.noExtents {q x : Nat} (hs : s.Inv) : (s.noExtents q x).Inv := hs

theorem State.Inv.execCtxFillDone {q : Nat} (hs : s.Inv) : KeepsMemory (execCtxFillDone q s) := by
  unfold Machine.execCtxFillDone
  extract_lets +onlyGivenNames p x
  refine .next ?_
  split
  · exact hs
  · split
    · exact hs.setCtxState
    · exact hs.zeroShares.putShares.moveThreads.setCtx.noExtents.setPrt

end Sys2Proof.Machine
end

section
/-!
SUPPORT. Memory stays canonical: jumps, page walks, shoot-downs and migration (R246 to R253).
-/

namespace Sys2Proof.Machine

open Sys2Proof

variable {s t : State}

theorem State.Inv.walkAnswer {w : Walk} {r : WalkRes} {t : Nat} {fetch : Bool} (hs : s.Inv) :
    (s.walkAnswer w r t fetch).Inv := by
  unfold State.walkAnswer
  extract_lets +onlyGivenNames th
  split
  · exact .ite hs.setCore (.ite hs.setCore.setThread hs.setCore.setThread)
  · exact .ite hs.setThread hs

theorem State.Inv.execPageWalkDone {m : Nat} (hs : s.Inv) : KeepsMemory (execPageWalkDone m s) := by
  unfold Machine.execPageWalkDone
  extract_lets +onlyGivenNames cl
  refine .next ?_
  split
  · exact hs
  · exact .foldl hs.choice.setClu fun _ _ hs => hs.walkAnswer

theorem State.Inv.startShoot {q : Nat} {ctl : W64} {first : Nat} {tid : Option (Nat × Nat)} (hs : s.Inv) :
    (s.startShoot q ctl first tid).2.Inv := by
  unfold State.startShoot
  exact .foldl hs.setPrt fun _ _ hs => hs.post

theorem State.Inv.completeShoots {q n : Nat} (hs : s.Inv) : (s.completeShoots q n).Inv := by
  induction n generalizing s with
  | zero => exact hs
  | succ n ih =>
    unfold State.completeShoots
    extract_lets p
    split
    · refine .ite (ih (.foldl ?_ fun _ _ hs => .ite hs.post hs)) hs
      split
      · exact .ite (.replyGo (.replyReg hs.setPrt)) hs.setPrt
      · exact hs.setPrt
    · exact hs

theorem State.Inv.ackCore {c : Nat} {h : Shoot} (hs : s.Inv) : (s.ackCore c h).Inv := by
  unfold State.ackCore
  exact .foldl hs.setCore fun _ _ hs => .ite (.foldl (hs.setThread.performAll.of_mem rfl)
      fun _ _ hs => hs.unserved) hs

theorem State.Inv.ackRegion {q sl : Nat} {h : Shoot} (hs : s.Inv) : (s.ackRegion q sl h).Inv := by
  unfold State.ackRegion
  exact .ite hs (.setRegion (.foldl hs fun _ _ hs => hs.fillLines))

theorem State.Inv.ackFetch {m : Nat} {h : Shoot} (hs : s.Inv) : (s.ackFetch m h).Inv := by
  unfold State.ackFetch
  exact hs.setClu

theorem State.Inv.execShootdownAck {q agent : Nat} (hs : s.Inv) : KeepsMemory (execShootdownAck q agent s) := by
  unfold Machine.execShootdownAck
  extract_lets +onlyGivenNames p
  refine .next ?_
  split
  · exact hs
  · exact .ite hs (.completeShoots (.ite hs.setPrt.ackCore (.ite hs.setPrt.ackRegion (.ite hs.setPrt.ackFetch
      hs.setPrt))))

theorem State.Inv.execMmuInvctlGo {q : Nat} {v : W64} (hs : s.Inv) : KeepsMemory (execMmuInvctlGo q v s) := by
  unfold Machine.execMmuInvctlGo
  exact .next (.ite hs.setPrt.startShoot hs.setPrt)

theorem State.Inv.execMigStart {q i : Nat} {v : W64} (hs : s.Inv) : KeepsMemory (execMigStart q i v s) := by
  unfold Machine.execMigStart
  extract_lets +onlyGivenNames p _ m
  refine .next ?_
  split
  · exact hs.setPrt
  · split
    · exact hs.setPrt
    · exact hs.setPrt.post

theorem State.Inv.moveBytes {src dst n : Nat} (hs : s.Inv) : (s.moveBytes src dst n).Inv := by
  unfold State.moveBytes
  extract_lets +onlyGivenNames l bad s1 s2 s3
  have h3 : s3.Inv := .foldl hs.flushRange.flushRange.writeBytes fun _ _ hs => hs
  exact h3

theorem State.Inv.execMigGranuleCopy {q i : Nat} (hs : s.Inv) : KeepsMemory (execMigGranuleCopy q i s) := by
  unfold Machine.execMigGranuleCopy
  extract_lets +onlyGivenNames p m
  refine .next ?_
  split
  · exact hs
  · split
    · exact hs.performPrt.moveBytes.setPrt.post
    · exact hs

theorem State.Inv.rewriteLeaf {q : Nat} {m : Mig} (hs : s.Inv) : (s.rewriteLeaf q m).Inv := by
  unfold State.rewriteLeaf
  extract_lets +onlyGivenNames n a0
  refine hs.foldl fun _ _ hs => ?_
  extract_lets +onlyGivenNames a e
  split
  · exact hs.deviceStore
  · exact hs

theorem State.Inv.execMigComplete {q i : Nat} (hs : s.Inv) : KeepsMemory (execMigComplete q i s) := by
  unfold Machine.execMigComplete
  extract_lets +onlyGivenNames p m
  refine .next ?_
  split
  · exact hs
  · split
    · exact .ite hs hs.rewriteLeaf.startShoot.setPrt.completeShoots
    · exact .ite hs.setPrt hs

end Sys2Proof.Machine
end

section
/-!
SUPPORT. Memory stays canonical: control registers, locks and the other system instructions.
-/

namespace Sys2Proof.Machine

open Sys2Proof

variable {s t : State}

theorem State.Inv.nextOr {o : Result} (hs : s.Inv) (h : KeepsMemory o) : (nextOr o s).Inv := by
  unfold Machine.nextOr
  split
  · exact h _ rfl
  · exact hs

theorem State.Inv.execPoolpwWrite {c x : Nat} {v : W64} (hs : s.Inv) : KeepsMemory (execPoolpwWrite c x v s) := by
  unfold Machine.execPoolpwWrite
  exact .next (.ite (.ite hs.carveOut.setCore.carveIn hs.carveOut.setCore.carveIn.post) hs.setCore)

theorem State.Inv.execMtpwWrite {q x : Nat} {v : W64} (hs : s.Inv) : KeepsMemory (execMtpwWrite q x v s) := by
  unfold Machine.execMtpwWrite
  exact .next (.ite hs hs.setPrt)

theorem State.Inv.execFrbaseWrite {q : Nat} {v : W64} (hs : s.Inv) : KeepsMemory (execFrbaseWrite q v s) := by
  unfold Machine.execFrbaseWrite
  exact .next (.ite hs.setPrt hs)

theorem State.Inv.execRqdescWrite {c x n : Nat} {v : W64} (hs : s.Inv) :
    KeepsMemory (execRqdescWrite c x n v s) := by
  unfold Machine.execRqdescWrite
  exact .next (.ite hs hs.setCore)

theorem State.Inv.writeShared {q x n : Nat} {v : W64} (hs : s.Inv) : (s.writeShared q x n v).Inv := by
  unfold State.writeShared
  extract_lets +onlyGivenNames p c
  split
  · exact hs.nextOr hs.execRqdescWrite
  · split
    · exact .ite (hs.nextOr hs.execMigStart) hs.setPrt
    · split
      · exact hs.setPrt
      · exact hs.nextOr hs.execFrbaseWrite
      · exact hs.setPrt
      · exact hs.setPrt
      · exact hs.setPrt
      · exact hs.nextOr hs.execFrackResume
      · exact hs.nextOr hs.execMtpwWrite
      · exact hs.nextOr hs.execMtpwWrite
      · exact hs.ctxCmd
      · exact hs.setPrt
      · extract_lets +onlyGivenNames sel
        split
        · exact hs.nextOr hs.execPoolpwWrite
        · exact hs
      · split
        · exact hs.setClu.post
        · exact hs
      · exact hs.setPrt
      · exact hs

theorem State.Inv.execIlock {d a : GReg} (hs : s.Inv) : KeepsMemory (execIlock d a s) := by
  unfold Machine.execIlock
  extract_lets +onlyGivenNames w th m
  refine .next ?_
  split
  · exact hs.privileged
  · extract_lets +onlyGivenNames rs
    split
    · exact hs.takeTrap
    · exact .fin (.ite (.foldl hs fun _ _ hs => hs.lockLine) hs)

end Sys2Proof.Machine
end

section
/-!
SUPPORT. Memory stays canonical: Clapper, Tocsin and the comparators.
-/

namespace Sys2Proof.Machine

open Sys2Proof

variable {s t : State}

theorem State.Inv.execClapperArm {v : W32} (hs : s.Inv) : KeepsMemory (execClapperArm v s) := by
  unfold Machine.execClapperArm
  exact .next (.ite (.clapper hs) hs)

theorem State.Inv.execRemoteClapperTrigger (hs : s.Inv) : KeepsMemory (execRemoteClapperTrigger s) :=
  .next hs.clapper

theorem State.Inv.execDbgEvtWrite {n : Nat} {v : W32} (hs : s.Inv) : KeepsMemory (execDbgEvtWrite n v s) := by
  unfold Machine.execDbgEvtWrite
  exact .next (.ite hs hs)

theorem State.Inv.execTocsinHalt (hs : s.Inv) : KeepsMemory (execTocsinHalt s) := .next hs.tocsin

theorem State.Inv.execTocsinStep (hs : s.Inv) : KeepsMemory (execTocsinStep s) := by
  unfold Machine.execTocsinStep
  exact .next (.ite (.wakeAll (.takeHeldReplies hs)) hs)

theorem State.Inv.resume (hs : s.Inv) : s.resume.Inv := by
  unfold State.resume
  split
  · extract_lets +onlyGivenNames _ s1
    have h1 : s1.Inv := .wakeAll (.takeHeldReplies hs)
    exact .ite h1.propagate h1
  · exact hs

theorem State.Inv.execTocsinResume (hs : s.Inv) : KeepsMemory (execTocsinResume s) := .next hs.resume

theorem State.Inv.execRemoteTocsin {resume : Bool} (hs : s.Inv) : KeepsMemory (execRemoteTocsin resume s) := by
  unfold Machine.execRemoteTocsin
  exact .next (.ite hs.resume hs.tocsin)

theorem State.Inv.writeTocsin {v : W32} (hs : s.Inv) : (s.writeTocsin v).Inv := by
  unfold State.writeTocsin
  extract_lets _ s1
  have h1 : s1.Inv := hs
  split
  · exact h1.nextOr h1.execTocsinHalt
  · exact h1.nextOr h1.execTocsinStep
  · exact h1.nextOr h1.execTocsinResume
  · exact h1

end Sys2Proof.Machine
end

section
/-!
SUPPORT. Memory stays canonical: the instructions that configure and feed a region (R398 to R405).
-/

namespace Sys2Proof.Machine

open Sys2Proof

variable {s t : State}

theorem State.Inv.threadLoad {slot : Nat} {shadow : Bool} {image : W64} {origin : W32} {d : GReg} (hs : s.Inv) :
    (s.threadLoad slot shadow image origin d).Inv := by
  unfold State.threadLoad
  exact hs.waitIn.startLoad

theorem State.Inv.rollStart {q sl : Nat} {ws : List W32} {d : GReg} (hs : s.Inv) :
    (s.rollStart q sl ws d).Inv := by
  unfold State.rollStart
  exact .ite hs.fin (.ite hs.fin (.ite hs.fin hs.waitIn.afterSwap))

theorem State.Inv.execCfgpatch {a b c : GReg} (hs : s.Inv) : KeepsMemory (execCfgpatch a b c s) := by
  unfold Machine.execCfgpatch
  extract_lets +onlyGivenNames q sl r va
  refine .next ?_
  split
  · exact hs.waitIn
  · split
    · exact hs.fin
    · split
      · extract_lets +onlyGivenNames g
        split
        · exact hs.fin
        · split
          · exact hs.setRegion.fin
          · exact hs.fin
      · extract_lets +onlyGivenNames x
        split
        · exact hs.fin
        · split
          · exact hs.setRegion.fin
          · exact hs.fin

theorem State.Inv.execQput {a b c : GReg} (hs : s.Inv) : KeepsMemory (execQput a b c s) := by
  unfold Machine.execQput
  extract_lets +onlyGivenNames x t
  refine .next ?_
  refine hs.revokes fun _ hs => ?_
  extract_lets +onlyGivenNames s1 q
  split
  · exact hs.release.fin
  · exact .ite hs.release.fin (.ite hs.release.fin (.ite hs.release.fin hs.release.fifoPut.putSite.fin))

theorem State.Inv.execQtake {a b c : GReg} (hs : s.Inv) : KeepsMemory (execQtake a b c s) := by
  unfold Machine.execQtake
  extract_lets +onlyGivenNames x q out
  have h_out : ∀ x0 x1 x2 x3, x0.Inv → (out x0 x1 x2 x3).Inv := fun _ _ _ _ hs => hs.setG.setG.adv
  refine .next ?_
  refine hs.revokes fun _ hs => ?_
  split
  · exact h_out _ _ _ _ hs
  · exact .ite (h_out _ _ _ _ hs) (.ite (h_out _ _ _ _ hs.acquire) (h_out _ _ _ _ hs.putSite.acquire))

theorem State.Inv.execQwait {a b c : GReg} (hs : s.Inv) : KeepsMemory (execQwait a b c s) := by
  unfold Machine.execQwait
  refine .next ?_
  refine hs.revokes fun _ hs => ?_
  split
  · exact hs.fin
  · exact .ite hs.fin hs.waitIn

theorem State.Inv.execCtok {a b c : GReg} (hs : s.Inv) : KeepsMemory (execCtok a b c s) := by
  unfold Machine.execCtok
  extract_lets +onlyGivenNames x t
  refine .next ?_
  refine hs.revokes fun _ hs => ?_
  extract_lets +onlyGivenNames s1
  split
  · exact hs.release.fin
  · exact .ite hs.release.fin (.ite hs.release.fin (.ite hs.release.fin hs.release.putSite.fin))

theorem State.Inv.escReply {w : W32} {x : W64} {toks : Token → List Token} (hs : s.Inv) :
    (s.escReply w x toks).Inv := by
  unfold State.escReply
  split
  · exact hs.takeTrap
  · extract_lets +onlyGivenNames s1 q ctx k gen s2
    split
    · exact hs.release.takeTrap
    · extract_lets +onlyGivenNames parked
      split
      · exact hs.release.takeTrap
      · extract_lets +onlyGivenNames y
        split
        · exact hs.release.takeTrap
        · exact .adv (.ite hs.release.putRegion.poke.setThr hs.release.putRegion.poke)

end Sys2Proof.Machine
end

section
/-!
SUPPORT. Memory stays canonical: links, flits and remote requests. A remote request writes through the same
operations as a local one.
-/

namespace Sys2Proof.Machine

open Sys2Proof

variable {s t : State}

theorem State.Inv.execLnkPkgidWrite {v : W32} (hs : s.Inv) : KeepsMemory (execLnkPkgidWrite v s) := by
  unfold Machine.execLnkPkgidWrite
  exact .next (.ite hs hs)

theorem State.Inv.execLinkClr {n : Nat} (hs : s.Inv) : KeepsMemory (execLinkClr n s) := .next hs.setLink

theorem State.Inv.execLnkPrtRtWrite {q cls dst : Nat} {v : W32} (hs : s.Inv) :
    KeepsMemory (execLnkPrtRtWrite q cls dst v s) := by
  unfold Machine.execLnkPrtRtWrite
  exact .next hs.setPrt

theorem State.Inv.execLnkLinkmaskWrite {q : Nat} {v : W32} (hs : s.Inv) :
    KeepsMemory (execLnkLinkmaskWrite q v s) := by
  unfold Machine.execLnkLinkmaskWrite
  exact .next hs.setPrt

theorem State.Inv.execLnkDomainWrite {q : Nat} {v : W32} (hs : s.Inv) :
    KeepsMemory (execLnkDomainWrite q v s) := by
  unfold Machine.execLnkDomainWrite
  exact .next (.ite hs hs.setPrt)

theorem State.Inv.leftUp {n : Nat} (hs : s.Inv) : (s.leftUp n).Inv := by
  unfold State.leftUp
  exact .ite hs.hifError hs

theorem State.Inv.dropLink {n : Nat} {st : LinkSt} (hs : s.Inv) : (s.dropLink n st).Inv := by
  unfold State.dropLink
  extract_lets +onlyGivenNames s1 l s2
  refine hs.leftUp.setLink.foldl fun _ _ hs => ?_
  split
  · exact hs.setLink.post
  · exact hs.dropNoroute

theorem State.Inv.execLinkEnable {n : Nat} {v : W32} (hs : s.Inv) : KeepsMemory (execLinkEnable n v s) := by
  unfold Machine.execLinkEnable
  extract_lets +onlyGivenNames s1
  have h1 : s1.Inv := .ite (hs.nextOr hs.execLinkClr) hs
  exact .next (.ite (.ite h1 h1.setLink) h1.setLink.dropLink)

theorem State.Inv.execLinkDown {n : Nat} (hs : s.Inv) : KeepsMemory (execLinkDown n s) := .next hs.dropLink

theorem State.Inv.execLinkRetrain {n : Nat} (hs : s.Inv) : KeepsMemory (execLinkRetrain n s) := by
  unfold Machine.execLinkRetrain
  exact .next (.ite hs.leftUp.setLink hs)

theorem State.Inv.transmit {n : Nat} {x : Queued} (hs : s.Inv) : (s.transmit n x).Inv := by
  unfold State.transmit
  exact hs.setLink.emitOut.post

theorem State.Inv.execFlitTransmit {n : Nat} (hs : s.Inv) : KeepsMemory (execFlitTransmit n s) := by
  unfold Machine.execFlitTransmit
  extract_lets +onlyGivenNames l
  refine .next ?_
  split
  · exact hs
  · split
    · exact hs.transmit
    · split
      · exact hs
      · split
        · exact hs
        · exact hs.setLink.transmit

theorem State.Inv.sendEnds {req : Nat} {trap : Option (Nat × W32)} (hs : s.Inv) : (s.sendEnds req trap).Inv := by
  unfold State.sendEnds
  split
  · extract_lets +onlyGivenNames _ s1
    split
    · exact hs
    · split
      · exact .sendFails hs
      · exact .replyGo hs
  · exact hs

theorem State.Inv.remoteDone {req : Nat} {data : List Byte} {cause : Nat} (hs : s.Inv) :
    (s.remoteDone req data cause).Inv := by
  unfold State.remoteDone
  split
  · exact hs
  · extract_lets _ s1
    have h1 : s1.Inv := hs
    split
    · exact h1
    · extract_lets n a
      refine .ite h1.faultCmd (.ite ?_ h1.partDone)
      split
      · exact h1.faultCmd
      · exact (h1.engineWrite ‹_›).partDone

theorem State.Inv.execRouteNotice {req : Nat} (hs : s.Inv) : KeepsMemory (execRouteNotice req s) := by
  unfold Machine.execRouteNotice
  refine .next ?_
  split
  · exact hs
  · split
    · extract_lets +onlyGivenNames _ s1
      split
      · exact .endCmd hs
      · exact hs
    · exact hs.sendEnds

theorem State.Inv.answer {src domain req : Nat} {data : List Byte} {cause : Nat} (hs : s.Inv) :
    (s.answer src domain req data cause).Inv := by
  unfold State.answer
  exact hs.sendFlit

theorem State.Inv.execRemoteMemoryRequest {src domain : Nat} {p : Payload} (hs : s.Inv) :
    KeepsMemory (execRemoteMemoryRequest src domain p s) := by
  unfold Machine.execRemoteMemoryRequest
  extract_lets +onlyGivenNames agent
  refine .next ?_
  split
  · split
    · exact hs.answer
    · split
      · exact .ite hs.post hs.answer
      · exact .answer (hs.engineWrite ‹_›)
  · split
    · exact hs.answer
    · split
      · exact .ite hs.post hs.answer
      · exact hs.answer
  · exact hs.remoteDone
  · exact hs

theorem State.Inv.receiveMsg {n q : Nat} {f : Flit} {name core : W32} {w0 w1 : W64} {sender : W32}
    {req hops : Nat} (hs : s.Inv) : (s.receiveMsg n q f name core w0 w1 sender req hops).Inv := by
  unfold State.receiveMsg
  split
  · exact hs.sendMsg
  · exact .ite hs.dropNoroute hs.sendFrom

theorem State.Inv.deliverFlit {n : Nat} {f : Flit} (hs : s.Inv) : (s.deliverFlit n f).Inv := by
  unfold State.deliverFlit
  extract_lets +onlyGivenNames d
  split
  · exact hs.nextOr hs.execRemoteClapperTrigger
  · exact hs.nextOr hs.execRemoteTocsin
  · exact hs.nextOr hs.execRouteNotice
  · exact hs
  · split
    · exact .ite hs hs.dropNoroute
    · split
      · exact hs.receiveMsg
      · exact hs.sendEnds
      · exact hs.sendEnds
      · exact hs.nextOr hs.execGangAckReceive
      · exact hs.nextOr hs.execGangCancelReceive
      · exact hs.collFlit
      · exact hs.collAbort
      · exact hs.nextOr hs.execRemoteMemoryRequest

theorem State.Inv.emitCtl {n : Nat} {nak : Bool} {credits : Nat} {c : FClass} (hs : s.Inv) :
    (s.emitCtl n nak credits c).Inv := by
  unfold State.emitCtl
  exact hs.emitOut

theorem State.Inv.ackLink {n ack : Nat} (hs : s.Inv) : (s.ackLink n ack).Inv := by
  unfold State.ackLink
  exact .foldl hs.setLink fun _ _ hs => .ite hs.post hs

theorem State.Inv.replay {n : Nat} (hs : s.Inv) : (s.replay n).Inv := by
  unfold State.replay
  extract_lets +onlyGivenNames l
  split
  · exact hs
  · extract_lets +onlyGivenNames l s1
    have h1 : s1.Inv := .foldl hs.setLink fun _ _ hs => hs.emitOut
    exact .ite (h1.nextOr h1.execLinkRetrain) h1

theorem State.Inv.execFlitReceive {n : Nat} {f : Flit} {crcOk : Bool} (hs : s.Inv) :
    KeepsMemory (execFlitReceive n f crcOk s) := by
  unfold Machine.execFlitReceive
  extract_lets +onlyGivenNames l
  refine .next ?_
  split
  · exact hs
  · split
    · exact hs.emitCtl
    · extract_lets +onlyGivenNames s1 l l s2
      have h2 : s2.Inv := .post (.setLink (.ite hs.ackLink hs))
      extract_lets +onlyGivenNames s8
      have h8 : s8.Inv := .ite h2.replay h2
      split
      · exact h8.nextOr h8.execLinkRetrain
      · exact .ite h8 (.ite h8.setLink.emitCtl.deliverFlit (.ite h8.setLink.emitCtl.dropNoroute
          h8.setLink.emitCtl.sendFlit))
      · exact h8

end Sys2Proof.Machine
end

section
/-!
SUPPORT. Memory stays canonical: doorbells, function-level resets, CXL, snoops and the apertures.
-/

namespace Sys2Proof.Machine

open Sys2Proof

variable {s t : State}

theorem State.Inv.setVf {v : Nat} {x : Vf} (hs : s.Inv) : (s.setVf v x).Inv := hs

theorem State.Inv.execVfBindWrite {n : Nat} {w : W32} (hs : s.Inv) : KeepsMemory (execVfBindWrite n w s) := by
  unfold Machine.execVfBindWrite
  exact .next (.ite hs (.ite hs.setVf.post hs.setVf))

theorem State.Inv.execDoorbell {n port : Nat} {w : W32} (hs : s.Inv) : KeepsMemory (execDoorbell n port w s) := by
  unfold Machine.execDoorbell
  exact .next (.ite hs (.ite hs.setVf hs.setVf.post))

theorem State.Inv.resetJobs {q : Nat} {f : JobRun → Bool} (hs : s.Inv) : (s.resetJobs q f).Inv := by
  unfold State.resetJobs
  exact .foldl hs fun _ _ hs => .ite hs.cancelLevel hs

theorem State.Inv.dropQueues (hs : s.Inv) : s.dropQueues.Inv := by
  unfold State.dropQueues
  extract_lets +onlyGivenNames pks s1
  refine .foldl hs fun _ _ hs => ?_
  extract_lets +onlyGivenNames s2
  have h2 : s2.Inv := by
    unfold s2
    split
    · exact hs.freeTicket
    · exact hs
  exact h2.unitEnd

theorem State.Inv.clearBinds {f : Vf → Bool} (hs : s.Inv) : (s.clearBinds f).Inv := hs

theorem State.Inv.execMemoryUncorrectableError {k : MemKind} {a : Nat} (hs : s.Inv) :
    KeepsMemory (execMemoryUncorrectableError k a s) := by
  unfold Machine.execMemoryUncorrectableError
  extract_lets +onlyGivenNames _ s1 s2
  have h2 : s2.Inv := .hifError (.ite hs hs)
  exact .next (.ite h2 h2)

theorem State.Inv.backInvalidate {a : Nat} (hs : s.Inv) : (s.backInvalidate a).Inv := by
  unfold State.backInvalidate
  exact hs

theorem State.Inv.hostHolds {a : Nat} (hs : s.Inv) : (s.hostHolds a).Inv := by
  unfold State.hostHolds
  exact .ite hs hs

theorem State.Inv.keepBeneath {w : Nat} (hs : s.Inv) : (s.keepBeneath w).Inv := by
  unfold State.keepBeneath
  refine hs.foldl fun _ _ hs => ?_
  split
  · exact hs
  · split
    · exact hs
    · exact hs

theorem State.Inv.hostPut {w : Nat} {l : List Byte} (hs : s.Inv) : (s.hostPut w l).Inv := by
  unfold State.hostPut
  split
  · exact hs
  · exact hs.keepBeneath.writeBytes

theorem State.Inv.bar2Put {q a : Nat} {b : Byte} (hs : s.Inv) : (s.bar2Put q a b).Inv := by
  unfold State.bar2Put
  split
  · exact .ite hs.deviceWrite hs
  · exact .ite hs hs.setThread
  · exact hs

theorem State.Inv.execHostBar2Access {pf : Nat} {write : Bool} {off n : Nat} {data : List Byte} (hs : s.Inv) :
    KeepsMemory (execHostBar2Access pf write off n data s) := by
  unfold Machine.execHostBar2Access
  extract_lets r q a
  refine .next (.ite hs (.ite (.foldl ?_ fun _ _ hs => ?_) hs.emitOut))
  · exact data.foldlRecOn (motive := fun e : State × Nat => e.1.Inv) _ hs fun _ he _ _ => he.bar2Put
  · split
    · exact hs.serveRange
    · exact hs

theorem State.Inv.setFw {st : Nat} (hs : s.Inv) : (s.setFw st).Inv := by
  unfold State.setFw
  exact .ite (.irq hs) hs

theorem State.Inv.execFwStart (hs : s.Inv) : KeepsMemory (execFwStart s) := by
  unfold Machine.execFwStart
  exact .next (.ite hs (.setFw hs))

theorem State.Inv.execFwVerifyDone {r : FwResult} {hash : BitVec 512} {svn : Byte} {raises : Bool} (hs : s.Inv) :
    KeepsMemory (execFwVerifyDone r hash svn raises s) := by
  unfold Machine.execFwVerifyDone
  extract_lets +onlyGivenNames _ s1
  refine .next ?_
  split
  · exact hs
  · split
    · exact .setFw hs
    · exact .setFw hs
    · exact .setFw hs
    · exact .ite (.setFw hs) (.setFw (.of_mem hs rfl))

theorem State.Inv.execFwActivate (hs : s.Inv) : KeepsMemory (execFwActivate s) := by
  unfold Machine.execFwActivate
  exact .next (.ite hs.setFw (.post hs))

theorem State.Inv.execFwActivateDone (hs : s.Inv) : KeepsMemory (execFwActivateDone s) := by
  unfold Machine.execFwActivateDone
  refine .next ?_
  split
  · exact hs
  · exact .setFw (.of_mem (.foldl hs fun _ _ hs => .ite (hs.nextOr hs.execLinkDown) hs) rfl)

end Sys2Proof.Machine
end

section
/-!
SUPPORT. Memory stays canonical: the integer forms whose result is not a single expression.
-/

namespace Sys2Proof.Machine

open Sys2Proof

variable {s t : State}

theorem State.Inv.int2 {d a b : GReg} {f : W64 → W64 → W64} (hs : s.Inv) : (s.int2 d a b f).Inv := hs.fin

theorem State.Inv.int1 {d a : GReg} {f : W64 → W64} (hs : s.Inv) : (s.int1 d a f).Inv := hs.fin

end Sys2Proof.Machine
end

section
/-!
SUPPORT. Memory stays canonical: islands, and the resets and losses of power, which only drop bytes (R5, R20 to R25).
-/

namespace Sys2Proof.Machine

open Sys2Proof

variable {s t : State}

theorem State.Inv.setIsland {n : Nat} {x : Island} (hs : s.Inv) : (s.setIsland n x).Inv := hs

theorem State.Inv.execFundamentalReset (hs : s.Inv) : KeepsMemory (execFundamentalReset s) :=
  .next (Tbl.wf_filter 0 s.mem _ hs)

theorem State.Inv.islAccept {n state freq : Nat} (hs : s.Inv) : (s.islAccept n state freq).Inv := by
  unfold State.islAccept
  exact .ite hs.setIsland.post hs.setIsland

theorem State.Inv.execPwrIslCtlWrite {n : Nat} {v : W32} (hs : s.Inv) : KeepsMemory (execPwrIslCtlWrite n v s) :=
  .next (.ite hs (.ite hs.setIsland (.ite hs.setIsland hs.islAccept)))

theorem State.Inv.loseRange {lo hi : Nat} (hs : s.Inv) : (s.loseRange lo hi).Inv := by
  unfold State.loseRange
  exact hs.zeroRange.of_mem rfl

theorem State.Inv.loseDdr {d : Nat} (hs : s.Inv) : (s.loseDdr d).Inv := Tbl.wf_filter 0 s.mem _ hs

theorem State.Inv.clearSram {n : Nat} (hs : s.Inv) : (s.clearSram n).Inv := by
  unfold State.clearSram
  exact .ite (.foldl hs fun _ _ hs => .ite (.foldl hs fun _ _ hs => hs.zeroRange) hs) (.ite (.foldl hs
      fun _ _ hs => .ite hs.zeroRange hs) hs)

theorem State.Inv.powerOff {n : Nat} (hs : s.Inv) : (s.powerOff n).Inv := by
  unfold State.powerOff
  extract_lets +onlyGivenNames i s1
  split
  · exact hs.clearSram.of_mem rfl
  · split
    · exact hs.clearSram.of_mem rfl
    · split
      · exact hs.clearSram.of_mem rfl
      · extract_lets +onlyGivenNames s2
        have h2 : s2.Inv := .foldl hs.clearSram fun _ _ hs => .ite hs.loseRange hs
        extract_lets +onlyGivenNames s4
        have h4 : s4.Inv := .ite h2.loseDdr h2
        exact .ite (.foldl h4 fun _ _ hs => hs.dropLink) h4

theorem State.Inv.powerOn {n : Nat} (hs : s.Inv) : (s.powerOn n).Inv := by
  unfold State.powerOn
  exact .ite (.foldl hs.clearSram fun _ _ hs => .ite hs.setLink hs) hs.clearSram

theorem State.Inv.execIslandTransitionDone {n : Nat} (hs : s.Inv) :
    KeepsMemory (execIslandTransitionDone n s) := by
  unfold Machine.execIslandTransitionDone
  extract_lets +onlyGivenNames x
  refine .next ?_
  split
  · exact hs
  · extract_lets +onlyGivenNames s1 _ s2
    have h2 : s2.Inv := .setIsland (.ite hs.powerOff (.ite hs.powerOn hs))
    extract_lets +onlyGivenNames s4
    split
    · exact h2.wakeAll
    · exact .ite h2.wakeAll.setIsland h2.wakeAll.islAccept

theorem State.Inv.execThermalShutdown {n : Nat} (hs : s.Inv) : KeepsMemory (execThermalShutdown n s) := by
  unfold Machine.execThermalShutdown
  extract_lets s1 s2
  have h2 : s2.Inv := .foldl hs.hifError.tocsin fun _ _ hs => hs.leftUp
  exact .next (Tbl.wf_filter 0 s2.mem _ h2)

end Sys2Proof.Machine
end

section
/-!
SUPPORT. Memory stays canonical: the steps of a partition command (R86 to R102), which move, copy and scrub bytes.
-/

namespace Sys2Proof.Machine

open Sys2Proof

variable {s t : State}

theorem State.Inv.rszRecord {z : Resize} {status last : Nat} (hs : s.Inv) : (s.rszRecord z status last).Inv := by
  unfold State.rszRecord
  extract_lets +onlyGivenNames p a
  split
  · split
    · exact hs
    · exact hs.deviceStore
  · exact hs

theorem State.Inv.beginResize {z : Resize} (hs : s.Inv) : (s.beginResize z).Inv := .poke (.setPrt hs)

theorem State.Inv.endResize {z : Resize} {status last : Nat} (hs : s.Inv) : (s.endResize z status last).Inv := by
  unfold State.endResize
  extract_lets +onlyGivenNames _ s1 s2
  have h2 : s2.Inv := .report (.ite hs.setPrt hs.setPrt.rszRecord)
  extract_lets +onlyGivenNames s6
  have h6 : s6.Inv := h2
  extract_lets +onlyGivenNames s8
  have h8 : s8.Inv := by
    unfold s8
    split
    · exact h6
    · exact .beginResize h6
  exact h8.ctxWake

theorem State.Inv.resizeCmd {q cmd : Nat} {sup : Bool} (hs : s.Inv) : (s.resizeCmd q cmd sup).Inv := by
  unfold State.resizeCmd
  extract_lets +onlyGivenNames p origin gone z
  split
  · exact hs.setPrt.rszRecord.report
  · extract_lets +onlyGivenNames s1
    split
    · exact .of_mem hs rfl
    · exact hs.setPrt.beginResize

theorem State.Inv.execPrtCreate {q : Nat} {sup : Bool} (hs : s.Inv) : KeepsMemory (execPrtCreate q sup s) :=
  .next hs.resizeCmd

theorem State.Inv.execPrtResize {q : Nat} {sup : Bool} (hs : s.Inv) : KeepsMemory (execPrtResize q sup s) :=
  .next hs.resizeCmd

theorem State.Inv.execPrtDestroy {q : Nat} {sup : Bool} (hs : s.Inv) : KeepsMemory (execPrtDestroy q sup s) :=
  .next hs.resizeCmd

theorem State.Inv.enterStep {z : Resize} {k : Nat} (hs : s.Inv) : (s.enterStep z k).Inv :=
  .pokeResize (.setPrt hs)

theorem State.Inv.stepTime {z : Resize} {work : Bool} {bound : Nat} (hs : s.Inv) :
    (s.stepTime z work bound).2.Inv := by
  unfold State.stepTime
  exact .ite hs.draw hs

theorem State.Inv.stepDone {z : Resize} {work : Bool} {bound : Nat} (hs : s.Inv) :
    (s.stepDone z work bound).2.Inv := by
  unfold State.stepDone
  exact hs.stepTime.report

theorem State.Inv.destroyJobs {q : Nat} (hs : s.Inv) : (s.destroyJobs q).Inv := by
  unfold State.destroyJobs
  exact .foldl hs fun _ _ hs => hs.cancelLevel

theorem State.Inv.execResizePropose (hs : s.Inv) : KeepsMemory (execResizePropose s) := by
  unfold Machine.execResizePropose
  refine .next ?_
  split
  · exact hs
  case h_2 z _ =>
    extract_lets s1
    have h1 : s1.Inv := .ite hs.destroyJobs hs
    clear_value s1
    split
    split
    · split
      next hu => exact .endResize (hs.stepTime.of_snd hu)
    · extract_lets
      split
      next hu => exact .enterStep (h1.stepDone.of_snd hu)

theorem State.Inv.execResizeGuard (hs : s.Inv) : KeepsMemory (execResizeGuard s) := by
  unfold Machine.execResizeGuard
  refine .next ?_
  split
  · exact hs
  · exact .ite hs.stepDone.enterStep hs.stepDone.enterStep

theorem State.Inv.stopPartition {q : Nat} (hs : s.Inv) : (s.stopPartition q).Inv := by
  unfold State.stopPartition
  extract_lets +onlyGivenNames s1 s2
  have h2 : s2.Inv := .foldl (.foldl hs fun _ _ hs => hs.endThread) fun _ _ hs => hs.freeRegion
  exact .refillPorts h2

theorem State.Inv.execResizeDrain (hs : s.Inv) : KeepsMemory (execResizeDrain s) := by
  unfold Machine.execResizeDrain
  refine .next ?_
  split
  · exact hs
  · extract_lets s1 s2 p out s3
    have h3 : s3.Inv := .setPrt (.ite hs.performPrt.stopPartition hs.performPrt)
    exact h3.stepDone.enterStep

theorem State.Inv.moveWaits {f : Nat → Option Nat} (hs : s.Inv) : (s.moveWaits f).Inv := hs

theorem State.Inv.relocateRegion {q sl x y : Nat} (hs : s.Inv) : (s.relocateRegion q sl x y).Inv := by
  unfold State.relocateRegion
  exact .ite hs.moveNames.setRegion hs.performPrt.moveRegion.moveWaits.wakeRegion

theorem State.Inv.execRegionMove {sl : Nat} (hs : s.Inv) : KeepsMemory (execRegionMove sl s) := by
  unfold Machine.execRegionMove
  refine .next ?_
  split
  · exact hs
  · split
    · exact hs
    · extract_lets +onlyGivenNames q r z next
      have h_next : ∀ x0 x1, x0.Inv → (next x0 x1).Inv := fun _ _ hs => .poke hs
      exact .ite (h_next _ _ hs) (.ite hs (h_next _ _ hs.regionPorts.relocateRegion.regionEntry.regionPorts))

theorem State.Inv.moveThread {c t off k : Nat} (hs : s.Inv) : (s.moveThread c t off k).Inv := by
  unfold State.moveThread
  extract_lets +onlyGivenNames s1
  have h1 : s1.Inv := hs.performAll.withdraw
  extract_lets +onlyGivenNames th x cl s4 th n
  split
  · exact h1.setClu.setCore.setThread.setThread.rename
  · exact h1.setClu.setThread.setCore

theorem State.Inv.copyPool {q c t off : Nat} (hs : s.Inv) : (s.copyPool q c t off).Inv := by
  unfold State.copyPool
  extract_lets rs f src
  refine Memory.wf_foldl _ (fun m e h => ?_) _ _ hs
  split
  · exact Memory.wf_set m _ _ h
  · exact h

theorem State.Inv.renameCore {q c t off : Nat} (hs : s.Inv) : (s.renameCore q c t off).Inv := by
  unfold State.renameCore
  exact hs.setPrt.addReloc

theorem State.Inv.moveQueues {q c t off : Nat} (hs : s.Inv) : (s.moveQueues q c t off).Inv := by
  unfold State.moveQueues
  exact .pokes (.relock (.setClu (.setClu (.setPrt (.of_mem hs rfl)))))

theorem State.Inv.execCoreMove {c : Nat} (hs : s.Inv) : KeepsMemory (execCoreMove c s) := by
  unfold Machine.execCoreMove
  refine .next ?_
  split
  · exact hs
  · refine .ite hs ?_
    split
    · exact hs
    · split
      · exact hs
      · extract_lets q off ths s1 s2 s3 s4 s5
        have h1 : s1.Inv := hs.performPrt.copyPool
        have h2 : s2.Inv := h1.moveQueues
        clear_value s2
        have h3 : s3.Inv := .of_mem h2 rfl
        have h4 : s4.Inv := .foldl h3 fun _ _ hs => hs.moveThread
        have h5 : s5.Inv := h4.renameCore
        clear_value s5
        exact .poke (.of_mem h5 rfl)

theorem State.Inv.sweepPage {z : Resize} {page : Nat} (hs : s.Inv) : (s.sweepPage z page).2.Inv := by
  unfold State.sweepPage
  extract_lets +onlyGivenNames a b
  split
  · exact hs
  · exact hs.performPrt.moveBytes

theorem State.Inv.execHbmSweepPage (hs : s.Inv) : KeepsMemory (execHbmSweepPage s) := by
  unfold Machine.execHbmSweepPage
  refine .next ?_
  split
  · exact hs
  case h_2 z _ =>
    refine .ite hs ?_
    extract_lets bound
    by_cases hg : z.grow
    · rcases hu : s.sweepPage z z.w with ⟨z', u⟩
      have hu := hs.sweepPage.of_snd hu
      simp only [hg, if_true]
      exact .pokes (.of_mem hu rfl)
    · by_cases hw : bound < z.w
      · simp only [hg, hw, if_true]
        exact .pokes (.of_mem hs rfl)
      · rcases hu : s.sweepPage z (z.w - 1) with ⟨z', u⟩
        have hu := hs.sweepPage.of_snd hu
        simp only [hg, hw]
        exact .pokes (.of_mem hu rfl)

theorem State.Inv.execResizeMigrate (hs : s.Inv) : KeepsMemory (execResizeMigrate s) := by
  unfold Machine.execResizeMigrate
  refine .next ?_
  split
  · exact hs
  · exact .ite hs hs.stepDone.enterStep

theorem State.Inv.execRehashSweepLine {line : Nat} (hs : s.Inv) : KeepsMemory (execRehashSweepLine line s) := by
  unfold Machine.execRehashSweepLine
  refine .next ?_
  split
  · exact hs
  · exact .ite hs.findBlock.findBlock.poke hs

theorem State.Inv.execResizeRehash (hs : s.Inv) : KeepsMemory (execResizeRehash s) := by
  unfold Machine.execResizeRehash
  refine .next ?_
  split
  · exact hs
  case h_2 z _ =>
    refine .ite hs ?_
    split
    next hu =>
      have hu := hs.stepDone.of_snd hu
      exact .enterStep (.of_mem hu rfl)

theorem State.Inv.unwait {lo hi : Nat} (hs : s.Inv) : (s.unwait lo hi).Inv := by
  unfold State.unwait
  exact .foldl hs fun _ _ hs => hs.withdraw.setThread

theorem State.Inv.scrubBlock {b : Nat} (hs : s.Inv) : (s.scrubBlock b).Inv := by
  unfold State.scrubBlock
  exact .foldl hs fun _ _ hs => hs.unwait.zeroRange

theorem State.Inv.scrubCluster {m : Nat} (hs : s.Inv) : (s.scrubCluster m).Inv := by
  unfold State.scrubCluster
  exact hs.unwait.zeroRange.of_mem rfl

theorem State.Inv.scrubMem {lo hi : Nat} (hs : s.Inv) : (s.scrubMem lo hi).Inv := hs.flushRange.zeroRange

theorem State.Inv.execResizeScrub (hs : s.Inv) : KeepsMemory (execResizeScrub s) := by
  unfold Machine.execResizeScrub
  refine .next ?_
  split
  · exact hs
  · split
    extract_lets us s1 s2 s3 s4 work only
    have h1 : s1.Inv := .foldl hs fun _ _ hs => hs.scrubBlock
    have h2 : s2.Inv := .foldl h1 fun _ _ hs => hs.scrubCluster
    have h3 : s3.Inv := .foldl h2 fun _ _ hs => hs.scrubMem
    have h4 : s4.Inv := .foldl h3 fun _ _ hs => hs.scrubMem
    clear_value s4
    split
    next hu =>
      have hu := h4.stepDone.of_snd hu
      exact .enterStep (.of_mem hu rfl)

theorem State.Inv.execResizeCommit (hs : s.Inv) : KeepsMemory (execResizeCommit s) := by
  unfold Machine.execResizeCommit
  refine .next ?_
  split
  · exact hs
  · extract_lets +onlyGivenNames q
    dsimp -zeta only
    extract_lets +onlyGivenNames _ s2 s3
    have h3 : s3.Inv := .ite hs.stepTime.setPrt.rszRecord hs.stepTime.setPrt
    extract_lets +onlyGivenNames p units more units o fresh s8 s9 p s10 s11
    have h11 : s11.Inv := .endResize (.setPrt (.foldl h3 fun _ _ hs => hs.setCore))
    exact .ite h11.clearBinds h11.pokeSites.wakePrt

theorem State.Inv.execPrtGrdClr {q : Nat} (hs : s.Inv) : KeepsMemory (execPrtGrdClr q s) := by
  unfold Machine.execPrtGrdClr
  exact .next hs.setPrt

theorem State.Inv.execPrtQuotaWrite {q : Nat} {v : W64} (hs : s.Inv) : KeepsMemory (execPrtQuotaWrite q v s) := by
  unfold Machine.execPrtQuotaWrite
  exact .next (.ite hs hs.setPrt)

end Sys2Proof.Machine
end

section
/-!
SUPPORT. Memory stays canonical: the register map (R418, R419), whose writes run the events above.
-/

namespace Sys2Proof.Machine

open Sys2Proof

variable {s t : State}

theorem State.Inv.famWrite {off base stride n : Nat} {f : Nat → State} {rest : Unit → State}
    (hf : ∀ i, (f i).Inv) (hrest : (rest ()).Inv) : (famWrite off base stride n f rest).Inv := by
  unfold Machine.famWrite
  split
  · exact hf _
  · exact hrest

theorem State.Inv.prtPageWrite {q : Nat} {sup : Bool} {off : Nat} {v : W64} (hs : s.Inv) :
    (s.prtPageWrite q sup off v).Inv := by
  unfold State.prtPageWrite
  extract_lets +onlyGivenNames p
  split
  · split
    · exact hs.nextOr hs.execPrtCreate
    · exact hs.nextOr hs.execPrtResize
    · exact hs.nextOr hs.execPrtDestroy
    · exact hs
  · exact .ite hs (hs.nextOr hs.execPrtQuotaWrite)
  · exact .ite hs hs.setPrt
  · exact hs.setPrt
  · exact hs.setPrt
  · exact hs.setPrt
  · exact hs.setPrt
  · exact .ite (hs.nextOr hs.execPrtGrdClr) hs
  · exact .famWrite (fun _ => hs.setPrt) (.famWrite (fun _ => hs.setPrt) (.famWrite (fun _ => hs.setPrt)
      (.famWrite (fun _ => hs.setPrt) hs)))

theorem State.Inv.schPageWrite {q fn off : Nat} {v : W64} (hs : s.Inv) : (s.schPageWrite q fn off v).Inv := by
  unfold State.schPageWrite
  extract_lets +onlyGivenNames p
  split
  · exact hs.setPrt
  · exact hs.nextOr hs.execSchCancelWrite
  · exact .ite hs.setPrt hs
  · exact hs.nextOr hs.execEpdirWrite
  · exact hs.nextOr hs.execEpsync
  · exact hs

theorem State.Inv.lnkPageWrite {q off : Nat} {v : W64} (hs : s.Inv) : (s.lnkPageWrite q off v).Inv :=
  .famWrite (fun _ => hs.nextOr hs.execLnkPrtRtWrite) hs

theorem State.Inv.mmuPageWrite {q off : Nat} {v : W64} (hs : s.Inv) : (s.mmuPageWrite q off v).Inv := by
  unfold State.mmuPageWrite
  extract_lets p
  split
  · exact hs.setPrt
  · exact hs.nextOr hs.execMmuInvctlGo
  · exact .famWrite (fun _ => .ite (hs.nextOr hs.execMigStart) hs.setPrt) hs

theorem State.Inv.hifWrite {off : Nat} {v : W64} (hs : s.Inv) : (s.hifWrite off v).Inv := by
  unfold State.hifWrite
  split
  · exact hs
  · extract_lets +onlyGivenNames s1
    have h1 : s1.Inv := .ite (hs.nextOr hs.execFwStart) hs
    exact .ite (h1.nextOr h1.execFwActivate) h1
  · exact hs
  · exact hs
  · exact hs
  · exact hs
  · exact hs
  · exact hs
  · exact .famWrite (fun _ => hs.nextOr hs.execVfBindWrite) (.famWrite (fun _ => .ite hs hs.setVf) (.famWrite
      (fun _ => .ite hs hs.setVf) hs))

theorem State.Inv.swmWrite {off : Nat} {v : W64} (hs : s.Inv) : (s.swmWrite off v).Inv := by
  unfold State.swmWrite
  extract_lets +onlyGivenNames m
  split
  · exact hs.setClu.post
  · exact .famWrite (fun _ => hs.nextOr hs.execPoolpwWrite) (.famWrite (fun _ => hs.nextOr hs.execPoolpwWrite)
      (.famWrite (fun _ => .ite hs.setCore hs) hs))

theorem State.Inv.lnkWrite {off : Nat} {v : W64} (hs : s.Inv) : (s.lnkWrite off v).Inv := by
  unfold State.lnkWrite
  exact .ite (.ite hs.lnkPageWrite hs) (.ite (hs.nextOr hs.execLnkPkgidWrite) (.famWrite (fun _ => hs.nextOr
      hs.execLinkEnable) (.famWrite (fun _ => hs.nextOr hs.execLnkLinkmaskWrite) (.famWrite (fun _ => hs.nextOr
      hs.execLnkDomainWrite) (.famWrite (fun _ => hs) hs)))))

theorem State.Inv.dbgWrite {off : Nat} {v : W64} (hs : s.Inv) : (s.dbgWrite off v).Inv := by
  unfold State.dbgWrite
  split
  · exact hs.writeTocsin
  · exact hs
  · exact hs
  · exact .famWrite (fun _ => hs) (.famWrite (fun _ => hs.nextOr hs.execDbgEvtWrite) hs)

theorem State.Inv.pfWrite {off : Nat} {v : W64} (hs : s.Inv) : (s.pfWrite off v).Inv := by
  unfold State.pfWrite
  exact .ite hs.hifWrite (.ite (.ite hs.prtPageWrite hs) (.ite (.ite hs.schPageWrite (.famWrite
      (fun _ => hs.ctxCmd) (.famWrite (fun _ => hs.setPrt) hs))) (.ite hs (.ite (.ite hs hs) (.ite hs.swmWrite
      (.ite hs.mmuPageWrite (.ite hs.lnkWrite (.ite (hs.nextOr hs.execClapperArm) (.ite hs.dbgWrite (.ite hs
      (.famWrite (fun _ => hs.nextOr hs.execPwrIslCtlWrite) hs)))))))))))

theorem State.Inv.vfWrite {n off : Nat} {v : W64} (hs : s.Inv) : (s.vfWrite n off v).Inv := by
  unfold State.vfWrite
  exact .ite (hs.nextOr hs.execDoorbell) (.ite hs (.ite hs.lnkPageWrite (.ite hs.prtPageWrite (.ite
      hs.schPageWrite hs))))

end Sys2Proof.Machine
end

section
/-!
SUPPORT. Memory stays canonical: the scalar floating-point forms that check their operands first.
-/

namespace Sys2Proof.Machine

open Sys2Proof

variable {s t : State}

theorem State.Inv.fp2 {w : W32} {f : SFmt} {d a b : GReg} {op : Nat → Nat → Nat × FP.Flags} (hs : s.Inv) :
    (s.fp2 w f d a b op).Inv := by
  unfold State.fp2
  exact hs.checkSub fun _ => hs.finF

theorem State.Inv.fp1 {w : W32} {f : SFmt} {d a : GReg} {op : Nat → Nat × FP.Flags} (hs : s.Inv) :
    (s.fp1 w f d a op).Inv := by
  unfold State.fp1
  exact hs.checkSub fun _ => hs.finF

end Sys2Proof.Machine
end

section
/-!
SUPPORT. Memory stays canonical under every instruction and every event. An arm that is one operation on the state
cites its rule; the longer ones cite their own lemma.
-/

namespace Sys2Proof.Machine

open Sys2Proof

variable {s t : State}

theorem State.Inv.exec {i : Instr} (hs : s.Inv) : KeepsMemory (exec i s) := by
  cases i with
  | add | sub | adds | subs | mul | mulh | mulhn | div | divn | rem | remn | and | or | xor | shl | shr | sra |
      min | max | minn | maxn => exact .next hs.int2
  | clz | ctz | popc | brev | addi | andi | ori | xori | shli | shri | srai => exact .next hs.int1
  | sel | lih | addpc | ext | ins | lea | site | fclass | fsgn | vmovg => exact .next hs.fin
  | cmpi | cmp | plog => exact .next hs.setP.adv
  | ld | ldv => exact .next hs.doLoad
  | st | stv => exact .next hs.doStore
  | ldf | stf | amof => exact .next (hs.atomically fun _ _ hs => hs.feWait)
  | ste => exact .next (hs.atomically fun _ _ hs => .ite hs.issueRlx
      hs.beforeAtomic.homeAccess.writeHome.setFull.afterAtomic)
  | feset | feclr => exact .next (hs.atomically fun _ _ hs => .ite hs.issueRlx
      hs.beforeAtomic.homeAccess.setFull.afterAtomic)
  | pref | yield | hint => exact .next hs.adv
  | rlx | mxa | mxb | mxc => exact .next hs.setThr.adv
  | fence => exact .next hs.release.acquire.adv
  | amo => exact hs.execAmo
  | cas => exact hs.execCas
  | br => exact .next (.ite hs.goto hs.adv)
  | jmp => exact .next hs.goto
  | jal => exact .next hs.setThr.goto
  | jr => exact .next hs.setG.goto
  | exit => exact .next hs.endThread
  | trap | svc => exact .next hs.takeTrap
  | waitw => exact .next (.ite hs.fin (.ite hs.acquire.fin (.ite hs.fin hs.waitIn)))
  | cntadd => exact .next (.ite hs.takeTrap (hs.atomically
      fun _ _ hs => hs.performOverlap.release.homeAccess.writeHome.releaseAt.setThr.afterAtomic))
  | cntwait => exact .next (.ite hs.cntwaitLevel (hs.atomically
      fun _ _ hs => hs.performOverlap.waitHome.serveWord))
  | bar => exact .next (.ite hs.takeTrap (hs.atomically fun _ _ hs => hs.barArrive.waitHome.serveWord))
  | send => exact hs.execSend
  | recv => exact .next (.ite hs.withdraw.takeTrap (.ite hs.takeRecv (.waitIn (.ite hs hs.setCore))))
  | uiret => exact .next (.ite hs.illegal hs.setThr)
  | qwait => exact hs.execQwait
  | fadd | fsub | fmul | frcpr | frsqr => exact .next hs.fp2
  | ffma => exact .next (hs.checkSub fun _ => hs.finF)
  | fmin | fmax | icvt => exact .next hs.finF
  | frcp | frsq | fcvt | fcvti => exact .next hs.fp1
  | fcmp => exact .next hs.orFlags.setP.adv
  | vadd | vsub | vmul | vfma | vscale => exact .next hs.vop
  | vmin | vmax | vshuf | vbcast | vsel | vcmp | vshift => exact .next hs.vmap
  | vdot => exact .next (.ite (hs.checkSub fun _ => hs.finV) hs.finV)
  | vcvt => exact .next hs.vconvert
  | vcvtDesc => exact hs.execVcvtDesc
  | vred => exact .next (hs.checkSub fun _ => hs.finV)
  | vlog | vmovv => exact .next hs.setV.adv
  | mxgo | mxdrain => exact .next (.ite hs.release.fin (.ite hs.release.fin hs.release.enqueueMx))
  | mxrel => exact hs.execMxrel
  | acopy | agather | ascatter | acoll => exact .next hs.issueCmd
  | await => exact hs.execAwait
  | acancel => exact hs.execAcancel
  | cfgload => exact .next (.ite hs.fin (.ite hs.fin (hs.revokes fun _ hs => hs.threadLoad)))
  | cfgarm => exact .next (.ite hs.fin (.ite hs.fin hs.waitIn.askArm))
  | cfgshadow => exact .next hs.threadLoad
  | roll => exact .next (.ite hs.waitIn (hs.readRecord fun _ _ hs => .ite hs.fin (hs.readRecord
      fun _ _ hs => hs.rollStart)))
  | cfgpatch => exact hs.execCfgpatch
  | qput => exact hs.execQput
  | qtake => exact hs.execQtake
  | ereply | edrop => exact .next hs.escReply
  | ctok => exact hs.execCtok
  | launch => exact hs.execLaunch
  | spawn => exact hs.execSpawn
  | prio => exact .next (.fin (.setThr (.ite hs.setPrt hs)))
  | cancel | cancelFault => exact .next hs.cancelFrom
  | mfs => exact .next (.ite hs.illegal (.ite hs.privileged hs.fin))
  | mts => exact .next (.ite hs.illegal (.ite hs.privileged hs.setThr.writeShared.adv))
  | tret => exact .next (.ite hs.illegal (.ite hs.privileged hs.trapReturn))
  | ilock => exact hs.execIlock
  | iunlock => exact .next (.ite hs.privileged hs.setClu.fin)
  | iflush => exact .next hs.setClu.adv
  | tlbinv => exact .next (.ite hs.privileged (.ite hs.waitIn hs.release.waitIn.startShoot.completeShoots))
  | snap => exact .next (.ite hs.clapperAt.fin hs.fin)
  | brk => exact .next (.ite hs.tocsinAt.adv hs.adv)
  | waiti => exact .next (.ite hs.privileged (.ite hs.setThr.waitIn (.ite hs.waitIn hs.setThr.fin)))
  | unassignedEncoding => exact hs.execUnassignedEncoding
  | instructionFetchFault => exact hs.execInstructionFetchFault
  | islandTransitionDone => exact hs.execIslandTransitionDone
  | circuitTransfer => exact hs.execCircuitTransfer
  | flitTransmit => exact hs.execFlitTransmit
  | routeNotice => exact hs.execRouteNotice
  | jobRecordTake => exact hs.execJobRecordTake
  | fwActivateDone => exact hs.execFwActivateDone
  | tocsinHalted | tocsinStepEnd => exact .next (.ite (.irq hs) hs)
  | resizePropose => exact hs.execResizePropose
  | resizeGuard => exact hs.execResizeGuard
  | resizeDrain => exact hs.execResizeDrain
  | regionMove => exact hs.execRegionMove
  | coreMove => exact hs.execCoreMove
  | hbmSweepPage => exact hs.execHbmSweepPage
  | resizeMigrate => exact hs.execResizeMigrate
  | rehashSweepLine => exact hs.execRehashSweepLine
  | resizeRehash => exact hs.execResizeRehash
  | resizeScrub => exact hs.execResizeScrub
  | resizeCommit => exact hs.execResizeCommit
  | phaseStart => exact hs.execPhaseStart
  | launchRecordRead => exact hs.execLaunchRecordRead
  | schedulerDecision => exact hs.execSchedulerDecision
  | launchPromote => exact .next (.ite hs.setPrt hs)
  | gangDeadline => exact .next (.ite hs.toMembers.gangShort hs)
  | taskDispatch => exact hs.execTaskDispatch
  | taskPacketPromote => exact .next hs.setCore
  | messageDelivery => exact hs.execMessageDelivery
  | messageReturn => exact hs.execMessageReturn
  | ctxSwapDone => exact hs.execCtxSwapDone
  | ctxSpillDone => exact .next (.ite hs (.setPrt (.prtStore (.dropTileTlb (.foldl
      hs.newId.freeBytes.zeroShares.moveThreads.setCtx fun _ _ hs => hs.setCore)))))
  | ctxFillDone => exact hs.execCtxFillDone
  | elementFire => exact hs.execElementFire
  | elementResult => exact hs.execElementResult
  | tokenHop => exact hs.execTokenHop
  | tileRead => exact hs.execTileRead
  | tilePortBOp => exact hs.execTilePortBOp
  | fifoAppend => exact hs.execFifoAppend
  | fifoEmit => exact hs.execFifoEmit
  | cacheLineFill => exact hs.execCacheLineFill
  | fibreUnitFire => exact hs.execFibreUnitFire
  | generatorLoadEmit => exact hs.execGeneratorLoadEmit
  | generatorStoreWrite => exact hs.execGeneratorStoreWrite
  | patchMiss => exact hs.execPatchMiss
  | extentRefill => exact hs.execExtentRefill
  | transGrant => exact hs.execTransGrant
  | transReply => exact hs.execTransReply
  | escapeThreadStart => exact hs.execEscapeThreadStart
  | escapeTokenLeave => exact hs.execEscapeTokenLeave
  | windowPublish => exact .next (.ite hs hs.setRegion.publish.poke)
  | hushSweep => exact hs.execHushSweep
  | hushStall => exact .next (.ite hs hs.setRegion.debugEvent)
  | configLoadComplete => exact hs.execConfigLoadComplete
  | regionArm => exact hs.execRegionArm
  | siteSwap => exact hs.execSiteSwap
  | matrixTileEmit => exact hs.execMatrixTileEmit
  | fabricFault => exact hs.execFabricFault
  | regionClockStop => exact hs.execRegionClockStop
  | fabricPageFaultScanout => exact hs.execFabricPageFaultScanout
  | regionReload => exact hs.execRegionReload
  | uiTake => exact hs.execUiTake
  | memoryReply => exact .next hs.performAt
  | pageWalkDone => exact hs.execPageWalkDone
  | kStepGrant => exact hs.execKStepGrant
  | kStepDone => exact hs.execKStepDone
  | drainRowStart => exact hs.execDrainRowStart
  | drainRowWrite => exact hs.execDrainRowWrite
  | asyncCommandComplete => exact hs.execAsyncCommandComplete
  | shootdownAck => exact hs.execShootdownAck
  | migGranuleCopy => exact hs.execMigGranuleCopy
  | migComplete => exact hs.execMigComplete
  | asyncEngineTransfer => exact hs.execAsyncEngineTransfer
  | fundamentalReset => exact hs.execFundamentalReset
  | pwrIslCtlWrite => exact hs.execPwrIslCtlWrite
  | thermalThrottle | limiterStep => exact .next hs.setIsland
  | thermalShutdown => exact hs.execThermalShutdown
  | bridgeReplay | ideKm => exact .next hs
  | bridge => exact .next (.tocsin (.hifError hs))
  | lnkPkgidWrite => exact hs.execLnkPkgidWrite
  | linkEnable => exact hs.execLinkEnable
  | linkClr => exact hs.execLinkClr
  | linkTrainDone => exact .next (.ite hs (.ite hs.dropLink.setLink (.post (.foldl hs.setLink
      fun _ _ hs => hs.emitOut))))
  | linkDown => exact hs.execLinkDown
  | linkRetrain => exact hs.execLinkRetrain
  | flitReceive => exact hs.execFlitReceive
  | remoteMemoryRequest => exact hs.execRemoteMemoryRequest
  | lnkPrtRtWrite => exact hs.execLnkPrtRtWrite
  | lnkLinkmaskWrite => exact hs.execLnkLinkmaskWrite
  | lnkDomainWrite => exact hs.execLnkDomainWrite
  | vfBindWrite => exact hs.execVfBindWrite
  | doorbell => exact hs.execDoorbell
  | vfFlr => exact .next (.setVf (.foldl hs fun _ _ hs => hs.resetJobs))
  | pf0Flr => exact .next (.clearBinds (.dropQueues (.foldl hs fun _ _ hs => hs.resetJobs)))
  | pf1Flr => exact .next hs.clearBinds
  | memoryUncorrectableError => exact hs.execMemoryUncorrectableError
  | cxlerr => exact .next hs.hifError
  | fwfail => exact .next (.hifError hs)
  | hostCxlMemRequest => exact .next (.ite hs (.ite hs.hostHolds.emitOut (.ite hs (.serveRange (.hostHolds (.ite
      hs.backInvalidate.writeBytes (.foldl hs fun _ _ hs => hs.hostPut)))))))
  | hostSnoop => exact .next (.ite hs hs.flushRange.emitOut)
  | hostBar2Access => exact hs.execHostBar2Access
  | fwStart => exact hs.execFwStart
  | fwVerifyDone => exact hs.execFwVerifyDone
  | fwActivate => exact hs.execFwActivate
  | spdmRequest => exact .next hs.emitOut
  | clapperFire => exact .next hs.clapper
  | clapperArm => exact hs.execClapperArm
  | remoteClapperTrigger => exact hs.execRemoteClapperTrigger
  | dbgEvtWrite => exact hs.execDbgEvtWrite
  | tocsinHalt => exact hs.execTocsinHalt
  | tocsinStep => exact hs.execTocsinStep
  | tocsinResume => exact hs.execTocsinResume
  | remoteTocsin => exact hs.execRemoteTocsin
  | prtCreate => exact hs.execPrtCreate
  | prtResize => exact hs.execPrtResize
  | prtDestroy => exact hs.execPrtDestroy
  | prtGrdClr => exact hs.execPrtGrdClr
  | prtQuotaWrite => exact hs.execPrtQuotaWrite
  | gangAckReceive => exact hs.execGangAckReceive
  | gangCancelReceive => exact hs.execGangCancelReceive
  | schCancelWrite => exact hs.execSchCancelWrite
  | epsync => exact hs.execEpsync
  | epdirWrite => exact hs.execEpdirWrite
  | cntvalRead => exact hs.execCntvalRead
  | ctxSwap | ctxSpill | ctxFill => exact .next hs.ctxCmd
  | frackResume => exact hs.execFrackResume
  | poolpwWrite => exact hs.execPoolpwWrite
  | mtpwWrite => exact hs.execMtpwWrite
  | frbaseWrite => exact hs.execFrbaseWrite
  | rqdescWrite => exact hs.execRqdescWrite
  | collectiveDataReceive => exact hs.execCollectiveDataReceive
  | mmuInvctlGo => exact hs.execMmuInvctlGo
  | migStart => exact hs.execMigStart
  | registerWrite => exact .next (.ite hs.vfWrite (.ite hs.pfWrite hs))

end Sys2Proof.Machine
end

section
/-!
SUPPORT. Memory stays canonical over a turn: the fetch, the instruction, and what a turn does when no instruction
runs.
-/

namespace Sys2Proof.Machine

open Sys2Proof

variable {s t : State}

theorem KeepsMemory.onNext {f : State → State} {r : Result} (hr : KeepsMemory r) (hf : ∀ u, u.Inv → (f u).Inv) :
    KeepsMemory (onNext f r) := by
  cases r with
  | next u => exact .next (hf u (hr u rfl))
  | fault => exact .fault
  | refused => exact .refused

theorem State.Inv.holdWord {t : Nat} {w : W32} (hs : s.Inv) : (holdWord t w s).Inv := by
  unfold Machine.holdWord
  extract_lets th
  split
  · exact hs.setThread
  · exact hs.setThread
  · exact hs.setThread
  · exact hs

theorem State.Inv.fetch {w : W32} (hs : s.Inv) (h : s.fetch = .word w t) : t.Inv := by
  unfold State.fetch at h
  extract_lets th va at h
  split at h
  case h_5 =>
    split at h
    · cases h
    · split at h <;> cases h
      exact hs.touch.fetchWord
  all_goals cases h

theorem State.Inv.issue (hs : s.Inv) : KeepsMemory (issue s) := by
  unfold Machine.issue
  split
  case h_1 => exact .next hs.startWalk
  case h_2 => exact .next hs
  case h_3 => exact hs.execInstructionFetchFault
  case h_4 h =>
    have hu := hs.fetch h
    split
    · exact hu.execUnassignedEncoding
    · exact .ite (.next hu.waitIn) (hu.exec.onNext fun _ hs => hs.holdWord)

theorem State.Inv.resumeWord (hs : s.Inv) : KeepsMemory (Machine.resume s) := by
  unfold Machine.resume
  split
  · exact hs.issue
  · exact hs.exec

theorem State.Inv.forgetWalk {t : Nat} (hs : s.Inv) : (forgetWalk t s).Inv := by
  unfold Machine.forgetWalk
  exact .ite hs hs.setThread

theorem State.Inv.threadTurn (hs : s.Inv) : KeepsMemory (threadTurn s) := by
  unfold Machine.threadTurn
  extract_lets th run goOn
  have hrun {u : State} (hu : u.Inv) : KeepsMemory (run u) := hu.issue.onNext fun _ hs => hs.forgetWalk
  have hgoOn {u : State} (hu : u.Inv) : KeepsMemory (goOn u) := hu.resumeWord.onNext fun _ hs => hs.forgetWalk
  refine .ite (hgoOn hs.setThr) ?_
  split
  · exact .ite (hs.takeUi.issue.onNext fun _ hs => hs.forgetWalk) (hrun hs)
  · exact .ite (hrun hs.takeUi) (.ite (.next hs) (hgoOn hs))
  · have hr : KeepsMemory (if th.st = .memory then goOn s else run s) := .ite (hgoOn hs) (hrun hs)
    split
    next u hu => exact .ite (.next (hr u hu)) (hrun hs.takeUi)
    · exact hr

theorem State.Inv.coreTurn {c : Nat} (hs : s.Inv) : KeepsMemory (coreTurn c s) := by
  unfold Machine.coreTurn
  extract_lets k
  refine .ite (.next hs) (.ite (.next hs.setCore) ?_)
  split
  · exact .next hs.setCore
  · exact State.Inv.threadTurn (.of_mem hs rfl)

theorem State.Inv.turn (hs : s.Inv) : KeepsMemory (turn s) := by
  unfold Machine.turn
  exact .coreTurn (.ite (.pokeResize (.of_mem hs rfl)) (.of_mem hs rfl))

end Sys2Proof.Machine
end

section
/-!
Every step keeps the canonical form of memory (R216, R80): a step runs an event of the agenda or gives a core its turn.
-/

namespace Sys2Proof.Machine

open Sys2Proof

theorem State.Inv.step {s : State} (hs : s.Inv) : KeepsMemory (step s) := by
  unfold Machine.step
  split
  · exact .ite (State.Inv.exec hs) .fault
  · exact hs.turn

end Sys2Proof.Machine
end

section

open Sys2Proof Sys2Proof.Machine

/-- Settles O60: each operation of the model keeps the form, hence so does every instruction, event and turn. -/
theorem stepKeepsMemory : Obligations.StepKeepsMemory := fun _ t hs h => hs.step t h

end

section
/-!
SUPPORT. The trap of an access (R254 to R258, R331): what the entry of a handler leaves alone, and what an access answers
that a check stops, or that reaches its homes.
-/

namespace Sys2Proof.Machine

open Sys2Proof

variable {s : State}

/-! ## The entry of a handler (R256) -/

/-- The handler is entered, and no byte of memory or full bit changes. -/
theorem State.takeTrap_enters (h : Vectored s) (w : W32) (cause : Nat) (tval : W64) (detail : Nat) :
    Trapped s (s.takeTrap w cause tval detail) cause tval detail ∧
      SameMemory s (s.takeTrap w cause tval detail) := by
  obtain ⟨hin, hvec⟩ := h
  have hsig := s.debugEvent_signals 2 cause (some (slotSite s.pkg (s.tid % 65536)))
  unfold State.takeTrap
  rw [if_neg (by rw [hin]; simp [hvec])]
  dsimp only
  generalize s.debugEvent 2 cause (some (slotSite s.pkg (s.tid % 65536))) = u at *
  have htid : u.tid = s.tid := by rw [← hsig]
  have hthreads : u.threads = s.threads := by rw [← hsig]
  refine ⟨?_, State.byteAt_of_mem hsig.mem, State.fullAt_congr (by rw [← hsig]; rfl) (by rw [← hsig]; rfl)⟩
  exact {
    thread := u.thr_setThr _
    running := htid
    others := fun k hk => (u.thread_setThr_ne k _ (htid.symm ▸ hk)).trans (by unfold State.thread; rw [hthreads])
    memory := by rw [← hsig]; exact ⟨rfl, rfl, rfl, rfl⟩
    units := by rw [← hsig]; exact ⟨rfl, rfl, rfl, rfl⟩ }

theorem State.takeTrap_trapped (h : Vectored s) (w : W32) (cause : Nat) (tval : W64) (detail : Nat) :
    Trapped s (s.takeTrap w cause tval detail) cause tval detail := (State.takeTrap_enters h w cause tval detail).1

/-! ## The marks of an access in its core's TLB (R245) -/

namespace TlbOnly

variable {c : Nat} {t : State} (h : TlbOnly c s t)
include h

theorem thr : t.thr = s.thr := by
  rw [← h.rest]
  rfl

theorem poisoned (a n : Nat) : t.poisoned a n = s.poisoned a n := by
  rw [← h.rest]
  rfl

theorem sameMemory : SameMemory s t :=
  ⟨State.byteAt_of_mem h.mem, State.fullAt_congr (by rw [← h.rest]) (by rw [← h.rest])⟩

theorem vectored (hv : Vectored s) : Vectored t := by
  unfold Vectored State.prt
  rw [h.thr, h.prts]
  exact hv

end TlbOnly

/-! ## The checks of an access (R331) -/

variable {k : AccKind} {va n : Nat} {ps : List Part} {p : Part}

theorem poisoned_sub {a b m l : Nat} (h : s.poisoned a m = false) (hb : a ≤ b) (hl : b + l ≤ a + m) :
    s.poisoned b l = false := by
  unfold State.poisoned at *
  rw [List.any_eq_false] at *
  intro x hx
  have := h x hx
  simp only [Bool.and_eq_true, decide_eq_true_eq] at *
  omega

theorem splitLine_sound (h : s.poisoned p.pa p.n = false) : ∀ x ∈ splitLine p, s.poisoned x.pa x.n = false := by
  unfold splitLine
  extract_lets k
  split
  case isTrue hk =>
    simp only [List.forall_mem_cons, List.not_mem_nil, false_implies, implies_true, and_true]
    exact ⟨poisoned_sub h le_rfl (by omega), poisoned_sub h (by omega) (by omega)⟩
  case isFalse => simpa using h

theorem poisonAt_eq_none (h : ∀ x ∈ ps, s.poisoned x.pa x.n = false) (i : Nat) : s.poisonAt ps i = none := by
  induction ps generalizing i with
  | nil => rfl
  | cons p r ih =>
    obtain ⟨hp, hr⟩ := List.forall_mem_cons.1 h
    rw [State.poisonAt, hp]
    exact ih hr _

theorem poisonAt_lineParts (h : ∀ x ∈ ps, s.poisoned x.pa x.n = false) (i : Nat) :
    s.poisonAt (lineParts ps) i = none := by
  refine poisonAt_eq_none (fun x hx => ?_) i
  obtain ⟨p, hp, hx⟩ := List.mem_flatMap.1 hx
  exact splitLine_sound (h p hp) x hx

/-- An access that passes every check is performed on its homes (R331). -/
theorem State.access_of_reaches (h : Reaches s k va n ps) (w : W32) (f : List Part → State → State)
    (g : Part → State → State) : s.access w k va n f g = f ps (s.touch s.tid va n) := by
  obtain ⟨hx, hl, hc, hs⟩ := h
  have hlocked : ps.any (s.accLocked s.tid) = false := List.any_eq_false.2 fun p hp => by rw [hl p hp]; decide
  have hclock : (ps.all fun p => s.reaches (clusterDie (s.tid / 128)) p.pa) = true := List.all_eq_true.2 hc
  have hsound : (if k.rd && !k.noData then (s.touch s.tid va n).poisonAt (lineParts ps) 0 else none) = none := by
    split
    case isTrue hd =>
      obtain ⟨hr, hn⟩ := Bool.and_eq_true_iff.1 hd
      refine poisonAt_lineParts (fun p hp => ?_) 0
      rw [(s.touch_tlbOnly s.tid va n).poisoned]
      exact hs hr (by simpa using hn) p hp
    case isFalse => rfl
  unfold State.access
  rw [hx]
  simp only [hlocked, hclock, Bool.false_eq_true, if_false, Bool.not_true, hsound]

/-- An access whose translation faults traps with that fault and performs nothing (R254, R331). -/
theorem State.access_trapped (hv : Vectored s) {cause det : Nat} {tv : W64}
    (h : s.xlate s.tid k va n = .fault cause det tv) (w : W32) (f : List Part → State → State)
    (g : Part → State → State) : Trapped s (s.access w k va n f g) cause tv det := by
  unfold State.access
  rw [h]
  exact State.takeTrap_trapped hv ..

theorem State.atomically_of_reaches (ha : va % n = 0) (h : Reaches s k va n [p]) (w : W32)
    (f : Part → State → State) : s.atomically w k va n f = f p (s.touch s.tid va n) := by
  unfold State.atomically State.aligned
  rw [if_pos ha]
  exact State.access_of_reaches h ..

theorem State.atomically_trapped (hv : Vectored s) (ha : va % n = 0) {cause det : Nat} {tv : W64}
    (h : s.xlate s.tid k va n = .fault cause det tv) (w : W32) (f : Part → State → State) :
    Trapped s (s.atomically w k va n f) cause tv det := by
  unfold State.atomically State.aligned
  rw [if_pos ha]
  exact State.access_trapped hv h ..

/-- A misaligned atomic or full-empty access traps ALIGN before its translation (R240). -/
theorem State.atomically_misaligned (hv : Vectored s) (ha : va % n ≠ 0) (w : W32) (f : Part → State → State) :
    Trapped s (s.atomically w k va n f) cALIGN (BitVec.ofNat 64 va) k.detail := by
  unfold State.atomically State.aligned
  rw [if_neg ha]
  exact State.takeTrap_trapped hv ..

end Sys2Proof.Machine
end

section
/-!
SUPPORT. Relaxed accesses (R232): one becomes outstanding, and a ninth waits.
-/

namespace Sys2Proof.Machine

open Sys2Proof

variable {s : State} {va n : Nat}

/-- No byte of memory and no register of the running thread changed. -/
def KeepsData (s t : State) : Prop := SameMemory s t ∧ (∀ n, t.g n = s.g n) ∧ ∀ n, t.v n = s.v n

/-- The access becomes outstanding and the thread goes on (R232). -/
def BecomesOutstanding (s t : State) : Prop :=
  KeepsData s t ∧ t.thr.st = .ready ∧ t.thr.pc = s.thr.pc + 4 ∧ t.thr.rlx = s.thr.rlx - 1 ∧
    t.thr.rlxOut.length = s.thr.rlxOut.length + 1

/-- The access finds no room and the thread waits at it (R232). -/
def WaitsForRoom (s t : State) : Prop :=
  KeepsData s t ∧ t.thr.st = .memory ∧ t.thr.pc = s.thr.pc ∧ t.thr.rlx = s.thr.rlx ∧ t.thr.rlxOut = s.thr.rlxOut

/-- A relaxed access: outstanding while fewer than 8 are, waiting otherwise (R232). -/
def IssuesRelaxed (s : State) (i : Instr) : Prop :=
  (s.thr.rlxOut.length < 8 → Completes i s (BecomesOutstanding s)) ∧
    (8 ≤ s.thr.rlxOut.length → Completes i s (WaitsForRoom s))

/-- A change of the thread that leaves its register files and the banking of R201 alone, after the marks of an
access in the TLB. -/
theorem TlbOnly.keepsData {c : Nat} {u t : State} (h : TlbOnly c s u) (hm : SameMemory u t)
    (hg : t.thr.g = u.thr.g) (hh : t.thr.h = u.thr.h) (hv : t.thr.v = u.thr.v) (hui : t.thr.uiin = u.thr.uiin) :
    KeepsData s t := by
  obtain ⟨hbyte, hfull⟩ := hm
  obtain ⟨hbyte', hfull'⟩ := h.sameMemory
  rw [h.thr] at hg hh hv hui
  refine ⟨⟨fun a => (hbyte a).trans (hbyte' a), fun a => (hfull a).trans (hfull' a)⟩, fun n => ?_, fun n => ?_⟩
  · unfold State.g Thread.readG
    rw [hg, hh, hui]
  · unfold State.v Thread.readV
    rw [hv]

theorem issueRlx_outstanding {c : Nat} {u : State} (h : TlbOnly c s u) (r : Rlx) (hn : s.thr.rlxOut.length < 8) :
    BecomesOutstanding s (u.issueRlx r) := by
  have ht : (u.issueRlx r).thr = { u.thr.doneAt (u.thr.pc + 4) with
      rlxOut := u.thr.rlxOut ++ [r], rlx := u.thr.rlx - 1 } := by
    unfold State.issueRlx
    rw [if_neg (by rw [h.thr]; omega)]
    refine (moved_adv _).2.trans ?_
    rw [State.thr_setThr]
    rfl
  have hm : SameMemory u (u.issueRlx r) := by
    unfold State.issueRlx
    rw [if_neg (by rw [h.thr]; omega)]
    exact ⟨fun _ => rfl, fun _ => rfl⟩
  refine ⟨h.keepsData hm ?_ ?_ ?_ ?_, ?_⟩
  all_goals rw [ht]
  case refine_5 =>
    rw [h.thr]
    exact ⟨rfl, rfl, rfl, List.length_append⟩
  all_goals rfl

theorem issueRlx_waits {c : Nat} {u : State} (h : TlbOnly c s u) (r : Rlx) (hn : 8 ≤ s.thr.rlxOut.length) :
    WaitsForRoom s (u.issueRlx r) := by
  have hw : u.issueRlx r = u.waitIn .memory true := by
    unfold State.issueRlx
    exact if_pos (by rwa [h.thr])
  have ht : (u.waitIn .memory true).thr = { s.thr with st := .memory, poll := true, atHome := false } := by
    rw [← h.thr]
    exact u.thr_setThr _
  rw [hw]
  refine ⟨h.keepsData ⟨fun _ => rfl, fun _ => rfl⟩ ?_ ?_ ?_ ?_, ?_⟩
  all_goals rw [ht]
  case refine_5 => exact ⟨rfl, rfl, rfl, rfl⟩
  all_goals rw [h.thr]

theorem issuesRelaxed_of_exec {i : Instr} {r : Rlx} (h : exec i s = .next ((s.touch s.tid va n).issueRlx r)) :
    IssuesRelaxed s i :=
  ⟨fun hn => completes_of_next h (issueRlx_outstanding (s.touch_tlbOnly ..) r hn),
    fun hn => completes_of_next h (issueRlx_waits (s.touch_tlbOnly ..) r hn)⟩

/-! ## The instructions that may be relaxed -/

section
variable (hr : 0 < s.thr.rlx)
include hr

theorem relaxed_touch : (s.touch s.tid va n).thr.relaxed false = true := by
  unfold Thread.relaxed
  rw [(s.touch_tlbOnly s.tid va n).thr]
  simpa using hr

theorem State.doLoad_relaxed {ps : List Part} (h : Reaches s .load va n ps) (w : W32) (sx : Bool) (d : Dest) :
    s.doLoad w va n sx false d = (s.touch s.tid va n).issueRlx ⟨.load sx d, ps, n⟩ :=
  (State.access_of_reaches h ..).trans (if_pos (relaxed_touch hr))

theorem State.doStore_relaxed {ps : List Part} (h : Reaches s .store va n ps) (w : W32) (x : V256) :
    s.doStore w va n x false = (s.touch s.tid va n).issueRlx ⟨.store x, ps, n⟩ :=
  (State.access_of_reaches h ..).trans (if_pos (relaxed_touch hr))

/-- An atomic under a relaxed count: what it would do at once does not matter. -/
theorem State.atomically_relaxed {k : AccKind} {p : Part} (ha : va % n = 0) (h : Reaches s k va n [p]) (w : W32)
    (r : Part → State → Rlx) (f : Part → State → State) :
    s.atomically w k va n (fun p s => if s.thr.relaxed false then s.issueRlx (r p s) else f p s) =
      (s.touch s.tid va n).issueRlx (r p (s.touch s.tid va n)) :=
  (State.atomically_of_reaches ha h ..).trans (if_pos (relaxed_touch hr))

end

end Sys2Proof.Machine
end

section

open Sys2Proof Sys2Proof.Machine

/-- Settles O16: each access, its checks passed, goes to `State.issueRlx`. -/
theorem relaxedIssue : Obligations.RelaxedIssue := by
  intro s fn a b c d base v off sz sx dbl ps p hr same issues n
  have hissue {i : Instr} {t : State} {va m : Nat} {r : Rlx} (hi : exec i s = .next t)
      (ht : t = (s.touch s.tid va m).issueRlx r) : issues i := issuesRelaxed_of_exec (hi.trans (congrArg _ ht))
  refine ⟨fun h => ?_, fun h => ?_, fun h => ?_, fun h => ?_, fun ha h => ?_, fun ha h => ?_⟩
  · exact hissue rfl (State.doLoad_relaxed hr h ..)
  · exact hissue rfl (State.doStore_relaxed hr h ..)
  · exact hissue rfl (State.doLoad_relaxed hr h ..)
  · exact hissue rfl (State.doStore_relaxed hr h ..)
  · refine ⟨?_, ?_, ?_⟩ <;> exact hissue rfl (State.atomically_relaxed hr ha h ..)
  · refine ⟨?_, ?_⟩ <;> exact hissue rfl (State.atomically_relaxed hr ha h ..)

end

section
/-!
SUPPORT. What stops an access before it is performed (R240, R254, R335, R378): a level selector, a misaligned address,
a faulting translation, and an uncorrectable error met by a full-empty word that is full.
-/

namespace Sys2Proof.Machine

open Sys2Proof

variable {s : State}

theorem isSelector_iff (x : W64) : isSelector x = true ↔ x.toNat / 2 ^ 56 = 1 := by
  have hx := x.isLt
  unfold isSelector fld
  rw [beq_iff_eq]
  omega

/-- The thread has trapped MEMERR at address `x`, and memory is as it was (R254). -/
def MemErrTrapped (s : State) (x : W64) (t : State) : Prop :=
  SameMemory s t ∧ t.thr.tcause.toNat % 256 = 13 ∧ t.thr.tval = x ∧ t.thr.intrap = true

namespace TlbOnly

variable {c : Nat} {u : State} (h : TlbOnly c s u)
include h

theorem g (n : GReg) : u.g n = s.g n := by
  unfold State.g
  rw [h.thr]

theorem ea (base : GReg) (off : BitVec 10) (scale : Nat) : u.ea base off scale = s.ea base off scale := by
  unfold State.ea
  rw [h.g]

/-- A full-empty read of a full word with an uncorrectable error traps MEMERR (R254, R335). -/
theorem feWait_memErr (hv : Vectored s) {p : Part} (hp : s.poisoned p.pa 8 = true) (hf : s.fullAt p.pa = true)
    {k : WaitKind} (hk : k.reads = true) (w : W32) (va : Nat) (rel acq : Bool) :
    MemErrTrapped s (BitVec.ofNat 64 va) (u.feWait w p va rel acq k) := by
  have ht : u.feWait w p va rel acq k = u.takeTrap w cMEMERR (BitVec.ofNat 64 va) feKind.detail := by
    refine if_pos ?_
    rw [hk, h.poisoned, hp, h.sameMemory.2, hf]
    rfl
  obtain ⟨htrap, hbyte, hfull⟩ := State.takeTrap_enters (h.vectored hv) w cMEMERR (BitVec.ofNat 64 va) feKind.detail
  obtain ⟨hbyte', hfull'⟩ := h.sameMemory
  unfold MemErrTrapped
  rw [ht, htrap.thread]
  exact ⟨⟨fun a => (hbyte a).trans (hbyte' a), fun a => (hfull a).trans (hfull' a)⟩,
    tcause_low (by decide) .., rfl, rfl⟩

end TlbOnly

theorem ofNat_toNat_word (x : W64) : BitVec.ofNat 64 x.toNat = x := by
  rw [BitVec.ofNat_toNat, BitVec.setWidth_eq]

theorem ldf_memErr {base : GReg} {off : BitVec 10} {p : Part} (hv : Vectored s)
    (h : AtWord s feKind (s.ea base off 8) 8 p) (hp : s.poisoned p.pa 8 = true) (hf : s.fullAt p.pa = true)
    (d : GReg) (clr ord : Bool) :
    Completes (.ldf d base off clr ord) s (MemErrTrapped s (BitVec.ofNat 64 (s.ea base off 8))) := by
  have hu := s.touch_tlbOnly s.tid (s.ea base off 8) 8
  refine completes_of_next (congrArg Host.Outcome.next (State.atomically_of_reaches h.aligned h.reaches ..)) ?_
  generalize s.touch s.tid (s.ea base off 8) 8 = u at hu ⊢
  have ht := hu.feWait_memErr hv hp hf (k := .ldf (u.thr.gDest d) clr) rfl (wordOf (.ldf d base off clr ord))
    (u.ea base off 8) false ord
  rwa [hu.ea] at ht ⊢

theorem amof_memErr {a : GReg} {p : Part} (hv : Vectored s) (h : AtWord s feKind (s.g a).toNat 8 p)
    (hp : s.poisoned p.pa 8 = true) (hf : s.fullAt p.pa = true) (fn : AmoFn) (b c : GReg) (rel acq : Bool) :
    Completes (.amof fn a b c rel acq) s (MemErrTrapped s (s.g a)) := by
  have hu := s.touch_tlbOnly s.tid (s.g a).toNat 8
  refine completes_of_next (congrArg Host.Outcome.next (State.atomically_of_reaches h.aligned h.reaches ..)) ?_
  generalize s.touch s.tid (s.g a).toNat 8 = u at hu ⊢
  have ht := hu.feWait_memErr hv hp hf (k := .amof fn (u.g b) (u.thr.gDest c)) rfl
    (wordOf (.amof fn a b c rel acq)) (u.g a).toNat rel acq
  rw [ofNat_toNat_word] at ht
  rwa [hu.g a] at ht ⊢

theorem instructionFetchFault_traps {cause det : Nat} {tv : W64} (hv : Vectored s)
    (h : s.fetch = .fault cause tv det) :
    Completes .instructionFetchFault s (Trapped s · cause tv det) := by
  refine completes_of_next (t := s.takeTrap 0 cause tv det) ?_ (State.takeTrap_trapped hv ..)
  change execInstructionFetchFault s = _
  unfold execInstructionFetchFault
  rw [h]

/-- An address that is a register is its own trap value. -/
theorem State.atomically_misaligned_reg {x : W64} {k : AccKind} {n : Nat} (hv : Vectored s) (ha : x.toNat % n ≠ 0)
    (w : W32) (f : Part → State → State) :
    Trapped s (s.atomically w k x.toNat n f) cALIGN x k.detail := by
  have h := State.atomically_misaligned (k := k) hv ha w f
  rwa [ofNat_toNat_word] at h

end Sys2Proof.Machine
end

section

open Sys2Proof Sys2Proof.Machine

/-- Settles O18: each check that fails goes to the trap, and the entry of the handler is all that happens. -/
theorem accessTraps : Obligations.AccessTraps := by
  intro s fn d a b c base v off sz f1 f2 dbl cause det tv hv va ea at' n
  have htrap {i : Instr} {t : State} {c e : Nat} {x : W64} (hi : exec i s = .next t) (ht : Trapped s t c x e) :
      Completes i s (Trapped s · c x e) := completes_of_next hi ht
  refine ⟨fun h => ?_, fun h => ?_, fun h hsel => ?_, fun h => ?_, fun hsel => ?_, fun p hp hf => ?_, fun h => ?_,
    fun h => ?_, fun h => ?_, fun h => ?_, fun ha h => ?_, fun ha h => ?_, fun ha h => ?_, fun h => ?_⟩
  · refine ⟨?_, ?_⟩ <;> exact htrap rfl (State.atomically_misaligned_reg hv h ..)
  · refine ⟨?_, ?_, ?_, ?_⟩ <;> exact htrap rfl (State.atomically_misaligned_reg hv h ..)
  · have hsel : isSelector va ≠ true := mt (isSelector_iff va).1 hsel
    refine ⟨?_, ?_, ?_⟩ <;>
      exact htrap (congrArg Host.Outcome.next (if_neg hsel)) (State.atomically_misaligned_reg hv h ..)
  · refine ⟨?_, ?_⟩ <;> exact htrap rfl (State.atomically_misaligned hv h ..)
  · have hsel : isSelector va = true := (isSelector_iff va).2 hsel
    refine ⟨?_, ?_⟩ <;> exact htrap (congrArg Host.Outcome.next (if_pos hsel)) (State.takeTrap_trapped hv ..)
  · exact ⟨fun h => ldf_memErr hv h hp hf d f1 f2, fun h => amof_memErr hv h hp hf fn b c f1 f2⟩
  · exact htrap rfl (State.access_trapped hv h ..)
  · exact htrap rfl (State.access_trapped hv h ..)
  · exact htrap rfl (State.access_trapped hv h ..)
  · exact htrap rfl (State.access_trapped hv h ..)
  · refine ⟨?_, ?_⟩ <;> exact htrap rfl (State.atomically_trapped hv ha h ..)
  · refine ⟨?_, ?_, ?_, ?_⟩ <;> exact htrap rfl (State.atomically_trapped hv ha h ..)
  · refine ⟨?_, ?_⟩ <;> exact htrap rfl (State.atomically_trapped hv ha h ..)
  · exact instructionFetchFault_traps hv h

end

section
/-!
SUPPORT. Page walks (R246, R250): what a walk depends on, and its answer to the thread that waits for it.
-/

namespace Sys2Proof.Machine

open Sys2Proof

/-! ## What a walk depends on (R241) -/

section
variable {s t : State} (hp : t.prts = s.prts) (hz : t.resize = s.resize) (hm : t.mem = s.mem) (hc : t.copies = s.copies)
include hp hz hm hc

theorem State.readPte_congr : t.readPte = s.readPte := by
  have hd : t.dieWord = s.dieWord := by
    delta State.dieWord State.copyAt State.readHome
    rw [hm, hc]
  delta State.readPte
  rw [State.memHome_congr hp hz, hd]

theorem State.walkStep_congr : t.walkStep = s.walkStep := by
  funext d q va ch lvl deeper table
  unfold State.walkStep pick64 badTable
  simp only [State.readPte_congr hp hz hm hc, State.inPrtMem_congr hp]

theorem State.walkFrom_congr (d q va ch lvl : Nat) : t.walkFrom d q va ch lvl = s.walkFrom d q va ch lvl := by
  induction lvl with
  | zero => rw [State.walkFrom_zero, State.walkFrom_zero, State.walkStep_congr hp hz hm hc]
  | succ lvl ih => rw [State.walkFrom_succ, State.walkFrom_succ, State.walkStep_congr hp hz hm hc, ih]

theorem State.walk_congr : t.walk = s.walk := by
  delta State.walk
  simp only [State.inPrtMem_congr hp, State.walkFrom_congr hp hz hm hc]

end

/-! ## The answer (R192, R246) -/

section
variable {s : State} {w : Walk} {u : Nat}

/-- The TLB entry that the leaf found by a walk gives a slot (R245). -/
def Walk.entry (w : Walk) (l : Leaf) (gen : W16) (slot : Nat) : TlbEntry :=
  { vpage := w.va * 4096 / 2 ^ pageBits l.size, size := l.size, ppage := l.addr / 2 ^ pageBits l.size
    attr := l.attr, asid := w.asid, gen := gen, slot := slot }

theorem Core.mem_tlbFill (k : Core) (e : TlbEntry) : e ∈ (k.tlbFill e).tlb := List.mem_cons_self

/-- The answer reaches the core's TLB and the thread: no walker and no byte of memory. -/
theorem State.walkAnswer_rest (s : State) (w : Walk) (r : WalkRes) (u : Nat) (f : Bool) :
    (s.walkAnswer w r u f).clusters = s.clusters ∧ (s.walkAnswer w r u f).mem = s.mem := by
  unfold State.walkAnswer
  dsimp only
  split
  · split
    · exact ⟨rfl, rfl⟩
    · split <;> exact ⟨rfl, rfl⟩
  · split <;> exact ⟨rfl, rfl⟩

/-- A leaf fills the TLB, and the thread goes on: a fetch is made again, a data access is in MEMORY (R192). -/
theorem State.walkAnswer_leaf (hw : (s.thread u).st = .walk) (l : Leaf) (f : Bool) :
    let t := s.walkAnswer w (.leaf l) u f
    let e := w.entry l (s.prt w.prt).genIssued (u % 16)
    (t.thread u).st = (if f = true then .ready else .memory) ∧
      (t.thread u).filled = (if f = true then (s.thread u).filled else true) ∧
      (t.thread u).fills = (s.thread u).fills ++ [e] ∧ e ∈ (t.core (u / 16)).tlb := by
  intro t e
  have hcore : t.core (u / 16) = (s.core (u / 16)).tlbFill e := by
    unfold t State.walkAnswer
    dsimp only
    rw [if_neg (not_not.2 hw)]
    cases f <;> exact State.core_setCore ..
  have hthread : t.thread u = if f = true then { s.thread u with st := .ready, fills := (s.thread u).fills ++ [e] }
      else { s.thread u with st := .memory, poll := true, filled := true, fills := (s.thread u).fills ++ [e] } := by
    unfold t State.walkAnswer
    dsimp only
    rw [if_neg (not_not.2 hw)]
    cases f <;> exact State.thread_setThread ..
  rw [hcore, hthread]
  cases f <;> exact ⟨rfl, rfl, rfl, Core.mem_tlbFill ..⟩

/-- A fault is left for the thread's turn (R246). -/
theorem State.walkAnswer_fault (hw : (s.thread u).st = .walk) (bad f : Bool) :
    (s.walkAnswer w (.fault bad) u f).thread u =
      { s.thread u with st := .ready, wfault := (s.thread u).wfault ++ [(w.va, bad)] } := by
  unfold State.walkAnswer
  dsimp only
  rw [if_pos hw, State.thread_setThread]

end

/-! ## PAGE_WALK_DONE (R246, R250) -/

section
variable {s : State} {m u : Nat} {f wr b : Bool} {w : Walk}

/-- The one walk of the cluster has been taken, with the choice of the entry it reads (R243). -/
def State.walkTaken (s : State) (m : Nat) : State := s.choice.2.setClu m { s.clu m with walks := [] }

/-- Taking a walk changes nothing that a walk depends on. -/
theorem State.walkTaken_walk (s : State) (m : Nat) : (s.walkTaken m).walk = s.walk := State.walk_congr rfl rfl rfl rfl

theorem pageWalkDone_answers (hws : (s.clu m).walks = [w]) (hr : s.walkRuns m w = true)
    (hwho : w.who = [(u, f, wr, b)]) :
    exec (.pageWalkDone m) s = .next ((s.walkTaken m).walkAnswer w
      (s.walk (clusterDie m) w.prt w.root (w.va * 4096) (Config.choice s.fresh)) u f) := by
  have hfilter : (s.clu m).walks.filter (s.walkRuns m) = [w] := by
    rw [hws, List.filter_cons_of_pos hr, List.filter_nil]
  have herase : (s.clu m).walks.erase w = [] := by rw [hws, List.erase_cons_head]
  have hone (n : Nat) : [w].getD (n % Nat.min 8 (([] : List Walk).length + 1)) w = w := by
    rw [show Nat.min 8 (([] : List Walk).length + 1) = 1 from rfl, Nat.mod_one]
    rfl
  rw [← s.walkTaken_walk m]
  change execPageWalkDone m s = _
  unfold execPageWalkDone
  extract_lets cl
  rw [hfilter]
  dsimp only
  rw [hone, hwho, herase, List.foldl_cons, List.foldl_nil]
  rfl

theorem pageWalkDone_ends (hws : (s.clu m).walks = [w]) (hr : s.walkRuns m w = true) (hwho : w.who = [(u, f, wr, b)])
    (hst : (s.thread u).st = .walk) :
    let found := s.walk (clusterDie m) w.prt w.root (w.va * 4096) (Config.choice s.fresh)
    Completes (.pageWalkDone m) s (fun t => (t.clu m).walks = [] ∧ t.mem = s.mem ∧
      (∀ l, found = .leaf l → (t.thread u).st = (if f = true then .ready else .memory) ∧
        (t.thread u).filled = (if f = true then (s.thread u).filled else true) ∧
        ∃ e : TlbEntry, e.attr = l.attr ∧ e.size = l.size ∧ e.asid = w.asid ∧
          e.vpage = w.va * 4096 / 2 ^ pageBits l.size ∧ e.ppage = l.addr / 2 ^ pageBits l.size ∧
          (t.thread u).fills = (s.thread u).fills ++ [e] ∧ e ∈ (t.core (u / 16)).tlb) ∧
      (∀ bad, found = .fault bad → (t.thread u).st = .ready ∧
        (t.thread u).wfault = (s.thread u).wfault ++ [(w.va, bad)])) := by
  intro found
  obtain ⟨hclusters, hmem⟩ := (s.walkTaken m).walkAnswer_rest w found u f
  have hclu : (((s.walkTaken m).walkAnswer w found u f).clu m).walks = [] := by
    rw [State.clu_of_clusters hclusters, State.walkTaken, State.clu_setClu]
  refine completes_of_next (pageWalkDone_answers hws hr hwho) ⟨hclu, hmem, fun l hl => ?_, fun bad hb => ?_⟩
  · obtain ⟨hst', hfilled, hfills, htlb⟩ := State.walkAnswer_leaf (s := s.walkTaken m) (w := w) hst l f
    rw [show s.walk _ _ _ _ _ = .leaf l from hl]
    exact ⟨hst', hfilled, w.entry l _ (u % 16), rfl, rfl, rfl, rfl, rfl, hfills, htlb⟩
  · rw [show s.walk _ _ _ _ _ = .fault bad from hb, State.walkAnswer_fault (s := s.walkTaken m) hst bad f]
    exact ⟨rfl, rfl⟩

end

end Sys2Proof.Machine
end

section
/-!
SUPPORT. Shoot-downs (R248 to R251): how one starts, what an agent's acknowledgement drops, and what completing one
changes.
-/

namespace Sys2Proof.Machine

open Sys2Proof

/-! ## Shoot-downs that complete (R248) -/

section
variable {s t u : State} {q : Nat}

/-- `t` follows `s` by completed shoot-downs of partition `q`: its first shoot-downs and the last generation done may
differ, and threads and the agenda, and nothing else. -/
structure ShootsDone (q : Nat) (s t : State) : Prop where
  rest : { t with prts := s.prts, threads := s.threads, agenda := s.agenda } = s
  prt : ∃ g l, t.prt q = { s.prt q with genDone := g, shoots := l }

theorem ShootsDone.of_prts (hr : { t with threads := s.threads, agenda := s.agenda } = s) (hp : t.prts = s.prts) :
    ShootsDone q s t where
  rest := by rwa [← hp]
  prt := by
    unfold State.prt
    rw [hp]
    exact ⟨_, _, rfl⟩

theorem ShootsDone.refl (q : Nat) (s : State) : ShootsDone q s s := ⟨rfl, _, _, rfl⟩

theorem ShootsDone.trans (h : ShootsDone q s t) (k : ShootsDone q t u) : ShootsDone q s u := by
  obtain ⟨g, l, hp⟩ := h.prt
  obtain ⟨g', l', hp'⟩ := k.prt
  exact ⟨by rw [← h.rest, ← k.rest], g', l', by rw [hp', hp]⟩

theorem ShootsDone.cores (h : ShootsDone q s t) : t.cores = s.cores := by
  rw [← h.rest]

theorem ShootsDone.genIssued (h : ShootsDone q s t) : (t.prt q).genIssued = (s.prt q).genIssued := by
  obtain ⟨g, l, hp⟩ := h.prt
  rw [hp]

theorem ShootsDone.migSlot (h : ShootsDone q s t) (i : Nat) : (t.prt q).migSlot i = (s.prt q).migSlot i := by
  obtain ⟨g, l, hp⟩ := h.prt
  rw [hp]
  rfl

/-- The TLBINV that waits for a shoot-down gets its generation and goes on (R248, R416). -/
def State.shootReplied (s : State) (h : Shoot) : State :=
  match h.tid with
  | some (t, d) =>
    if (s.thread t).st = .memory then
      (s.replyReg t ((s.thread t).gDest (BitVec.ofNat 6 d)) (h.gen.setWidth 256)).replyGo t
    else s
  | none => s

/-- A migration that waits for its leaf's shoot-down, or for room for it, looks again (R252). -/
def State.migWoken (q : Nat) (h : Shoot) (s : State) (e : Nat × Mig) : State :=
  if e.2.run ∧ e.2.size ≤ e.2.w ∧ (e.2.inv = some h.gen ∨ e.2.inv = none) then s.post (.migComplete q e.1)
  else s

/-- The oldest shoot-down `h` is complete, and `r` are the others. -/
def State.shootDone (s : State) (q : Nat) (h : Shoot) (r : List Shoot) : State :=
  (s.prt q).mig.foldl (State.migWoken q h)
    ((s.setPrt q { s.prt q with genDone := h.gen, shoots := r }).shootReplied h)

theorem State.completeShoots_nil (hs : (s.prt q).shoots = []) (n : Nat) : State.completeShoots q n s = s := by
  cases n with
  | zero => rfl
  | succ n =>
    unfold State.completeShoots
    dsimp only
    rw [hs]

theorem State.completeShoots_cons {h : Shoot} {r : List Shoot} (hs : (s.prt q).shoots = h :: r)
    (hw : h.wait.isEmpty = true) (n : Nat) :
    State.completeShoots q (n + 1) s = State.completeShoots q n (s.shootDone q h r) := by
  rw [State.completeShoots]
  dsimp only
  rw [hs]
  dsimp only
  rw [if_pos hw]
  rfl

theorem State.completeShoots_waits {h : Shoot} {r : List Shoot} (hs : (s.prt q).shoots = h :: r)
    (hw : ¬ h.wait.isEmpty = true) (n : Nat) : State.completeShoots q n s = s := by
  cases n with
  | zero => rfl
  | succ n =>
    rw [State.completeShoots]
    dsimp only
    rw [hs]
    exact if_neg hw

theorem State.shootReplied_prts (s : State) (h : Shoot) : (s.shootReplied h).prts = s.prts := by
  unfold State.shootReplied
  split
  · split <;> rfl
  · rfl

theorem State.setThread_shootsDone (q : Nat) (s : State) (v : Nat) (th : Thread) : ShootsDone q s (s.setThread v th) :=
  .of_prts rfl rfl

theorem State.shootReplied_done (q : Nat) (s : State) (h : Shoot) : ShootsDone q s (s.shootReplied h) := by
  unfold State.shootReplied
  split
  · split
    · exact (s.setThread_shootsDone q _ _).trans (State.setThread_shootsDone q _ _ _)
    · exact .refl q s
  · exact .refl q s

theorem PostsOnly.prts (h : PostsOnly s t) : t.prts = s.prts := by
  rw [← h]
theorem PostsOnly.threads (h : PostsOnly s t) : t.threads = s.threads := by
  rw [← h]

theorem PostsOnly.shootsDone (h : PostsOnly s t) (q : Nat) : ShootsDone q s t := .of_prts (by rw [← h]) h.prts

theorem State.migWoken_posts (q : Nat) (h : Shoot) (l : List (Nat × Mig)) (s : State) :
    PostsOnly s (l.foldl (State.migWoken q h) s) :=
  .foldl (fun t _ => .ite (t.post_posts _) (.refl t)) _ _

theorem State.setPrt_shootsDone (s : State) (q : Nat) (g : W16) (l : List Shoot) :
    ShootsDone q s (s.setPrt q { s.prt q with genDone := g, shoots := l }) := ⟨rfl, g, l, State.prt_setPrt ..⟩

theorem State.shootDone_done (s : State) (q : Nat) (h : Shoot) (r : List Shoot) : ShootsDone q s (s.shootDone q h r) :=
  ((s.setPrt_shootsDone q h.gen r).trans (State.shootReplied_done q _ h)).trans
    ((State.migWoken_posts q h _ _).shootsDone q)

theorem State.completeShoots_done (q n : Nat) (s : State) : ShootsDone q s (State.completeShoots q n s) := by
  induction n generalizing s with
  | zero => exact .refl q s
  | succ n ih =>
    cases hs : (s.prt q).shoots with
    | nil => rw [State.completeShoots_nil hs]; exact .refl q s
    | cons h r =>
      by_cases hw : h.wait.isEmpty = true
      · rw [State.completeShoots_cons hs hw]
        exact (s.shootDone_done q h r).trans (ih _)
      · rw [State.completeShoots_waits hs hw]
        exact .refl q s

theorem State.shootDone_prt (s : State) (q : Nat) (h : Shoot) (r : List Shoot) :
    (s.shootDone q h r).prt q = { s.prt q with genDone := h.gen, shoots := r } := by
  have hp := (State.migWoken_posts q h (s.prt q).mig
    ((s.setPrt q { s.prt q with genDone := h.gen, shoots := r }).shootReplied h)).prts.trans
      (State.shootReplied_prts ..)
  unfold State.shootDone State.prt at *
  rw [hp]
  exact Tbl.look_put_self ..

/-! ## The TLBINV that waits (R416) -/

/-- A reply's register changes the register files alone. -/
theorem Thread.setDest_eq (th : Thread) (d : Dest) (x : V256) :
    th.setDest d x = { th with g := (th.setDest d x).g, h := (th.setDest d x).h, v := (th.setDest d x).v } := by
  unfold Thread.setDest
  split
  case h_2 => split <;> rfl
  all_goals rfl

/-- A reply with a register to a thread that is not halted (R73). -/
theorem State.reply_thread {v : Nat} (hu : s.heldUp v = false) (d : Dest) (x : V256) :
    ((s.replyReg v d x).replyGo v).thread v = ((s.thread v).setDest d x).go := by
  have hreg : (s.replyReg v d x).thread v = (s.thread v).setDest d x := by
    unfold State.replyReg
    rw [hu, State.thread_setThread]
    rfl
  have hheld : (s.replyReg v d x).heldUp v = false := by
    rw [← hu]
    unfold State.heldUp
    rw [hreg, Thread.setDest_eq]
    rfl
  unfold State.replyGo
  rw [hheld, State.thread_setThread, hreg]
  rfl

/-- The thread of the TLBINV, in MEMORY and not halted, goes on to its next instruction. -/
theorem State.shootDone_thread {h : Shoot} {v d : Nat} (ht : h.tid = some (v, d)) (hst : (s.thread v).st = .memory)
    (hu : s.heldUp v = false) (r : List Shoot) :
    ((s.shootDone q h r).thread v).st = .ready ∧ ((s.shootDone q h r).thread v).pc = (s.thread v).pc + 4 := by
  obtain ⟨t, htd⟩ : ∃ t, t = s.setPrt q { s.prt q with genDone := h.gen, shoots := r } := ⟨_, rfl⟩
  have hthread : t.thread v = s.thread v := by rw [htd]; rfl
  have hheld : t.heldUp v = false := by rw [htd]; exact hu
  have hreply : (s.shootDone q h r).thread v =
      ((s.thread v).setDest ((s.thread v).gDest (BitVec.ofNat 6 d)) (h.gen.setWidth 256)).go := by
    unfold State.shootDone
    rw [State.thread_of_threads (State.migWoken_posts ..).threads, ← htd]
    unfold State.shootReplied
    rw [ht]
    dsimp only
    rw [if_pos (by rw [hthread]; exact hst), State.reply_thread hheld, hthread]
  rw [hreply, Thread.setDest_eq]
  exact ⟨rfl, rfl⟩

end

/-! ## The agents' acknowledgements (R249) -/

section
variable {s : State} {q n : Nat} {h : Shoot}

theorem UnitsKept.cores {t : State} (h : UnitsKept s t) : t.cores = s.cores := by
  rw [← h.rest]

theorem State.core_of_cores {t : State} (h : t.cores = s.cores) (c : Nat) : t.core c = s.core c := by
  unfold State.core
  rw [h]

/-- What every step of a fold leaves as it is, the fold leaves as it is. -/
theorem foldl_field {β γ : Type} (g : State → γ) {f : State → β → State} (hf : ∀ s b, g (f s b) = g s) (l : List β)
    (s : State) : g (l.foldl f s) = g s :=
  foldl_related (R := fun s t : State => g t = g s) (fun _ => rfl) (fun h k => k.trans h) hf l s

/-- The shoot-down that the agent acknowledges no longer waits for it. -/
def State.acked (s : State) (q agent : Nat) (h : Shoot) : State :=
  s.setPrt q { s.prt q with shoots := (s.prt q).shoots.map (fun x =>
    if x.gen = h.gen then { x with wait := x.wait.filter (fun a => a != agent) } else x) }

theorem shootdownAck_acks {agent : Nat} (hf : (s.prt q).shoots.find? (fun h => h.wait.contains agent) = some h)
    (hb : s.bridged h.die (s.agentDie q agent) = true) : exec (.shootdownAck q agent) s = .next
      (State.completeShoots q ((s.prt q).shoots.length + 1)
        (if agent < 4096 then (s.acked q agent h).ackCore agent h
         else if 16384 ≤ agent then (s.acked q agent h).ackRegion q (agent - 16384) h
         else if 8192 ≤ agent then (s.acked q agent h).ackFetch (agent - 8192) h
         else s.acked q agent h)) := by
  change execShootdownAck q agent s = _
  unfold execShootdownAck
  dsimp only
  rw [hf]
  dsimp only
  rw [if_neg (by rw [hb]; decide)]
  rfl

/-- The acknowledgement of a core drops the translations that the shoot-down covers, and no access performed for it
brings one back. -/
theorem State.ackCore_tlb (s : State) (c : Nat) (h : Shoot) :
    ((s.ackCore c h).core c).tlb = (s.core c).tlb.filter (fun e => !h.coversTlb e) := by
  unfold State.ackCore
  extract_lets k u
  have hu : (u.core c).tlb = (s.core c).tlb.filter (fun e => !h.coversTlb e) :=
    congrArg Core.tlb (State.core_setCore ..)
  rw [State.core_of_cores (foldl_field State.cores (fun t v => ?_) _ u), hu]
  split
  · extract_lets th a b mine
    have hb : b.cores = a.cores := (a.performN_unitsKept v _).cores
    exact (foldl_field State.cores (f := State.unserved) (fun _ _ => rfl) _ _).trans hb
  · rfl

/-- A core's acknowledgement leaves no covered translation in its TLB. -/
theorem shootdownAck_core (hf : (s.prt q).shoots.find? (fun e => e.wait.contains n) = some h) (hn : n < 2048)
    (hb : s.bridged h.die (clusterDie (n / 8)) = true) :
    Completes (.shootdownAck q n) s (fun t => ∀ e ∈ (t.core n).tlb, h.coversTlb e = false) := by
  have hn' : n < 4096 := by omega
  have hdie : s.agentDie q n = clusterDie (n / 8) := if_pos hn'
  refine completes_of_next (shootdownAck_acks hf (by rw [hdie]; exact hb)) fun e he => ?_
  rw [if_pos hn', State.core_of_cores (State.completeShoots_done ..).cores, State.ackCore_tlb] at he
  simpa using (List.mem_filter.1 he).2

/-- The last acknowledgement completes the shoot-down and answers its TLBINV. -/
theorem shootdownAck_last {m : Nat} (hs : (s.prt q).shoots = [h]) (hw : h.wait = [walkerAgent m]) (hm : m < 256)
    (hb : s.bridged h.die (clusterDie m) = true) : Completes (.shootdownAck q (walkerAgent m)) s (fun t =>
      (t.prt q).shoots = [] ∧ (t.prt q).genDone = h.gen ∧
      ∀ u d, h.tid = some (u, d) → (s.thread u).st = .memory → s.heldUp u = false →
        (t.thread u).st = .ready ∧ (t.thread u).pc = (s.thread u).pc + 4) := by
  have hfind : (s.prt q).shoots.find? (fun e => e.wait.contains (walkerAgent m)) = some h := by
    rw [hs, List.find?_cons_of_pos]
    rw [hw]
    exact List.contains_iff_mem.2 List.mem_cons_self
  have hwalker : ¬ walkerAgent m < 4096 ∧ ¬ 16384 ≤ walkerAgent m ∧ ¬ 8192 ≤ walkerAgent m := by
    unfold walkerAgent
    omega
  obtain ⟨hcore, hregion, hfetch⟩ := hwalker
  have hdie : s.agentDie q (walkerAgent m) = clusterDie m := by
    unfold State.agentDie
    rw [if_neg hcore, if_neg hregion]
    exact congrArg clusterDie (by unfold walkerAgent; omega)
  obtain ⟨h', hh'⟩ : ∃ h', h' = { h with wait := [] } := ⟨_, rfl⟩
  have hprt : (s.acked q (walkerAgent m) h).prt q = { s.prt q with shoots := [h'] } := by
    unfold State.acked
    rw [State.prt_setPrt, hs, hh', List.map_singleton, if_pos rfl, hw,
      List.filter_cons_of_neg (by simp), List.filter_nil]
  have hcomplete : State.completeShoots q ((s.prt q).shoots.length + 1) (s.acked q (walkerAgent m) h) =
      (s.acked q (walkerAgent m) h).shootDone q h' [] := by
    rw [State.completeShoots_cons (congrArg Prt.shoots hprt) (by rw [hh']; rfl),
      State.completeShoots_nil (congrArg Prt.shoots (State.shootDone_prt ..))]
  have hx := shootdownAck_acks hfind (by rw [hdie]; exact hb)
  rw [if_neg hcore, if_neg hregion, if_neg hfetch, hcomplete] at hx
  refine completes_of_next hx ⟨?_, ?_, fun u d ht hst hu => ?_⟩
  · rw [State.shootDone_prt]
  · rw [State.shootDone_prt, hh']
  · exact State.shootDone_thread (s := s.acked q (walkerAgent m) h) (by rw [hh']; exact ht) hst hu []

end

/-! ## A shoot-down that starts (R248) -/

section
variable (s : State) (q : Nat) (ctl : W64) (first : Nat) (tid : Option (Nat × Nat))

/-- The shoot-down that a control word and a first page describe. -/
def State.shootOf : Shoot :=
  { gen := (s.prt q).genIssued + 1, asid := BitVec.ofNat 16 (fld ctl 63 48), allAsid := bitAt ctl 22
    allVa := bitAt ctl 21, first := first % 2 ^ 44, pages := fld ctl 19 0, wait := s.agents q, tid := tid }

/-- It joins the partition's others under the next generation; otherwise its agents are asked, and nothing more. -/
theorem State.startShoot_posts : PostsOnly (s.setPrt q { s.prt q with
    genIssued := (s.prt q).genIssued + 1, shoots := (s.prt q).shoots ++ [s.shootOf q ctl first tid] })
      (s.startShoot q ctl first tid).2 :=
  .foldl (fun t _ => t.post_posts _) _ _

theorem State.startShoot_prt : (s.startShoot q ctl first tid).2.prt q = { s.prt q with
    genIssued := (s.prt q).genIssued + 1, shoots := (s.prt q).shoots ++ [s.shootOf q ctl first tid] } := by
  unfold State.prt
  rw [(s.startShoot_posts q ctl first tid).prts]
  exact Tbl.look_put_self ..

end

section
variable {s : State} {q : Nat} {v : W64}

/-- GO starts a shoot-down while fewer than 4 are outstanding. -/
theorem mmuInvctlGo_starts (hgo : bitAt v 20 = true) (hl : (s.prt q).shoots.length < 4) (he : (s.prt q).exist = true) :
    Completes (.mmuInvctlGo q v) s (fun t => (t.prt q).genIssued = (s.prt q).genIssued + 1 ∧
      ∃ e : Shoot, (t.prt q).shoots = (s.prt q).shoots ++ [e] ∧ e.gen = (s.prt q).genIssued + 1 ∧
        e.first = fld (s.prt q).invAddr 63 12 % 2 ^ 44 ∧ e.pages = fld v 19 0 ∧ e.wait = s.agents q) := by
  obtain ⟨u, hu⟩ : ∃ u, u = s.setPrt q { s.prt q with invCtl := v &&& 0xFFFF0000006FFFFF } := ⟨_, rfl⟩
  have hprt : u.prt q = { s.prt q with invCtl := v &&& 0xFFFF0000006FFFFF } := by rw [hu, State.prt_setPrt]
  have hagents : u.agents q = s.agents q := by rw [hu]; rfl
  have hx : exec (.mmuInvctlGo q v) s = .next (u.startShoot q v (fld (s.prt q).invAddr 63 12) none).2 := by
    rw [hu]
    exact congrArg Host.Outcome.next (if_pos ⟨hgo, hl, he⟩)
  refine completes_of_next hx ?_
  rw [State.startShoot_prt, ← hagents]
  dsimp only [State.shootOf]
  rw [hprt]
  exact ⟨rfl, _, rfl, rfl, rfl, rfl, rfl⟩

/-- A write without GO keeps the register alone. -/
theorem mmuInvctlGo_written (hgo : bitAt v 20 = false) : Completes (.mmuInvctlGo q v) s (fun t =>
    t = s.setPrt q { s.prt q with invCtl := v &&& 0xFFFF0000006FFFFF }) :=
  completes_of_next (congrArg Host.Outcome.next (if_neg fun h => by rw [hgo] at h; exact absurd h.1 (by decide))) rfl

end

end Sys2Proof.Machine
end

section
/-!
SUPPORT. Tier migration (R252, R253): a migration that opens or is refused, its granules, and its end after the
shoot-down of its leaf.
-/

namespace Sys2Proof.Machine

open Sys2Proof

section
variable {s : State} {q i : Nat} {v : W64}

/-- Reading back a migration slot. -/
theorem Prt.migSlot_setMig (p : Prt) (i : Nat) (m : Mig) : (p.setMig i m).migSlot i = m := Tbl.look_put_self ..

theorem State.migSlot_setPrt (s : State) (q i : Nat) (p : Prt) (m : Mig) :
    ((s.setPrt q (p.setMig i m)).prt q).migSlot i = m := by
  rw [State.prt_setPrt, Prt.migSlot_setMig]

/-! ## MIG_START (R252, R253) -/

/-- The slot with the address space that a write of MIGCTL names. -/
def State.migNamed (s : State) (q i : Nat) (v : W64) : Mig :=
  { (s.prt q).migSlot i with asid := BitVec.ofNat 16 (fld v 63 48) }

theorem migStart_written (hgo : bitAt v 0 = false) :
    Completes (.migStart q i v) s (fun t => (t.prt q).migSlot i = s.migNamed q i v) := by
  refine completes_of_next (congrArg Host.Outcome.next (if_pos (by rw [hgo]; rfl))) ?_
  exact State.migSlot_setPrt ..

theorem migStart_refused (hgo : bitAt v 0 = true) {e : Nat} (he : s.migCheck q i (s.migNamed q i v) = .error e) :
    Completes (.migStart q i v) s (fun t =>
      (t.prt q).migSlot i = { s.migNamed q i v with state := 3, reason := e }) := by
  have hx : exec (.migStart q i v) s =
      .next (s.setPrt q ((s.prt q).setMig i { s.migNamed q i v with state := 3, reason := e })) := by
    change execMigStart q i v s = _
    unfold State.migNamed at *
    unfold execMigStart
    dsimp only
    rw [if_neg (by rw [hgo]; decide), he]
  exact completes_of_next hx (State.migSlot_setPrt ..)

/-- The redirect of a checked migration: it runs on the values that it starts with. -/
def Mig.opened (y : Mig) (l : Leaf) (a : Nat) : Mig :=
  { y with
    state := 1, reason := 0, w := 0, src := l.addr, size := 2 ^ pageBits l.size, leaf := a, inv := none
    run := true, rva := y.va.toNat, rdst := y.dst.toNat, rasid := y.asid }

theorem migStart_opens (hgo : bitAt v 0 = true) {l : Leaf} {a : Nat}
    (hok : s.migCheck q i (s.migNamed q i v) = .ok (l, a)) :
    Completes (.migStart q i v) s (fun t => (t.prt q).migSlot i = (s.migNamed q i v).opened l a ∧
      t.agenda = s.agenda ++ [Instr.migGranuleCopy q i]) := by
  have hx : exec (.migStart q i v) s = .next
      ((s.setPrt q ((s.prt q).setMig i ((s.migNamed q i v).opened l a))).post (.migGranuleCopy q i)) := by
    change execMigStart q i v s = _
    unfold State.migNamed Mig.opened at *
    unfold execMigStart
    dsimp only
    rw [if_neg (by rw [hgo]; decide), hok]
  exact completes_of_next hx ⟨State.migSlot_setPrt .., rfl⟩

/-! ## MIG_GRANULE_COPY (R252) -/

theorem migGranuleCopy_copies {m : Mig} (hm : (s.prt q).migSlot i = m) (hrun : m.run = true) (hw : m.w < m.size)
    {a e : Nat} (ha : s.memHome q (m.src + m.w) = some a) (he : s.memHome q (m.rdst + m.w) = some e) :
    Completes (.migGranuleCopy q i) s (fun t => (t.prt q).migSlot i = { m with w := m.w + 64 } ∧
      ∀ o < 64, t.byteAt (e + o) = (s.performPrt q).byteAt (a + o)) := by
  obtain ⟨u, hu⟩ : ∃ u, u = (s.performPrt q).moveBytes a e 64 := ⟨_, rfl⟩
  have hx : exec (.migGranuleCopy q i) s = .next ((u.setPrt q ((u.prt q).setMig i { m with w := m.w + 64 })).post
      (if m.w + 64 < m.size then .migGranuleCopy q i else .migComplete q i)) := by
    refine (congrArg Host.Outcome.next (if_neg (by rw [hm, hrun]; simpa using hw))).trans ?_
    rw [hm, ha, he, hu]
  refine completes_of_next hx ⟨State.migSlot_setPrt .., fun o ho => ?_⟩
  rw [← State.moveBytes_byteAt _ a e ho, ← hu]
  rfl

/-! ## MIG_COMPLETE (R252 steps 4 to 6) -/

theorem State.rewriteLeaf_unitsKept (s : State) (q : Nat) (m : Mig) : UnitsKept s (s.rewriteLeaf q m) := by
  refine .foldl (fun t k => ?_) _ _
  dsimp only
  split
  · exact t.deviceStore_unitsKept ..
  · exact .refl t

/-- The leaf has been rewritten and the shoot-down of its page started. -/
def State.migShot (s : State) (q : Nat) (m : Mig) : State :=
  ((s.rewriteLeaf q m).startShoot q (BitVec.ofNat 64 (m.rasid.toNat * 2 ^ 48 + m.size / 4096))
    (m.rva / 4096 / (m.size / 4096) * (m.size / 4096)) none).2

theorem State.migShot_genIssued (s : State) (q : Nat) (m : Mig) :
    ((s.migShot q m).prt q).genIssued = (s.prt q).genIssued + 1 := by
  unfold State.migShot
  rw [State.startShoot_prt, (s.rewriteLeaf_unitsKept q m).prt]

section
variable {m : Mig} (hm : (s.prt q).migSlot i = m) (hrun : m.run = true) (hw : m.size ≤ m.w)
include hm hrun hw

theorem migComplete_shoots (hinv : m.inv = none) (hl : (s.prt q).shoots.length < 4) :
    Completes (.migComplete q i) s (fun t => ((t.prt q).migSlot i).inv = some ((s.prt q).genIssued + 1) ∧
      (t.prt q).genIssued = (s.prt q).genIssued + 1) := by
  obtain ⟨u, hu⟩ : ∃ u, u = s.migShot q m := ⟨_, rfl⟩
  have hgen : (u.prt q).genIssued = (s.prt q).genIssued + 1 := by rw [hu, State.migShot_genIssued]
  obtain ⟨p, hp⟩ : ∃ p, p = (u.prt q).setMig i { (u.prt q).migSlot i with inv := some ((s.prt q).genIssued + 1) } :=
    ⟨_, rfl⟩
  have hx : exec (.migComplete q i) s =
      .next (State.completeShoots q ((u.prt q).shoots.length + 1) (u.setPrt q p)) := by
    change execMigComplete q i s = _
    unfold execMigComplete
    dsimp only
    rw [hm, if_neg (by rw [hrun]; simpa using hw), hinv]
    dsimp only
    rw [if_neg (by unfold maxShoots; omega), hp, hu, ← (s.rewriteLeaf_unitsKept q m).prt]
    rfl
  have hdone := State.completeShoots_done q ((u.prt q).shoots.length + 1) (u.setPrt q p)
  refine completes_of_next hx ⟨?_, ?_⟩
  · rw [hdone.migSlot, hp, State.migSlot_setPrt]
  · rw [hdone.genIssued, State.prt_setPrt, hp]
    exact hgen

theorem migComplete_ends {gen : W16} (hinv : m.inv = some gen) (hd : (s.prt q).genDone = gen) :
    Completes (.migComplete q i) s (fun t =>
      (t.prt q).migSlot i = { m with state := 2, inv := none, run := false }) := by
  have hx : exec (.migComplete q i) s =
      .next (s.setPrt q ((s.prt q).setMig i { m with state := 2, inv := none, run := false })) := by
    change execMigComplete q i s = _
    unfold execMigComplete
    dsimp only
    rw [hm, if_neg (by rw [hrun]; simpa using hw), hinv]
    dsimp only
    rw [hd, BitVec.sub_self]
    rfl
  exact completes_of_next hx (State.migSlot_setPrt ..)

end

end

end Sys2Proof.Machine
end

section

open Sys2Proof Sys2Proof.Machine

/-- Settles O51: each clause is the lemma about its event. -/
theorem translationEvents : Obligations.TranslationEvents := by
  intro s q m i u d n f wr b v w h x p mg y found
  refine ⟨fun hws hr hwho hst => pageWalkDone_ends hws hr hwho hst, fun hs hw hm hb => ?_,
    fun hf hn hb => shootdownAck_core hf hn hb, fun hgo hl he => mmuInvctlGo_starts hgo hl he,
    fun hgo => mmuInvctlGo_written hgo, fun hgo => migStart_written hgo,
    fun hgo => ⟨fun e he => migStart_refused hgo he, fun l a hok => migStart_opens hgo hok⟩,
    fun a e hx hrun hw ha he => ?_, fun hrun hw hinv hl => migComplete_shoots rfl hrun hw hinv hl,
    fun gen hrun hw hinv hd => migComplete_ends rfl hrun hw hinv hd⟩
  · obtain ⟨t, ht, hshoots, hdone, hreply⟩ := shootdownAck_last hs hw hm hb
    exact ⟨t, ht, hshoots, hdone, hreply u d⟩
  · rw [hx]
    exact migGranuleCopy_copies rfl hrun hw ha he

end

section
/-!
SUPPORT. The end of a thread (R328, R257): stores and counters that follow it leave the record of a thread that waits
for no word alone, so its slot stays EMPTY.
-/

namespace Sys2Proof.Machine

open Sys2Proof

/-! ## What leaves a thread that waits for no word alone -/

section
variable {s t u : State}

/-- `t` runs the same thread as `s`, no further thread waits for a word, and one that waits for none has the record it
had. -/
structure LeavesIdle (s t : State) : Prop where
  tid : t.tid = s.tid
  waiters : ∀ w ∈ t.waiters, w ∈ s.waiters
  idle : ∀ v, (∀ w ∈ s.waiters, w.tid ≠ v) → t.thread v = s.thread v

namespace LeavesIdle

theorem of_threads (ht : t.tid = s.tid) (hw : t.waiters = s.waiters) (hth : t.threads = s.threads) : LeavesIdle s t :=
  ⟨ht, fun _ h => hw ▸ h, fun v _ => State.thread_of_threads hth v⟩

theorem refl (s : State) : LeavesIdle s s := of_threads rfl rfl rfl

theorem trans (h : LeavesIdle s t) (k : LeavesIdle t u) : LeavesIdle s u where
  tid := k.tid.trans h.tid
  waiters w hw := h.waiters w (k.waiters w hw)
  idle v hv := (k.idle v fun w hw => hv w (h.waiters w hw)).trans (h.idle v hv)

theorem foldl {β : Type} {f : State → β → State} (hf : ∀ s b, LeavesIdle s (f s b)) (l : List β) (s : State) :
    LeavesIdle s (l.foldl f s) := foldl_related refl trans hf l s

theorem ite {c : Prop} [Decidable c] (h : LeavesIdle s t) (k : LeavesIdle s u) : LeavesIdle s (if c then t else u) := by
  split
  · exact h
  · exact k

end LeavesIdle

theorem CachesOnly.leavesIdle (h : CachesOnly s t) : LeavesIdle s t :=
  .of_threads (by rw [← h]) h.waiters h.threads

theorem SignalsOnly.leavesIdle (h : SignalsOnly s t) : LeavesIdle s t :=
  .of_threads h.tid (by rw [← h]) h.threads

theorem WakesOnly.leavesIdle (h : WakesOnly s t) : LeavesIdle s t :=
  .of_threads (by rw [← h]) (by rw [← h]) (by rw [← h])

/-! ## Waiters that are served (R337) -/

/-- Serving thread `v` changes no other thread's record, nor who waits. -/
structure ServesOnly (v : Nat) (s t : State) : Prop where
  tid : t.tid = s.tid
  waiters : t.waiters = s.waiters
  others : ∀ x, x ≠ v → t.thread x = s.thread x

namespace ServesOnly

variable {v : Nat}

theorem of_threads (ht : t.tid = s.tid) (hw : t.waiters = s.waiters) (hth : t.threads = s.threads) : ServesOnly v s t :=
  ⟨ht, hw, fun x _ => State.thread_of_threads hth x⟩

theorem refl (s : State) : ServesOnly v s s := of_threads rfl rfl rfl

theorem trans (h : ServesOnly v s t) (k : ServesOnly v t u) : ServesOnly v s u :=
  ⟨k.tid.trans h.tid, k.waiters.trans h.waiters, fun x hx => (k.others x hx).trans (h.others x hx)⟩

theorem ite {c : Prop} [Decidable c] (h : ServesOnly v s t) (k : ServesOnly v s u) :
    ServesOnly v s (if c then t else u) := by
  split
  · exact h
  · exact k

theorem setThread (s : State) (v : Nat) (th : Thread) : ServesOnly v s (s.setThread v th) :=
  ⟨rfl, rfl, fun x hx => State.thread_setThread_ne s v x th hx⟩

end ServesOnly

theorem CachesOnly.servesOnly (h : CachesOnly s t) (v : Nat) : ServesOnly v s t :=
  .of_threads (by rw [← h]) h.waiters h.threads

end

section
variable (s : State)

theorem State.serve_servesOnly (w : Waiter) : ServesOnly w.tid s (s.serve w) := by
  unfold State.serve
  split
  · exact .setThread ..
  · extract_lets m t old tid x u scope
    have ht : ServesOnly tid s t := (s.homeAccess_caches m w.part).servesOnly tid
    have hu : ServesOnly tid t u := by
      unfold u
      split
      next d clr _ =>
        have hf : ServesOnly tid t (if clr then t.setFull w.addr false else t) :=
          .ite (.of_threads rfl rfl rfl) (.refl t)
        exact hf.trans (.setThread _ tid _)
      · exact .of_threads rfl rfl rfl
      · exact ServesOnly.trans (t := t.writeHome ..) (.of_threads rfl rfl rfl) (.setThread ..)
      · exact .setThread ..
      · exact .setThread ..
    have ha : ServesOnly tid u (if w.acq then u.acquireAt m scope else u) :=
      .ite ((u.acquireAt_caches m scope).servesOnly tid) (.refl u)
    exact ((ht.trans hu).trans ha).trans (.setThread ..)

theorem State.serveN_leavesIdle (a n : Nat) : LeavesIdle s (s.serveN a n) := by
  induction n generalizing s with
  | zero => exact .refl s
  | succ n ih =>
    unfold State.serveN
    split
    next w hw =>
      have hs := State.serve_servesOnly { s with waiters := s.waiters.erase w } w
      refine LeavesIdle.trans ⟨hs.tid, fun x hx => ?_, fun v hv => ?_⟩ (ih _)
      · rw [hs.waiters] at hx
        exact List.mem_of_mem_erase hx
      · exact hs.others v (hv w (List.mem_of_find?_eq_some hw)).symm
    next => exact .refl s

theorem State.serveRange_leavesIdle (a n : Nat) : LeavesIdle s (s.serveRange a n) :=
  .ite (.refl s) (.foldl (fun t b => t.serveN_leavesIdle b _) _ _)

theorem State.deviceStore_leavesIdle (a : Nat) (l : List Byte) : LeavesIdle s (s.deviceStore a l) :=
  LeavesIdle.trans (t := s.deviceWrite a l) (.of_threads rfl rfl rfl) (State.serveRange_leavesIdle ..)

/-! ## Writes by an agent (R117) -/

theorem State.agentPut_leavesIdle (d : Nat) (p : Part) (l : List Byte) : LeavesIdle s (s.agentPut d p l) := by
  obtain ⟨u, hu, heq⟩ := s.agentPut_stores d p l
  rw [heq]
  exact hu.leavesIdle.trans (u.deviceStore_leavesIdle ..)

variable {s}

theorem State.agentWrite_leavesIdle {a : Agent} {va : Nat} {l : List Byte} {t : State}
    (h : s.agentWrite a va l = .ok t) : LeavesIdle s t := by
  unfold State.agentWrite at h
  split at h
  case h_1 ps _ =>
    cases h
    exact List.foldlRecOn (motive := fun acc : State × List Byte => LeavesIdle s acc.1) ps _ (.refl s)
      (fun acc hacc p _ => hacc.trans (acc.1.agentPut_leavesIdle ..))
  all_goals cases h

theorem State.writeBack_leavesIdle {q root va : Nat} {w : W64} {t : State} (h : s.writeBack q root va w = some t) :
    LeavesIdle s t := by
  unfold State.writeBack at h
  split at h
  · split at h
    · cases h
    · split at h
      next hw => cases h; exact State.agentWrite_leavesIdle hw
      next => cases h
  · cases h

end

/-! ## Counters that resolve (R116, R125) -/

section
variable (s : State)

theorem State.irqVfs_leavesIdle (q vec : Nat) : LeavesIdle s (s.irqVfs q vec) := .of_threads rfl rfl rfl

theorem State.setPrt_leavesIdle (q : Nat) (p : Prt) : LeavesIdle s (s.setPrt q p) := .of_threads rfl rfl rfl

theorem State.post_leavesIdle (e : Instr) : LeavesIdle s (s.post e) := .of_threads rfl rfl rfl

theorem State.newId_leavesIdle : LeavesIdle s s.newId.2 := .of_threads rfl rfl rfl

theorem State.pokeReads_leavesIdle (q : Nat) : LeavesIdle s (s.pokeReads q) :=
  .foldl (fun t _ => .ite (t.post_leavesIdle _) (.refl t)) _ _

theorem State.childDone_leavesIdle (q lvl i : Nat) (st : CStat) (reason : Nat) :
    LeavesIdle s (s.childDone q lvl i st reason) := s.setPrt_leavesIdle ..

theorem State.takeStatus_leavesIdle (q lvl i : Nat) : LeavesIdle s (s.takeStatus q lvl i) := by
  unfold State.takeStatus
  extract_lets c
  split
  extract_lets t
  have ht : LeavesIdle s t := s.setPrt_leavesIdle ..
  exact ht.trans (.ite (State.debugEvent_signals ..).leavesIdle
    (.ite (State.debugEvent_signals ..).leavesIdle (.refl t)))

theorem State.resolveLaunch_leavesIdle (q i : Nat) : LeavesIdle s (s.resolveLaunch q i) := by
  unfold State.resolveLaunch
  extract_lets t r c w u
  have ht : LeavesIdle s t := s.takeStatus_leavesIdle ..
  have hu : LeavesIdle t u := by
    unfold u
    split
    · split
      next v hv =>
        exact ((State.writeBack_leavesIdle hv).trans (v.setPrt_leavesIdle ..)).trans (State.pokeReads_leavesIdle ..)
      next => exact .refl t
    · exact .refl t
  split
  next seq v hv =>
    have huv : LeavesIdle u v := by
      have := u.newId_leavesIdle
      rwa [hv] at this
    extract_lets p g p'
    exact ((ht.trans hu).trans huv).trans ((v.setPrt_leavesIdle ..).trans (State.childDone_leavesIdle ..))

theorem State.resolveGraph_leavesIdle (q i : Nat) : LeavesIdle s (s.resolveGraph q i) := by
  unfold State.resolveGraph
  extract_lets t c p ph r r' u
  have ht : LeavesIdle s t := s.takeStatus_leavesIdle ..
  have hu : LeavesIdle t u := t.setPrt_leavesIdle ..
  exact (ht.trans hu).trans (u.childDone_leavesIdle ..)

theorem State.resolvePhase_leavesIdle (q i : Nat) : LeavesIdle s (s.resolvePhase q i) := by
  unfold State.resolvePhase
  extract_lets t c r jr u p v x j j'
  have ht : LeavesIdle s t := s.takeStatus_leavesIdle ..
  have hu : LeavesIdle t u := by
    unfold u
    split
    · split
      next hw => exact State.agentWrite_leavesIdle hw
      next => exact .refl t
    · exact .refl t
  have hv : LeavesIdle u v := u.setPrt_leavesIdle ..
  have hx : LeavesIdle v x := v.childDone_leavesIdle ..
  refine ((ht.trans hu).trans (hv.trans hx)).trans ?_
  exact .ite (.ite (x.post_leavesIdle _) (.refl x)) (x.setPrt_leavesIdle ..)

theorem State.resolveJob_leavesIdle (q i : Nat) : LeavesIdle s (s.resolveJob q i) := by
  unfold State.resolveJob
  extract_lets t c r u
  have ht : LeavesIdle s t := s.takeStatus_leavesIdle ..
  have hu : LeavesIdle t u := by
    unfold u
    split
    · split
      next v hv => exact (State.writeBack_leavesIdle hv).trans (v.setPrt_leavesIdle ..)
      next => exact .refl t
    · exact .refl t
  exact (ht.trans hu).trans (.ite (u.irqVfs_leavesIdle ..) (.refl u))

theorem State.resolve_leavesIdle (q lvl i : Nat) : LeavesIdle s (s.resolve q lvl i) := by
  unfold State.resolve
  split
  · exact s.resolveLaunch_leavesIdle q i
  · exact s.resolveGraph_leavesIdle q i
  · exact s.resolvePhase_leavesIdle q i
  · exact s.resolveJob_leavesIdle q i

theorem State.depPass_leavesIdle (q : Nat) : LeavesIdle s (s.depPass q) := by
  unfold State.depPass
  extract_lets p bads
  split
  · split
    next seq t ht =>
      have hst : LeavesIdle s t := by
        have := s.newId_leavesIdle
        rwa [ht] at this
      extract_lets lr p' u
      have hu : LeavesIdle t u := t.setPrt_leavesIdle ..
      exact (hst.trans hu).trans (.ite (u.post_leavesIdle _) (.refl u))
  · exact .refl s

theorem State.settleN_leavesIdle (q n : Nat) : LeavesIdle s (State.settleN q n s) := by
  induction n generalizing s with
  | zero => exact .refl s
  | succ n ih =>
    unfold State.settleN
    extract_lets t
    have ht : LeavesIdle s t := s.depPass_leavesIdle q
    split
    · exact (ht.trans (t.resolve_leavesIdle ..)).trans (ih _)
    · exact ht

theorem State.unitEnd_leavesIdle (q lslot : Nat) (st : CStat) (reason : Nat) :
    LeavesIdle s (s.unitEnd q lslot st reason) :=
  .ite ((s.childDone_leavesIdle ..).trans (State.settleN_leavesIdle ..)) (.refl s)

end

/-! ## Up to the release of the slot (R328) -/

section
variable {s t u : State}

/-- `t` runs the same thread as `s`, and the same threads wait for words. -/
structure SameWaits (s t : State) : Prop where
  tid : t.tid = s.tid
  waiters : t.waiters = s.waiters

theorem SameWaits.refl (s : State) : SameWaits s s := ⟨rfl, rfl⟩

theorem SameWaits.trans (h : SameWaits s t) (k : SameWaits t u) : SameWaits s u :=
  ⟨k.tid.trans h.tid, k.waiters.trans h.waiters⟩

theorem UnitsKept.tid (h : UnitsKept s t) : t.tid = s.tid := by
  rw [← h.rest]

end

section
variable (s : State)

theorem State.withdraw_tid (v : Nat) : (s.withdraw v).tid = s.tid := by
  unfold State.withdraw
  extract_lets c th t
  have ht : t.tid = s.tid := by
    unfold t
    split <;> rfl
  exact ht

theorem State.withdraw_waiters (v : Nat) : ∀ w ∈ (s.withdraw v).waiters, w.tid ≠ v := by
  unfold State.withdraw
  extract_lets c th t
  intro w hw
  exact bne_iff_ne.1 (List.mem_filter.1 hw).2

theorem State.forget_sameWaits (v : Nat) : SameWaits s (s.forget v) := ⟨rfl, rfl⟩

theorem State.setClu_sameWaits (m : Nat) (c : Cluster) : SameWaits s (s.setClu m c) := ⟨rfl, rfl⟩

theorem State.freeTicket_sameWaits (h : Held) : SameWaits s (s.freeTicket h) := by
  unfold State.freeTicket
  extract_lets r
  split
  · exact ⟨rfl, rfl⟩
  · exact .refl s

theorem State.releaseRow_sameWaits (m id row : Nat) : SameWaits s (s.releaseRow m id row) := ⟨rfl, rfl⟩

/-- The record of a thread that has ended (R328): the slot is EMPTY, its flags, predicates and trap state are gone. -/
def Thread.ended (th : Thread) : Thread :=
  { th with st := .empty, held := none, row := none, uiPend := [], atHome := false, poll := false
            wfault := [], fills := [], wiWait := false, wi := 0, fflags := 0, p := 0, intrap := false
            uiin := false, uiSup := false, rlx := 0, arrived := false, cmds := [], late := [], lateTrap := none
            served := false, filled := false }

/-- A thread that ends leaves its slot EMPTY, and what its end counts and posts leaves it so. -/
theorem State.endThread_ends (v : Nat) (st : CStat) (reason : Nat) :
    (s.endThread v st reason).tid = s.tid ∧ ∃ th : Thread, (s.endThread v st reason).thread v = th.ended := by
  unfold State.endThread
  extract_lets c m a th b d cl e th' f g k
  have ha : a.tid = s.tid ∧ ∀ w ∈ a.waiters, w.tid ≠ v :=
    ⟨((State.forget_sameWaits _ v).tid.trans (State.withdraw_tid _ v)).trans (s.performN_unitsKept v _).tid,
      State.withdraw_waiters _ v⟩
  have hb : SameWaits a b := by
    unfold b
    split
    · exact a.freeTicket_sameWaits _
    · exact .refl a
  have hd : SameWaits b d := by
    unfold d
    split
    · exact b.releaseRow_sameWaits ..
    · exact .refl b
  have he : SameWaits a e := (hb.trans hd).trans (d.setClu_sameWaits ..)
  have hf : f.thread v = th'.ended := State.thread_setThread ..
  have hfw : ∀ w ∈ f.waiters, w.tid ≠ v := by
    intro w hw
    exact ha.2 w (he.waiters ▸ hw)
  have hg : LeavesIdle f g := .ite (f.post_leavesIdle _) (.refl f)
  have hk : LeavesIdle g k := .ite (.refl g) (g.post_leavesIdle _)
  have hend : LeavesIdle f ((k.unitEnd th'.prt th'.lslot st reason).pokeCtx th'.prt) :=
    ((hg.trans hk).trans (k.unitEnd_leavesIdle ..)).trans (State.pokeCtx_wakes ..).leavesIdle
  exact ⟨hend.tid.trans (he.tid.trans ha.1), th', (hend.idle v hfw).trans hf⟩

end

/-! ## A thread that a fault ends (R257) -/

section
variable (s : State)

theorem Routes.tid {s t : State} (h : Routes s t) : t.tid = s.tid := by
  rw [← h.only]

theorem State.collAbort_tid (q : Nat) (gtag : W64) (rank : Nat) (sender rcpt : W32) (sent : Bool) :
    (s.collAbort q gtag rank sender rcpt sent).tid = s.tid := by
  unfold State.collAbort
  extract_lets cs d
  split
  · exact foldl_field State.tid (f := fun s c => s.endCmd c 3 0 0) (fun _ _ => rfl) _ s
  · split <;> rfl

theorem State.abortAll_tid (c : ACmd) : (s.abortAll c).tid = s.tid := by
  rw [State.abortAll_eq]
  refine foldl_field State.tid (fun t r => ?_) _ s
  unfold State.abortAt
  extract_lets w
  split
  · exact t.collAbort_tid ..
  · exact (t.sendFrom_routes ..).tid

theorem State.stopColls_tid (cs : List ACmd) : (s.stopColls cs).tid = s.tid := by
  refine foldl_field State.tid (fun t c => ?_) _ s
  extract_lets g
  split
  · exact State.abortAll_tid ..
  · rfl

theorem State.unpin_tid (m : Nat) : (s.unpin m).tid = s.tid :=
  foldl_field State.tid (fun t b => (t.findBlock_unitsKept _ b).tid) _ _

theorem State.stopCommands_tid (fa : ACmd → Bool) (fm : MxCmd → Bool) : (s.stopCommands fa fm).tid = s.tid := by
  unfold State.stopCommands
  extract_lets hit t u
  have ht : t.tid = s.tid := s.stopColls_tid _
  refine (foldl_field State.tid (fun x e => ?_) hit u).trans ht
  extract_lets ran
  rw [(State.pokeTile_wakes _ e.1).leavesIdle.tid]
  split
  · exact x.unpin_tid _
  · rfl

/-- KILL_THREAD leaves the slot of the running thread EMPTY (R257). -/
theorem State.killThread_ends (w : W32) (cause : Nat) (tval : W64) : (s.killThread w cause tval).thr.st = .empty := by
  unfold State.killThread
  extract_lets th site t u
  have htid : (u.stopOf u.tid).tid = u.tid := u.stopCommands_tid _ _
  obtain ⟨hend, th', hth⟩ := (u.stopOf u.tid).endThread_ends u.tid .faulted rUNIT
  unfold State.thr
  rw [hend, htid, hth]
  rfl

/-- A trap inside a handler ends the thread (R257). -/
theorem State.takeTrap_kills {s : State} (h : s.thr.intrap = true) (w : W32) (cause : Nat) (tval : W64) (detail : Nat) :
    (s.takeTrap w cause tval detail).thr.st = .empty := by
  unfold State.takeTrap
  extract_lets th vec
  rw [if_pos (.inl h)]
  exact s.killThread_ends ..

end

/-! ## The words of the two returns, as their traps report them (R299) -/

theorem wordOf_tret_setWidth : (wordOf .tret).setWidth 64 = (0xFC002001 : W64) := by decide

theorem wordOf_uiret_setWidth : (wordOf .uiret).setWidth 64 = (0x78000006 : W64) := by decide

end Sys2Proof.Machine
end

section

open Sys2Proof Sys2Proof.Machine

/-- Settles O8: a word refused outside a handler enters the handler, one refused inside it ends the thread. -/
theorem illegalTraps : Obligations.IllegalTraps := by
  intro s w hv
  refine ⟨completes_of_next rfl (State.takeTrap_trapped hv ..), ?_, fun u hin hsup => ?_, fun hu => ?_⟩
  · refine completes_of_next (congrArg Host.Outcome.next (if_pos (by rw [hv.1]; rfl))) ?_
    rw [← wordOf_tret_setWidth]
    exact State.takeTrap_trapped hv ..
  · refine completes_of_next (congrArg Host.Outcome.next ((if_neg (by rw [hin]; decide)).trans
      (if_pos (by rw [hsup]; rfl)))) ?_
    exact State.takeTrap_kills hin ..
  · refine completes_of_next (congrArg Host.Outcome.next (if_pos (by rw [hu]; rfl))) ?_
    rw [← wordOf_uiret_setWidth]
    exact State.takeTrap_trapped hv ..

/-- Settles O9: each return, its privilege and handler checked, writes the thread's record and nothing else. -/
theorem returns : Obligations.Returns := by
  intro s
  refine ⟨fun hsup hin => ?_, fun hu => ?_⟩
  · exact completes_of_next (congrArg Host.Outcome.next ((if_neg (by rw [hin]; decide)).trans
      (if_neg (by rw [hsup]; decide)))) ⟨onlyThread_setThr s _, State.thr_setThr s _⟩
  · exact completes_of_next (congrArg Host.Outcome.next (if_neg (by rw [hu]; decide)))
      ⟨onlyThread_setThr s _, State.thr_setThr s _⟩

end
